-- ==== Sys2Proof/Word.lean ====
section
/-! DEFINITION. The word types of the block: a byte, a 128-bit tile instruction word (04 R93), a 64-byte descriptor or
submission entry (03 R87, 16 R362), a 32-bit and a 64-bit register. -/
namespace Sys2Proof

/-- One byte. -/
abbrev Byte := BitVec 8

/-- A tile instruction word (04 R93). -/
abbrev IWord := BitVec 128

/-- A 64-byte record: a tensor descriptor (03 Table SPI-3) or a submission entry (16 Table HST-5). -/
abbrev Entry := BitVec 512

/-- A 32-bit register. -/
abbrev W32 := BitVec 32

/-- A 64-bit register. -/
abbrev W64 := BitVec 64

end Sys2Proof
end

