-- ==== Sys2Proof/Syntax.lean ====
section
/-! DEFINITION. The commands of the block: one constructor for each row of spec/opcode_table.json, in its order. A tile
command carries the physical spire and the 128-bit word it issues; a host command the function, the queue pair and the
submission entry; a frame the receiving port and its header; a timer or a sensor event its unit and what is measured. -/
namespace Sys2Proof

/-- Errors that the accesses of one instruction, DMA or model load meet (03 R85; 09 R228; 10 R241): what the environment's bit flips, lost
responses and host answers are, as the command's operand. -/
inductive AccEv where
  /-- A cycle of a scratchpad bank in which several ports request a line (03 R82): the ports by instruction in flight and place in the
  order of ports. -/
  | bankCycle (bank : Nat) (ports : List (Nat × Nat))
  /-- A corrected error in the spire: source of Table SPI-10, bank. -/
  | spireCe (src bank : Nat)
  /-- An uncorrectable error in the spire: source; the scratchpad offset, bank or program counter of the error. -/
  | spireUe (src place : Nat)
  /-- A corrected error on a logical lane of a vault channel. -/
  | vaultCe (v c lane : Nat)
  /-- A corrected error in a dome-store slice. -/
  | domeCe (sl : Nat)
  /-- An uncorrectable error at a vault address. -/
  | vaultUe (pa : Nat)
  /-- An uncorrectable error at a dome-store address: line class 0 job or scratch, 1 clean common, 2 dirty common or system. -/
  | domeUe (pa cls : Nat)
  /-- A corrected error at a far-memory address. -/
  | farCe (pa : Nat)
  /-- An uncorrectable error met in reading a far-memory address. -/
  | farUe (pa : Nat)
  /-- A far-memory access without a response in 1 ms. -/
  | farTimeout (pa : Nat)
  /-- A far-memory write, or the write-back of a dirty line, that was not completed (09 R230). -/
  | farLost (pa : Nat)
  /-- A host error: the status of 09 Table MEM-6; the host-window address, which a DMA does not have. -/
  | hostErr (status pa : Nat)
deriving DecidableEq, Repr

/-- An operand with the errors that the command's accesses meet (03 R85; 09 R228; 10 R236). -/
structure Met (α : Type) where
  val : α
  ev : List AccEv := []
deriving DecidableEq, Repr

/-- The bytes that an agent writes into job memory, or the bytes asked for, and the errors that its accesses meet (09 R228). -/
structure Payload where
  bytes : List Byte
  ev : List AccEv := []
deriving DecidableEq, Repr

/-- A codec engine whose frame ends, and the errors that its accesses met (15 R348, R350). -/
structure EngineRun where
  n : Nat
  ev : List AccEv := []
deriving DecidableEq, Repr

/-- A write issued to its home, and the errors that the home's merging read meets (10 R236, R247). -/
structure HomeApply where
  id : Nat
  ev : List AccEv := []
deriving DecidableEq, Repr

/-- How a flash operation ends (18 R404): done, or an erase or a program has failed a second time. -/
inductive FlashRes where
  | done
  | erase
  | program
deriving DecidableEq, Repr

/-- What a cycle of an arbiter is for the unit under way (11 R265): it goes on, it ends, or it ends and its owner drops the request. -/
inductive UnitEnd where
  | goesOn
  | ends
  | drops
deriving DecidableEq, Repr

/-- What a packet of the mesh carries (11 R255). -/
inductive NetMsg where
  | read | write | atomic | readData | ack | semaphore | mailbox | fenceProbe | walk
deriving DecidableEq, Repr

/-- A request at an arbiter (11 Table NET-3): of a requester by its index, or at a router output a packet that came in by a port, on the virtual
network of what it carries. -/
inductive ArbIn where
  | unit (r : Nat)
  | packet (port : Nat) (m : NetMsg)
deriving DecidableEq, Repr

/-- A request that is withdrawn at an arbiter (11 R268): the granted one of a requester, with the live requests presented in the dead cycle, or
one that the requester has parked. -/
inductive ArbReq where
  | granted (r : ArbIn) (live : List ArbIn)
  | parked (r : ArbIn)
deriving DecidableEq, Repr

/-- The transport header of a received frame (14 Table FAB-3), its port, and whether its FCS was correct. -/
structure Frame where
  port : Nat
  fcs : Bool
  ver : Nat
  type : Nat
  vc : Nat
  cvc : Nat
  lsn : Nat
  ackLsn : Nat
  ackV : Bool
  nak : Bool
  cred : Nat
  srcFa : Nat
  dstFa : Nat
  job : Nat
  group : Nat
  last : Bool
  first : Bool
  arr : Bool
  slot : Nat
  offset : Nat
  plen : Nat
  ether : Nat := 0x88B5
deriving DecidableEq, Repr

/-- The commands. -/
inductive Instr where
  /-- LOOP (R125). -/
  | loop (p : Nat) (w : Met IWord)
  /-- ENDL (R125). -/
  | endl (p : Nat) (w : Met IWord)
  /-- BR (R126). -/
  | br (p : Nat) (w : Met IWord)
  /-- YIELD (R126). -/
  | yield (p : Nat) (w : Met IWord)
  /-- HALT (R126). -/
  | halt (p : Nat) (w : Met IWord)
  /-- GATE (R127). -/
  | gate (p : Nat) (w : Met IWord)
  /-- FINIAL (R128). -/
  | finial (p : Nat) (w : Met IWord)
  /-- MMA (R103). -/
  | mma (p : Nat) (w : IWord) (ev : List AccEv)
  /-- MMA2 (R107). -/
  | mma2 (p : Nat) (w : IWord) (ev : List AccEv)
  /-- VOP_TENSOR (R109). -/
  | vopTensor (p : Nat) (w : IWord) (ev : List AccEv)
  /-- VOP_SCALAR (R109). -/
  | vopScalar (p : Nat) (w : Met IWord)
  /-- VOP_DESCRIPTOR (R110). -/
  | vopDescriptor (p : Nat) (w : Met IWord)
  /-- SFN (R137). -/
  | sfn (p : Nat) (w : IWord) (ev : List AccEv)
  /-- RSTAT (R150). -/
  | rstat (p : Nat) (w : IWord) (ev : List AccEv)
  /-- CDW (R78). -/
  | cdw (p : Nat) (w : IWord) (ev : List AccEv)
  /-- ATTN (R113). -/
  | attn (p : Nat) (w : IWord) (ev : List AccEv)
  /-- QNT (R48). -/
  | qnt (p : Nat) (w : IWord) (ev : List AccEv)
  /-- DQT (R66). -/
  | dqt (p : Nat) (w : IWord) (ev : List AccEv)
  /-- MOVE (R117). -/
  | move (p : Nat) (w : IWord) (ev : List AccEv)
  /-- COMB (R191). -/
  | comb (p : Nat) (w : IWord) (ev : List AccEv)
  /-- XSEND (R322). -/
  | xsend (p : Nat) (w : IWord) (ev : List AccEv)
  /-- XRECV_ARM (R326). -/
  | xrecvArm (p : Nat) (w : Met IWord)
  /-- XRECV_WAIT (R326). -/
  | xrecvWait (p : Nat) (w : Met IWord)
  /-- SIG (R122). -/
  | sig (p : Nat) (w : Met IWord)
  /-- WAITS (R122). -/
  | waits (p : Nat) (w : Met IWord)
  /-- FENCE (R123). -/
  | fence (p : Nat) (w : Met IWord)
  /-- INSTRUCTION_COMPLETE (R83). -/
  | instructionComplete (p seq : Nat)
  /-- FENCE_COMPLETE (R123). -/
  | fenceComplete (p seq : Nat)
  /-- XSEND_COMPLETE (R327). -/
  | xsendComplete (p seq : Nat)
  /-- PSTR_MGROUP_START (R328). -/
  | pstrMgroupStart (p seq : Nat)
  /-- SPIRE_HANG (R91). -/
  | spireHang (p : Nat)
  /-- CARRIED_SPIRE_CHANGE (R25). -/
  | carriedSpireChange (p : Met Nat)
  /-- CARRIED_SPIRE_QUANTUM (R25). -/
  | carriedSpireQuantum (p : Nat)
  /-- STEAL_ITERATION (R129). -/
  | stealIteration (p owner : Nat)
  /-- SAVE_COMPLETE (R89). -/
  | saveComplete (p : Met Nat)
  /-- CLEAR (R92). -/
  | clear (p : Nat)
  /-- RUN (R92). -/
  | run (p : Nat)
  /-- SAVE_REQ (R89). -/
  | saveReq (p : Nat)
  /-- SFN_COMPAT (R92). -/
  | sfnCompat (p : Nat) (on : Bool)
  /-- SEMAPHORE_HOME_CYCLE (R278). -/
  | semaphoreHomeCycle (scope home : Nat) (sigs : List Nat) (order : Met (List Nat))
  /-- HOME_WRITE_APPLY (R256). -/
  | homeWriteApply (id : HomeApply)
  /-- RING_ADV (R166). -/
  | ringAdv (j : Nat) (ring : Met Nat)
  /-- RING_REL (R168). -/
  | ringRel (j : Nat) (ring : Met Nat)
  /-- KEY_LIST_GENERATION (R167). -/
  | keyListGeneration (j : Nat) (ring : Met Nat)
  /-- PREFIX_WRITE (R175). -/
  | prefixWrite (j : Nat) (vpn : Met Nat)
  /-- SQ_TAIL_DOORBELL (R365). -/
  | sqTailDoorbell (fn q off size v : Nat)
  /-- CQ_HEAD_DOORBELL (R365). -/
  | cqHeadDoorbell (fn q off size v : Nat)
  /-- SQ_ENTRY_FETCH (R366). -/
  | sqEntryFetch (fn q : Nat)
  /-- ADMIN_QUEUE_ENABLE (R360). -/
  | adminQueueEnable (fn : Nat)
  /-- ADMIN_QUEUE_DISABLE (R360). -/
  | adminQueueDisable (fn : Nat)
  /-- BAR4_ACCESS (R359). -/
  | bar4Access (write : Bool) (off : Nat) (data : Payload)
  /-- QP_CREATE (R361). -/
  | qpCreate (fn q : Nat) (e : Entry)
  /-- QP_DELETE (R361). -/
  | qpDelete (fn q : Nat) (e : Entry)
  /-- QP_ALLOT (R361). -/
  | qpAllot (fn q : Nat) (e : Entry)
  /-- PROGRAM_LOAD (R102). -/
  | programLoad (fn q : Nat) (e : Entry)
  /-- PROGRAM_UNLOAD (R368). -/
  | programUnload (fn q : Nat) (e : Entry)
  /-- JOB_ADMIT (R225). -/
  | jobAdmit (fn q : Nat) (e : Entry)
  /-- JOB_RELEASE (R394). -/
  | jobRelease (fn q : Nat) (e : Entry)
  /-- MODEL_LOAD (R301). -/
  | modelLoad (fn q : Nat) (e : Entry)
  /-- MODEL_PIN (R301). -/
  | modelPin (fn q : Nat) (e : Entry)
  /-- MODEL_UNPIN (R301). -/
  | modelUnpin (fn q : Nat) (e : Entry)
  /-- MODEL_EVICT (R303). -/
  | modelEvict (fn q : Nat) (e : Entry)
  /-- MODEL_LOAD_COMPLETE (R301). -/
  | modelLoadComplete (h : Nat) (ev : List AccEv)
  /-- HOTSET_EVICTION_END (R301). -/
  | hotsetEvictionEnd (h : Nat)
  /-- WINDOW_MAP (R371). -/
  | windowMap (fn q : Nat) (e : Entry)
  /-- WINDOW_UNMAP (R371). -/
  | windowUnmap (fn q : Nat) (e : Entry)
  /-- QUERY (R372). -/
  | query (fn q : Nat) (e : Entry)
  /-- ASYNC_EVENT (R374). -/
  | asyncEvent (fn q : Nat) (e : Entry)
  /-- MARGIN (R251). -/
  | margin (fn q : Nat) (e : Entry)
  /-- CALIB_READ (R410). -/
  | calibRead (fn q : Nat) (e : Entry)
  /-- CALIB_WRITE (R410). -/
  | calibWrite (fn q : Nat) (e : Entry)
  /-- EVR_FREEZE (R401). -/
  | evrFreeze (fn q : Nat) (e : Entry)
  /-- EVR_UNFREEZE (R401). -/
  | evrUnfreeze (fn q : Nat) (e : Entry)
  /-- EVR_CLEAR (R402). -/
  | evrClear (fn q : Nat) (e : Entry)
  /-- SUBMIT (R369). -/
  | submit (fn q : Nat) (e : Entry)
  /-- DMA (R372). -/
  | dma (fn q : Nat) (e : Entry) (ev : List AccEv)
  /-- CODEC_OPEN (R342). -/
  | codecOpen (fn q : Nat) (e : Entry)
  /-- CODEC_CLOSE (R341). -/
  | codecClose (fn q : Nat) (e : Entry)
  /-- CODEC_FRAME (R344). -/
  | codecFrame (fn q : Nat) (e : Entry)
  /-- CODEC_RELEASE (R347). -/
  | codecRelease (fn q : Nat) (e : Entry)
  /-- REQUEST_DISPATCH (R28). -/
  | requestDispatch (j : Nat)
  /-- REQUEST_COMPLETION (R263). -/
  | requestCompletion (j : Nat)
  /-- MSIX_COALESCE_TIMEOUT (R367). -/
  | msixCoalesceTimeout (fn q : Nat)
  /-- FUNCTION_LEVEL_RESET (R375). -/
  | functionLevelReset (fn : Nat)
  /-- HOT_RESET (R416). -/
  | hotReset
  /-- DOE_DISCOVERY (R377). -/
  | doeDiscovery (fn : Nat) (obj : List Byte)
  /-- DOE_ABORT (R377). -/
  | doeAbort (fn : Nat)
  /-- GET_CERTS (R387). -/
  | getCerts (fn : Nat) (obj : List Byte)
  /-- GET_REPORT (R386). -/
  | getReport (fn : Nat) (obj : List Byte)
  /-- KEY_DELIVER (R388). -/
  | keyDeliver (fn : Nat) (obj : List Byte)
  /-- SWITCH (R294). -/
  | switch (g j : Nat)
  /-- QUANTUM_EXPIRY (R293). -/
  | quantumExpiry (g : Nat)
  /-- COLL_WATCHDOG (R300). -/
  | collWatchdog (j l : Nat)
  /-- GO_WAIT_TIMEOUT (R318). -/
  | goWaitTimeout (j : Nat)
  /-- DATA (R323). -/
  | data (f : Frame) (piece : Payload)
  /-- LINK (R309). -/
  | link (f : Frame)
  /-- ACK_TIMER (R309). -/
  | ackTimer (port : Nat)
  /-- REPLAY_TIMEOUT (R309). -/
  | replayTimeout (port : Nat)
  /-- PORT_TRAINING (R307). -/
  | portTraining (port lanes : Nat)
  /-- PORT_TRAIN_RETRY (R307). -/
  | portTrainRetry (port lanes : Nat)
  /-- LINK_DOWN (R316). -/
  | linkDown (port : Nat)
  /-- HELLO_TIMER (R312). -/
  | helloTimer (port : Nat)
  /-- ROSTER (R313). -/
  | roster (f : Frame) (tower pos gen mib : Nat) (present : List (Nat × Nat))
  /-- TOWERS (R313). -/
  | towers (f : Frame) (gen : Nat) (map : List Nat)
  /-- REQ_READY (R318). -/
  | reqReady (f : Frame) (l req : Nat)
  /-- RED_VERDICT (R330). -/
  | redVerdict (f : Frame) (g : Nat) (granted : Bool)
  /-- GO (R318). -/
  | go (f : Frame) (req : Nat) (verdict : Nat)
  /-- PAUSE (R299). -/
  | pause (f : Frame) (l : Nat)
  /-- RESUME (R299). -/
  | resume (f : Frame) (l : Nat)
  /-- REQ_END (R181). -/
  | reqEnd (f : Frame) (l req status : Nat)
  /-- JOB_FAULT (R316). -/
  | jobFault (f : Frame) (l cause : Nat)
  /-- BEAT (R317). -/
  | beat (f : Frame) (l : Nat)
  /-- BEAT_TIMER (R317). -/
  | beatTimer (j : Nat)
  /-- BEAT_TIMEOUT (R317). -/
  | beatTimeout (j : Nat)
  /-- LANDED (R327). -/
  | landed (f : Frame) (l seq : Nat)
  /-- RED_RESULT (R331). -/
  | redResult (f : Frame) (piece : Payload)
  /-- FRAME_START (R345). -/
  | frameStart (n : Nat)
  /-- FRAME_END (R348). -/
  | frameEnd (e : EngineRun)
  /-- CODEC_ENGINE_HANG (R350). -/
  | codecEngineHang (n : Nat)
  /-- VAULT_REFRESH (R242). -/
  | vaultRefresh (v c bank : Nat)
  /-- VAULT_TEMP_SAMPLE (R242). -/
  | vaultTempSample (v layer : Nat) (temp : Int)
  /-- VAULT_WRITE_TURN (R243). -/
  | vaultWriteTurn (v c : Nat)
  /-- VAULT_PATROL (R241). -/
  | vaultPatrol (v : Nat) (lane : Option Nat) (ue : Bool)
  /-- FAR_ACCESS_TIMEOUT (R249). -/
  | farAccessTimeout (c j pa : Nat)
  /-- FAR_UE_WINDOW_END (R249). -/
  | farUeWindowEnd (c : Nat)
  /-- FAR_REFRESH_READ (R250). -/
  | farRefreshRead (pkg : Nat) (hot : Bool)
  /-- FAR_WRITE_LOST (R230). -/
  | farWriteLost (c j pa : Nat)
  /-- HOST_COMPLETION_TIMEOUT (R228). -/
  | hostCompletionTimeout (j pa : Nat)
  /-- ARB_GRANT (R265): a cycle of an instance: new requests, the unit under way. -/
  | arbGrant (a : Nat) (reqs : List ArbIn) (last : UnitEnd)
  /-- ARB_WITHDRAW (R268). -/
  | arbWithdraw (a : Nat) (r : ArbReq)
  /-- ARB_WINDOW_END (R271). -/
  | arbWindowEnd (a : Nat)
  /-- ARB_STARVE_FLAG (R270). -/
  | arbStarveFlag (a r : Nat)
  /-- NET_ARB_MODE (R267). -/
  | netArbMode (mode : Nat)
  /-- EVR_DATA7_READ (R400). -/
  | evrData7Read
  /-- EVR_FLUSH (R398). -/
  | evrFlush (res : FlashRes)
  /-- EVR_FREEZE_LIMIT (R401). -/
  | evrFreezeLimit
  /-- STORE_HOURLY_WRITE (R407). -/
  | storeHourlyWrite (res : FlashRes)
  /-- COLD_RESET (R417). -/
  | coldReset (strap : Nat) (fails : Met (List (Nat × Nat)))
  /-- PWRGD_FALL (R415). -/
  | pwrgdFall
  /-- WARM_RESET (R417). -/
  | warmReset (strap : Nat) (fails : Met (List (Nat × Nat)))
  /-- PERST_N_DEASSERT (R417). -/
  | perstNDeassert
  /-- FAR_MEMORY_TRAINING (R248). -/
  | farMemoryTraining (fails : List Nat)
  /-- PWR_GATE_EN (R420). -/
  | pwrGateEn (n : Nat) (en : Bool)
  /-- GATE_TRANSITION_END (R420). -/
  | gateTransitionEnd (n : Nat)
  /-- THERMAL_LEVEL_UPDATE (R423). -/
  | thermalLevelUpdate (temps : List Int) (video : Int)
  /-- POWER_ESTIMATE (R424). -/
  | powerEstimate (watts : Nat)
  /-- DEV_LEVEL_UPDATE (R424). -/
  | devLevelUpdate
  /-- CORE_CURRENT_ESTIMATE (R424). -/
  | coreCurrentEstimate (amps : Nat)
  /-- LEVEL_CHANGE_DONE (R425). -/
  | levelChangeDone (c : Nat)
  /-- THERMAL_TRIP (R426). -/
  | thermalTrip (sensor : Nat) (temp : Int)
  /-- SHUTDOWN (R427). -/
  | shutdown (fn : Nat)
  /-- ALERT_CAUSE_CLEAR (R433). -/
  | alertCauseClear (fn mask : Nat)
  /-- PLL_LOCK_LOST (R418). -/
  | pllLockLost (island which : Nat)
  /-- RAIL_OUT_OF_TOLERANCE (R430). -/
  | railOutOfTolerance (rail mv : Nat)
  /-- LANTERN_WATCHDOG_EXPIRY (R432). -/
  | lanternWatchdogExpiry
  /-- MGMT_STATUS (R449). -/
  | mgmtStatus
  /-- MGMT_SHUTDOWN (R449). -/
  | mgmtShutdown
  /-- FLASH_READ (R449). -/
  | flashRead (addr len : Nat)
  /-- FLASH_ERASE (R449). -/
  | flashErase (addr : Nat) (ok : Bool)
  /-- FLASH_PROGRAM (R449). -/
  | flashProgram (addr : Nat) (bytes : List Byte) (ok : Bool)
  /-- RECOVERY_DATA (R449). -/
  | recoveryData (off : Nat) (bytes : List Byte)
  /-- MGMT_RECOVERY_BOOT (R381). -/
  | mgmtRecoveryBoot (len : Nat) (fails : Met (List (Nat × Nat)))
  /-- BAR0_BAD_ACCESS (R439). -/
  | bar0BadAccess (fn off size : Nat) (write : Bool)
  /-- REGISTER_WRITE (R439). -/
  | registerWrite (fn off size v : Nat)
  /-- MARGIN_COMPLETE (R251). -/
  | marginComplete (lanes : List (Nat × Nat × Nat))
  /-- PM_D3HOT_ENTRY (R357). -/
  | pmD3hotEntry (fn : Nat)
  /-- VF_ENABLE (R361). -/
  | vfEnable (n : Nat)
  /-- DOE_UNSUPPORTED_OBJECT (R377). -/
  | doeUnsupportedObject (fn : Nat) (obj : List Byte)
  /-- JTAG_BOUNDARY_SCAN (R393). -/
  | jtagBoundaryScan (ir dr : Nat)
deriving DecidableEq, Repr

end Sys2Proof
end

