-- ==== Sys2Proof/Decode.lean ====
section
/-! DEFINITION. The decoder of the opcode table's words. No row of the table gives its command bits, so no word spells a command; the
128-bit words of tile programs and the 64-byte entries of queues are operands of commands (Machine/Encoding.lean, Machine/HostOps.lean). -/
namespace Sys2Proof

/-- The command that a word of the table spells: none. -/
def decodeTableWord (_nbits _w : Nat) : Option Instr := none

end Sys2Proof
end

