-- ==== Sys2Proof/Machine/Bits.lean ====
section
/-! DEFINITION. Plain helpers: bit fields of a number, little-endian byte lists, sign extension, division that rounds
to nearest even, sorted tables keyed by a number. Field positions are written [hi:lo] as the spec writes them. -/
namespace Sys2Proof.Machine

/-- Bits [hi:lo] of a number. -/
def fld (w hi lo : Nat) : Nat := (w >>> lo) % 2 ^ (hi + 1 - lo)

/-- Bit i of a number, as a Bool. -/
def bitOf (w i : Nat) : Bool := (w >>> i) % 2 == 1

/-- A Bool as a one-bit number. -/
def b2n (b : Bool) : Nat := if b then 1 else 0

/-- `w` with bits [hi:lo] replaced by `v`. -/
def setFld (w hi lo v : Nat) : Nat :=
  let width := hi + 1 - lo
  w - (fld w hi lo <<< lo) + ((v % 2 ^ width) <<< lo)

/-- The `n` low bytes of a number, lowest first (all multi-byte data is little-endian). -/
def leBytes : Nat → Nat → List Nat
  | 0, _ => []
  | n + 1, v => v % 256 :: leBytes n (v / 256)

/-- The number that a list of bytes spells, lowest byte first. -/
def ofLe : List Nat → Nat
  | [] => 0
  | b :: bs => b % 256 + 256 * ofLe bs

/-- `n` bytes from a byte reader, starting at `a`. -/
def rdBytes (rd : Nat → Nat) (a n : Nat) : List Nat := (List.range n).map fun i => rd (a + i)

/-- A little-endian number of `n` bytes. -/
def rdLe (rd : Nat → Nat) (a n : Nat) : Nat := ofLe (rdBytes rd a n)

/-- `v` read as a two's complement number of `n` bits. -/
def sext (n v : Nat) : Int := if v % 2 ^ n < 2 ^ (n - 1) then (v % 2 ^ n : Nat) else (v % 2 ^ n : Nat) - (2 ^ n : Nat)

/-- An integer modulo 2^64, as a register value (03 R86: scalar arithmetic wraps). -/
def wrap64 (v : Int) : Nat := (v % (2 ^ 64 : Nat)).toNat

/-- Ceiling of a quotient. -/
def cdiv (a b : Nat) : Nat := (a + b - 1) / b

/-- Rounding up to a multiple. -/
def roundUp (a b : Nat) : Nat := cdiv a b * b

/-- The quotient rounded to nearest, ties to even. -/
def rneDiv (n d : Nat) : Nat :=
  let q := n / d
  let r := n % d
  if 2 * r < d then q else if d < 2 * r then q + 1 else q + q % 2

/-- Saturating addition at the top of an `n`-bit field. -/
def satAdd (n a b : Nat) : Nat := min (a + b) (2 ^ n - 1)

/-- A table keyed by numbers, keys rising; a key not listed has the reader's default. -/
abbrev Tbl (α : Type) := List (Nat × α)

/-- The entry at a key, if listed. -/
def tfind {α : Type} : Tbl α → Nat → Option α
  | [], _ => none
  | (k, v) :: t, i => if k = i then some v else tfind t i

/-- The entry at a key, or the default. -/
def tget {α : Type} (d : α) (t : Tbl α) (i : Nat) : α := (tfind t i).getD d

/-- The table with the entry at a key replaced or put in its place. -/
def tset {α : Type} : Tbl α → Nat → α → Tbl α
  | [], i, v => [(i, v)]
  | (k, w) :: t, i, v =>
    if i < k then (i, v) :: (k, w) :: t else if i = k then (i, v) :: t else (k, w) :: tset t i v

/-- The table without the entry at a key. -/
def tdel {α : Type} (t : Tbl α) (i : Nat) : Tbl α := t.filter fun p => p.1 != i

/-- The entry at a key changed by a function, starting from the default where none is listed. -/
def tmod {α : Type} (d : α) (t : Tbl α) (i : Nat) (f : α → α) : Tbl α := tset t i (f (tget d t i))

/-- The keys below `n` that a table does not list, lowest first. -/
def freeKeys {α : Type} (t : Tbl α) (n : Nat) : List Nat := (List.range n).filter fun i => (tfind t i).isNone

/-- The list with element `i` replaced (unchanged when `i` is past its end). -/
def lset {α : Type} (l : List α) (i : Nat) (v : α) : List α := l.set i v

/-- Element `i` of a list of numbers, 0 past its end. -/
def nth (l : List Nat) (i : Nat) : Nat := l.getD i 0

/-- The sum of a list of numbers. -/
def sumN (l : List Nat) : Nat := l.foldl (· + ·) 0

/-- The largest of a list of numbers, 0 for the empty list. -/
def maxN (l : List Nat) : Nat := l.foldl max 0

/-- A little-endian field of a record. -/
def recFld (r : List Nat) (off n : Nat) : Nat := ofLe ((r.drop off).take n)

end Sys2Proof.Machine
end

