-- ==== Sys2Proof/Machine/Flt.lean ====
section
/-! DEFINITION. The exact arithmetic of 02: a float value is NaN, an infinity, or an exact binary rational with a sign;
every operation is exact and rounding is one function, to nearest even (R35). FP32 and BF16 values travel as their bit
patterns (natural numbers). -/
namespace Sys2Proof.Machine

/-- A float value: NaN, an infinity, or (−1)^neg · m · 2^e exactly (m = 0 is a signed zero). -/
inductive Fp where
  | nan
  | inf (neg : Bool)
  | fin (neg : Bool) (m : Nat) (e : Int)
deriving DecidableEq, Repr

/-- +0. -/
def fpZero : Fp := .fin false 0 0

/-- An integer as an exact value; 0 is +0. -/
def fpOfInt (v : Int) : Fp := .fin (v < 0) v.natAbs 0

/-- A natural number times 2^e. -/
def fpOfNat (m : Nat) (e : Int) : Fp := .fin false m e

/-- The signed mantissa. -/
def sgnInt (neg : Bool) (m : Nat) : Int := if neg then -(m : Int) else (m : Int)

/-- Is the value a zero of either sign? -/
def fpIsZero : Fp → Bool
  | .fin _ m _ => m == 0
  | _ => false

/-- Is the value NaN? -/
def fpIsNan : Fp → Bool
  | .nan => true
  | _ => false

/-- Is the value finite? -/
def fpIsFin : Fp → Bool
  | .fin _ _ _ => true
  | _ => false

/-- The sign bit. -/
def fpNeg : Fp → Bool
  | .nan => false
  | .inf n => n
  | .fin n _ _ => n

/-- The value with its sign changed. -/
def fpNegate : Fp → Fp
  | .nan => .nan
  | .inf n => .inf (!n)
  | .fin n m e => .fin (!n) m e

/-- The magnitude. -/
def fpAbs : Fp → Fp
  | .nan => .nan
  | .inf _ => .inf false
  | .fin _ m e => .fin false m e

/-- The exact sum. An exact zero is +0 unless both addends are −0 (R35). -/
def fpAdd : Fp → Fp → Fp
  | .nan, _ => .nan
  | _, .nan => .nan
  | .inf a, .inf b => if a = b then .inf a else .nan
  | .inf a, _ => .inf a
  | _, .inf b => .inf b
  | .fin s m e, .fin t n f =>
    let g := min e f
    let v := sgnInt s (m <<< (e - g).toNat) + sgnInt t (n <<< (f - g).toNat)
    if v = 0 then .fin (s && t && m == 0 && n == 0) 0 0 else .fin (v < 0) v.natAbs g

/-- The exact product; a zero takes the exclusive or of the signs (R35), ∞ × 0 is NaN. -/
def fpMul : Fp → Fp → Fp
  | .nan, _ => .nan
  | _, .nan => .nan
  | .inf a, .inf b => .inf (a != b)
  | .inf a, .fin t n _ => if n = 0 then .nan else .inf (a != t)
  | .fin s m _, .inf b => if m = 0 then .nan else .inf (s != b)
  | .fin s m e, .fin t n f => .fin (s != t) (m * n) (e + f)

/-- The exact product with 2^k. -/
def fpScale (x : Fp) (k : Int) : Fp :=
  match x with
  | .fin s m e => .fin s m (e + k)
  | y => y

/-- The exact sum of a list, added in any order the rule gives; the empty list gives +0. -/
def fpSum : List Fp → Fp
  | [] => fpZero
  | [x] => x
  | x :: xs => xs.foldl fpAdd x

/-- Is `a` numerically below `b`? False when either is NaN; the two zeros are equal. -/
def fpLt : Fp → Fp → Bool
  | .nan, _ => false
  | _, .nan => false
  | .inf a, .inf b => a && !b
  | .inf a, _ => a
  | _, .inf b => !b
  | .fin s m e, .fin t n f =>
    let g := min e f
    decide (sgnInt s (m <<< (e - g).toNat) < sgnInt t (n <<< (f - g).toNat))

/-- Is `a` numerically at most `b`? False when either is NaN. -/
def fpLe (a b : Fp) : Bool := !fpIsNan a && !fpIsNan b && !fpLt b a

/-- The largest integer not above a finite value (0 for the others). -/
def fpFloor : Fp → Int
  | .fin s m e =>
    if 0 ≤ e then sgnInt s (m <<< e.toNat) else (sgnInt s m) / ((2 : Int) ^ (-e).toNat)
  | _ => 0

/-- A finite non-zero value as (mantissa numerator bits, exponent): x = m · 2^e with m in [1, 2). -/
def fpNorm : Fp → Fp × Int
  | .fin s m e => (.fin s m (-(m.log2 : Int)), e + m.log2)
  | x => (x, 0)

/-- Rounding num/den · 2^e, num > 0, to p significant bits with the least exponent emin: the rounded mantissa and its
exponent. `near` selects round to nearest even, else toward zero. -/
def roundQ (near : Bool) (p : Nat) (emin : Int) (num den : Nat) (e : Int) : Nat × Int :=
  let k : Int := (num.log2 : Int) - (den.log2 : Int)
  let fl := if num <<< (-k).toNat < den <<< k.toNat then k - 1 else k
  if fl + e + 1 < emin then (0, emin)
  else
    let t := max (fl + e - ((p : Int) - 1)) emin
    let sh := e - t
    let n := num <<< sh.toNat
    let d := den <<< (-sh).toNat
    ((if near then rneDiv n d else n / d), t)

/-- The bit pattern of (−1)^neg · num/den · 2^e in a format of `eb` exponent and `mb` mantissa bits with IEEE infinities. -/
def encQ (near : Bool) (eb mb : Nat) (neg : Bool) (num den : Nat) (e : Int) : Nat :=
  let sg := b2n neg <<< (eb + mb)
  if num = 0 then sg
  else
    let emin : Int := 2 - (2 : Int) ^ (eb - 1) - mb
    let qt := roundQ near (mb + 1) emin num den e
    let bits := (qt.2 - emin).toNat * 2 ^ mb + qt.1
    sg + min bits ((2 ^ eb - 1) * 2 ^ mb)

/-- The canonical NaN of a format (R35): quiet bit only, sign clear. -/
def canonNan (eb mb : Nat) : Nat := (2 ^ eb - 1) * 2 ^ mb + 2 ^ (mb - 1)

/-- Rounding of a value to a format, to nearest even. -/
def rndFmt (eb mb : Nat) : Fp → Nat
  | .nan => canonNan eb mb
  | .inf n => (b2n n <<< (eb + mb)) + (2 ^ eb - 1) * 2 ^ mb
  | .fin n m e => encQ true eb mb n m 1 e

/-- The value of a bit pattern of a format with IEEE infinities and NaN. -/
def decFmt (eb mb b : Nat) : Fp :=
  let s := bitOf b (eb + mb)
  let x := (b >>> mb) % 2 ^ eb
  let m := b % 2 ^ mb
  let emin : Int := 2 - (2 : Int) ^ (eb - 1) - mb
  if x = 2 ^ eb - 1 then (if m = 0 then .inf s else .nan)
  else if x = 0 then .fin s m emin
  else .fin s (m + 2 ^ mb) (emin + x - 1)

/-- The value of FP32 bits. -/
def f32 (b : Nat) : Fp := decFmt 8 23 b
/-- Rounding to FP32. -/
def r32 (x : Fp) : Nat := rndFmt 8 23 x
/-- The value of BF16 bits. -/
def bf16 (b : Nat) : Fp := decFmt 8 7 b
/-- Rounding to BF16. -/
def rbf16 (x : Fp) : Nat := rndFmt 8 7 x

/-- The canonical NaN of FP32. -/
def nan32 : Nat := 0x7FC00000
/-- 1.0 in FP32. -/
def one32 : Nat := 0x3F800000

/-- RNE(a + b) on FP32 bits. -/
def add32 (a b : Nat) : Nat := r32 (fpAdd (f32 a) (f32 b))
/-- RNE(a − b) on FP32 bits. -/
def sub32 (a b : Nat) : Nat := r32 (fpAdd (f32 a) (fpNegate (f32 b)))
/-- RNE(a × b) on FP32 bits. -/
def mul32 (a b : Nat) : Nat := r32 (fpMul (f32 a) (f32 b))
/-- RNE(a × b + c), one rounding, on FP32 bits. -/
def fma32 (a b c : Nat) : Nat := r32 (fpAdd (fpMul (f32 a) (f32 b)) (f32 c))
/-- The FP32 bits with the sign changed (NaN stays canonical). -/
def neg32 (a : Nat) : Nat := r32 (fpNegate (f32 a))
/-- The magnitude of FP32 bits. -/
def abs32 (a : Nat) : Nat := r32 (fpAbs (f32 a))

/-- RNE(a / n) on FP32 bits, for a positive integer n (05 R150: exact quotient, one rounding). -/
def divn32 (a n : Nat) : Nat :=
  match f32 a with
  | .fin s m e => encQ true 8 23 s m n e
  | x => r32 x

/-- MAX of R109 on values: NaN if either is NaN, −0 below +0. -/
def fpMax (a b : Fp) : Fp :=
  if fpIsNan a || fpIsNan b then .nan
  else if fpLt a b then b
  else if fpLt b a then a
  else if fpNeg a then b else a

/-- MIN of R109 on values: NaN if either is NaN, −0 below +0. -/
def fpMin (a b : Fp) : Fp :=
  if fpIsNan a || fpIsNan b then .nan
  else if fpLt a b then a
  else if fpLt b a then b
  else if fpNeg a then a else b

/-- MAX on FP32 bits. -/
def max32 (a b : Nat) : Nat := r32 (fpMax (f32 a) (f32 b))
/-- MIN on FP32 bits. -/
def min32 (a b : Nat) : Nat := r32 (fpMin (f32 a) (f32 b))

/-- ReLU of R104: −0 and negative values give +0, NaN gives the canonical NaN. -/
def relu32 (a : Nat) : Nat :=
  match f32 a with
  | .nan => nan32
  | .inf true => 0
  | .fin true _ _ => 0
  | x => r32 x

/-- The value of a UE5M3 block scale code (R36). -/
def ue5m3 (c : Nat) : Fp :=
  let x := fld c 7 3
  let m := fld c 2 0
  if x = 0 then .fin false m (-17) else .fin false (8 + m) ((x : Int) - 18)

/-- The value of an F8 E4M3 code (R34, Table NUM-2). -/
def e4m3 (c : Nat) : Fp :=
  let s := bitOf c 7
  let x := fld c 6 3
  let m := fld c 2 0
  if x = 15 && m = 7 then .nan
  else if x = 0 then .fin s m (-9)
  else .fin s (8 + m) ((x : Int) - 10)

/-- The value of an F8 E5M2 code (R34, Table NUM-2). -/
def e5m2 (c : Nat) : Fp := decFmt 5 2 c

/-- num/den · 2^e rounded to the nearest E4M3 magnitude, never above 448 (R49: this never gives infinity). -/
def encE4m3 (neg : Bool) (num den : Nat) (e : Int) : Nat :=
  if num = 0 then b2n neg * 128
  else
    let qt := roundQ true 4 (-9) num den e
    b2n neg * 128 + min ((qt.2 + 9).toNat * 8 + qt.1) 0x7E

/-- num/den · 2^e rounded to the nearest E5M2 magnitude, never above 57,344 (R49). -/
def encE5m2 (neg : Bool) (num den : Nat) (e : Int) : Nat :=
  if num = 0 then b2n neg * 128
  else
    let qt := roundQ true 3 (-16) num den e
    b2n neg * 128 + min ((qt.2 + 16).toNat * 4 + qt.1) 0x7B

end Sys2Proof.Machine
end

