-- ==== Sys2Proof/Machine/Tables.lean ====
section
/-! DEFINITION. The tabulated values F_k of the vendor tables (05 R139, Table SFN-1) and of the two S-series
tables that are no subset of them (R154, Table SFN-6): each the FP32 value nearest the exact function value at its
breakpoint, computed from the rule with 80 decimal digits. Slopes are computed from these in Special.lean. -/
namespace Sys2Proof.Machine

/-- F_k of 2^f on [0, 1), 16 segments (R139). -/
def tE2 : List Nat :=
  [0x3F800000, 0x3F85AAC3, 0x3F8B95C2, 0x3F91C3D3, 0x3F9837F0, 0x3F9EF532, 0x3FA5FED7, 0x3FAD583F] ++
  [0x3FB504F3, 0x3FBD08A4, 0x3FC5672A, 0x3FCE248C, 0x3FD744FD, 0x3FE0CCDF, 0x3FEAC0C7, 0x3FF5257D] ++
  [0x40000000]

/-- F_k of 1/m on [1, 2), 32 segments (R139). -/
def tRC : List Nat :=
  [0x3F800000, 0x3F783E10, 0x3F70F0F1, 0x3F6A0EA1, 0x3F638E39, 0x3F5D67C9, 0x3F579436, 0x3F520D21] ++
  [0x3F4CCCCD, 0x3F47CE0C, 0x3F430C31, 0x3F3E82FA, 0x3F3A2E8C, 0x3F360B61, 0x3F321643, 0x3F2E4C41] ++
  [0x3F2AAAAB, 0x3F272F05, 0x3F23D70A, 0x3F20A0A1, 0x3F1D89D9, 0x3F1A90E8, 0x3F17B426, 0x3F14F209] ++
  [0x3F124925, 0x3F0FB824, 0x3F0D3DCB, 0x3F0AD8F3, 0x3F088889, 0x3F064B8A, 0x3F042108, 0x3F020821] ++
  [0x3F000000]

/-- F_k of 1/sqrt t on [1, 4), 32 segments (R139). -/
def tRS : List Nat :=
  [0x3F800000, 0x3F785B42, 0x3F715BEF, 0x3F6AEBF5, 0x3F64F92E, 0x3F5F7483, 0x3F5A514A, 0x3F5584CD] ++
  [0x3F5105EC, 0x3F4CCCCD, 0x3F48D2AB, 0x3F4511A3, 0x3F41848F, 0x3F3E26EB, 0x3F3AF4BA, 0x3F37EA74] ++
  [0x3F3504F3, 0x3F2F9D53, 0x3F2AAAAB, 0x3F261D5F, 0x3F21E89B, 0x3F1E01B3, 0x3F1A5FB2, 0x3F16FB06] ++
  [0x3F13CD3A, 0x3F10D0C3, 0x3F0E00D5, 0x3F0B5948, 0x3F08D677, 0x3F067532, 0x3F0432A5, 0x3F020C52] ++
  [0x3F000000]

/-- F_k of log2 m on [1, 2), 32 segments (R139). -/
def tLG : List Nat :=
  [0x00000000, 0x3D35D69C, 0x3DB31FB8, 0x3E0462C4, 0x3E2E00D2, 0x3E567AF1, 0x3E7DE0B6, 0x3E92203D] ++
  [0x3EA4D3C2, 0x3EB7110E, 0x3EC8DDD4, 0x3EDA3F60, 0x3EEB3A9F, 0x3EFBD42B, 0x3F060828, 0x3F0DF989] ++
  [0x3F15C01A, 0x3F1D5DA0, 0x3F24D3C2, 0x3F2C2411, 0x3F335004, 0x3F3A58FF, 0x3F41404F, 0x3F480731] ++
  [0x3F4EAED0, 0x3F553848, 0x3F5BA4A4, 0x3F61F4E5, 0x3F6829FB, 0x3F6E44CD, 0x3F744636, 0x3F7A2F04] ++
  [0x3F800000]

/-- F_k of the logistic function on [-8, 8), 64 segments (R139). -/
def tSG : List Nat :=
  [0x39AFD1EF, 0x39E1BC65, 0x3A10E859, 0x3A3A092D, 0x3A6ED39C, 0x3A994A41, 0x3AC4C351, 0x3AFC8A7D] ++
  [0x3B220BBC, 0x3B4FECC9, 0x3B855ECA, 0x3BAB0D97, 0x3BDB4FB4, 0x3C0C8895, 0x3C340294, 0x3C666B21] ++
  [0x3C9357D1, 0x3CBC3B0A, 0x3CF02034, 0x3D18E414, 0x3D4241A2, 0x3D761D6B, 0x3D9B5B89, 0x3DC34695] ++
  [0x3DF420A9, 0x3E1799AF, 0x3E3ACDC2, 0x3E640B81, 0x3E89B2B1, 0x3EA442B1, 0x3EC14D03, 0x3EE02A67] ++
  [0x3F000000, 0x3F0FEACD, 0x3F1F597F, 0x3F2DDEA8, 0x3F3B26A8, 0x3F46FD20, 0x3F514C90, 0x3F5A1994] ++
  [0x3F617BEB, 0x3F67972D, 0x3F6C948F, 0x3F709E29, 0x3F73DBE6, 0x3F7671BF, 0x3F787EFE, 0x3F7A1E28] ++
  [0x3F7B6541, 0x3F7C6653, 0x3F7D2FF6, 0x3F7DCDDE, 0x3F7E4961, 0x3F7EA9E5, 0x3F7EF542, 0x3F7F3013] ++
  [0x3F7F5DF4, 0x3F7F81BB, 0x3F7F9D9E, 0x3F7FB35B, 0x3F7FC44B, 0x3F7FD17E, 0x3F7FDBC6, 0x3F7FE3C8] ++
  [0x3F7FEA06]

/-- F_k of ln(1 + e^t) on [-8, 8), 64 segments (R139). -/
def tSP : List Nat :=
  [0x39AFD97B, 0x39E1C8D6, 0x3A10F29A, 0x3A3A1A15, 0x3A6EEF7A, 0x3A996138, 0x3AC4E92A, 0x3AFCC8D9] ++
  [0x3B223F1B, 0x3B504167, 0x3B85A476, 0x3BAB8048, 0x3BDC0C6D, 0x3C0D23C4, 0x3C35019A, 0x3C680DD8] ++
  [0x3C94AF28, 0x3CBE6D46, 0x3CF3B726, 0x3D1BD145, 0x3D470388, 0x3D7DD1BA, 0x3DA190F1, 0x3DCD3919] ++
  [0x3E01F96B, 0x3E2411CD, 0x3E4E3F48, 0x3E80FCD9, 0x3EA063D6, 0x3EC613F5, 0x3EF2BA38, 0x3F1370C4] ++
  [0x3F317218, 0x3F5370C4, 0x3F795D1C, 0x3F9184FD, 0x3FA818F5, 0x3FC03F36, 0x3FD9C7E9, 0x3FF4823A] ++
  [0x40081F97, 0x401669C9, 0x40250C88, 0x4033F747, 0x40431C0E, 0x40526F45, 0x4061E76E, 0x40717CDB] ++
  [0x408094AF, 0x40887407, 0x40905A81, 0x40984692, 0x40A03703, 0x40A82AE0, 0x40B02169, 0x40B81A08] ++
  [0x40C01448, 0x40C80FCD, 0x40D00C4F, 0x40D80996, 0x40E00777, 0x40E805D1, 0x40F00488, 0x40F80387] ++
  [0x41000160]

/-- F_k of sin(pi v/2) on [0, 1), 64 segments (R139). -/
def tQS : List Nat :=
  [0x00000000, 0x3CC90AB0, 0x3D48FB30, 0x3D96A905, 0x3DC8BD36, 0x3DFAB273, 0x3E164083, 0x3E2F10A2] ++
  [0x3E47C5C2, 0x3E605C13, 0x3E78CFCC, 0x3E888E93, 0x3E94A031, 0x3EA09AE5, 0x3EAC7CD4, 0x3EB8442A] ++
  [0x3EC3EF15, 0x3ECF7BCA, 0x3EDAE880, 0x3EE63375, 0x3EF15AEA, 0x3EFC5D27, 0x3F039C3D, 0x3F08F59B] ++
  [0x3F0E39DA, 0x3F13682A, 0x3F187FC0, 0x3F1D7FD1, 0x3F226799, 0x3F273656, 0x3F2BEB4A, 0x3F3085BB] ++
  [0x3F3504F3, 0x3F396842, 0x3F3DAEF9, 0x3F41D870, 0x3F45E403, 0x3F49D112, 0x3F4D9F02, 0x3F514D3D] ++
  [0x3F54DB31, 0x3F584853, 0x3F5B941A, 0x3F5EBE05, 0x3F61C598, 0x3F64AA59, 0x3F676BD8, 0x3F6A09A7] ++
  [0x3F6C835E, 0x3F6ED89E, 0x3F710908, 0x3F731447, 0x3F74FA0B, 0x3F76BA07, 0x3F7853F8, 0x3F79C79D] ++
  [0x3F7B14BE, 0x3F7C3B28, 0x3F7D3AAC, 0x3F7E1324, 0x3F7EC46D, 0x3F7F4E6D, 0x3F7FB10F, 0x3F7FEC43] ++
  [0x3F800000]

/-- F_k of cos(pi v/2) on [0, 1), 64 segments (R139). -/
def tQC : List Nat :=
  [0x3F800000, 0x3F7FEC43, 0x3F7FB10F, 0x3F7F4E6D, 0x3F7EC46D, 0x3F7E1324, 0x3F7D3AAC, 0x3F7C3B28] ++
  [0x3F7B14BE, 0x3F79C79D, 0x3F7853F8, 0x3F76BA07, 0x3F74FA0B, 0x3F731447, 0x3F710908, 0x3F6ED89E] ++
  [0x3F6C835E, 0x3F6A09A7, 0x3F676BD8, 0x3F64AA59, 0x3F61C598, 0x3F5EBE05, 0x3F5B941A, 0x3F584853] ++
  [0x3F54DB31, 0x3F514D3D, 0x3F4D9F02, 0x3F49D112, 0x3F45E403, 0x3F41D870, 0x3F3DAEF9, 0x3F396842] ++
  [0x3F3504F3, 0x3F3085BB, 0x3F2BEB4A, 0x3F273656, 0x3F226799, 0x3F1D7FD1, 0x3F187FC0, 0x3F13682A] ++
  [0x3F0E39DA, 0x3F08F59B, 0x3F039C3D, 0x3EFC5D27, 0x3EF15AEA, 0x3EE63375, 0x3EDAE880, 0x3ECF7BCA] ++
  [0x3EC3EF15, 0x3EB8442A, 0x3EAC7CD4, 0x3EA09AE5, 0x3E94A031, 0x3E888E93, 0x3E78CFCC, 0x3E605C13] ++
  [0x3E47C5C2, 0x3E2F10A2, 0x3E164083, 0x3DFAB273, 0x3DC8BD36, 0x3D96A905, 0x3D48FB30, 0x3CC90AB0] ++
  [0x00000000]

/-- F_k of tanh on [-4, 4], 32 segments (Table SFN-6) (R139). -/
def tTH : List Nat :=
  [0xBF7FD40C, 0xBF7FB78C, 0xBF7F8896, 0xBF7F3B3D, 0xBF7EBBE9, 0xBF7DEA85, 0xBF7C92C1, 0xBF7A5FEB] ++
  [0xBF76CA83, 0xBF70FDFD, 0xBF67B7CC, 0xBF59291E, 0xBF42F7D6, 0xBF22991F, 0xBEEC9A9F, 0xBE7ACBF5] ++
  [0x00000000, 0x3E7ACBF5, 0x3EEC9A9F, 0x3F22991F, 0x3F42F7D6, 0x3F59291E, 0x3F67B7CC, 0x3F70FDFD] ++
  [0x3F76CA83, 0x3F7A5FEB, 0x3F7C92C1, 0x3F7DEA85, 0x3F7EBBE9, 0x3F7F3B3D, 0x3F7F8896, 0x3F7FB78C] ++
  [0x3F7FD40C]

/-- F_k of GELU, tanh form, on [-4, 4], 32 segments (Table SFN-6) (R139). -/
def tGE : List Nat :=
  [0xB8935102, 0xB965E708, 0xBA218853, 0xBACD9A65, 0xBB6E6150, 0xBBFD126E, 0xBC7723FF, 0xBCDED553] ++
  [0xBD39F7C5, 0xBD8FC770, 0xBDCDAD6B, 0xBE0775EE, 0xBE229E91, 0xBE2E1ED2, 0xBE1DFD26, 0xBDCD7702] ++
  [0x00000000, 0x3E19447F, 0x3EB1016D, 0x3F14784C, 0x3F57585C, 0x3F8F1142, 0x3FB32529, 0x3FD70389] ++
  [0x3FFA3042, 0x400E4255, 0x401F08DC, 0x402F8177, 0x403FC468, 0x404FE64D, 0x405FF5E7, 0x406FFC68] ++
  [0x407FFED9]

/-- The FP32 value nearest 2 sqrt(2/pi) (Table SFN-2, GELU). -/
def cGelu1 : Nat := 0x3FCC422A

/-- The FP32 value nearest 0.044715 times 2 sqrt(2/pi) (Table SFN-2, GELU). -/
def cGelu2 : Nat := 0x3D922279

/-- L2E of Table SFN-2. -/
def cL2E : Nat := 0x3FB8AA3B

end Sys2Proof.Machine
end

