-- ==== Sys2Proof/Machine/Special.lean ====
section
/-! DEFINITION. The special functions of 05: segment evaluation (R138, R139), composition and tails (R140, R141), special
inputs (R142), user tables (R145), row statistics (R150 to R153), the reciprocal of the soft maximum (R147) and the
S-series compatibility mode (R154, R155). `c` is SPIRE_CTRL.SFN_COMPAT. -/
namespace Sys2Proof.Machine

/-- Every second element, from the first: an S-series table whose breakpoints are a subset of a vendor table's (R154). -/
def every2 : List Nat → List Nat
  | a :: _ :: t => a :: every2 t
  | l => l

/-- Rounding to FP32 toward zero (R139, slopes). -/
def rtz32 : Fp → Nat
  | .nan => nan32
  | .inf n => r32 (.inf n)
  | .fin n m e => encQ false 8 23 n m 1 e

/-- The difference quotient (F_(k+1) − F_k) / 2^w, exact. -/
def slopeX (f : List Nat) (w : Int) (k : Nat) : Fp :=
  fpScale (fpAdd (f32 (nth f (k + 1))) (fpNegate (f32 (nth f k)))) (-w)

/-- Breakpoint x_k = x_0 + k · 2^w. -/
def breakX (x0 : Fp) (w : Int) (k : Nat) : Fp := fpAdd x0 (fpOfNat k w)

/-- R138 with the slopes of R139: u = RNE(t − x_k), y = RNE(F_k + a_k × u), k the largest with x_k ≤ t. -/
def segEval (f : List Nat) (x0 : Fp) (w : Int) (t : Fp) : Nat :=
  let k := (fpFloor (fpScale (fpAdd t (fpNegate x0)) (-w))).toNat
  let u := r32 (fpAdd t (fpNegate (breakX x0 w k)))
  fma32 (rtz32 (slopeX f w k)) u (nth f k)

/-- R154: segment k covers (x_k, x_(k+1)], the lowest breakpoint belongs to segment 0; two coefficients, two roundings. -/
def segEvalS (f : List Nat) (x0 : Fp) (w : Int) (t : Fp) : Nat :=
  let up := -(fpFloor (fpNegate (fpScale (fpAdd t (fpNegate x0)) (-w))))
  let k := (up - 1).toNat
  let a := r32 (slopeX f w k)
  let b := r32 (fpAdd (f32 (nth f k)) (fpNegate (fpMul (f32 a) (breakX x0 w k))))
  r32 (fpAdd (f32 (r32 (fpMul (f32 a) t))) (f32 b))

/-- Table E2 at f in [0, 1). -/
def tabE2 (c : Bool) (f : Fp) : Nat :=
  if c then segEvalS (every2 tE2) fpZero (-3) f else segEval tE2 fpZero (-4) f

/-- Table RC at m in [1, 2). -/
def tabRC (c : Bool) (m : Fp) : Nat :=
  if c then segEvalS (every2 tRC) (fpOfNat 1 0) (-4) m else segEval tRC (fpOfNat 1 0) (-5) m

/-- Table LG at m in [1, 2). -/
def tabLG (c : Bool) (m : Fp) : Nat :=
  if c then segEvalS (every2 tLG) (fpOfNat 1 0) (-4) m else segEval tLG (fpOfNat 1 0) (-5) m

/-- Table RS at t in [1, 4): two runs of segments of different width. -/
def tabRS (c : Bool) (t : Fp) : Nat :=
  if c then
    (if fpLe t (fpOfNat 2 0) then segEvalS (every2 tRS) (fpOfNat 1 0) (-3) t
     else segEvalS ((every2 tRS).drop 8) (fpOfNat 2 0) (-2) t)
  else
    (if fpLt t (fpOfNat 2 0) then segEval tRS (fpOfNat 1 0) (-4) t
     else segEval (tRS.drop 16) (fpOfNat 2 0) (-3) t)

/-- FN 00h, exp2 (Tables SFN-2 and SFN-3). -/
def fnExp2 (c : Bool) (x : Fp) : Nat :=
  match x with
  | .nan => nan32
  | .inf true => 0
  | .inf false => r32 (.inf false)
  | .fin s m e =>
    if m = 0 then one32
    else
      let n := fpFloor (.fin s m e)
      let f := r32 (fpAdd x (fpOfInt (-n)))
      if f = one32 then r32 (fpScale (f32 (tabE2 c fpZero)) (n + 1))
      else r32 (fpScale (f32 (tabE2 c (f32 f))) n)

/-- FN 01h, exp: exp2 of RNE(x × L2E). -/
def fnExp (c : Bool) (x : Fp) : Nat := fnExp2 c (f32 (r32 (fpMul x (f32 cL2E))))

/-- FN 02h, log2. -/
def fnLog2 (c : Bool) (x : Fp) : Nat :=
  match x with
  | .nan => nan32
  | .inf true => nan32
  | .inf false => r32 (.inf false)
  | .fin s m e =>
    if m = 0 then r32 (.inf true)
    else if s then nan32
    else
      let me := fpNorm (.fin false m e)
      r32 (fpAdd (fpOfInt me.2) (f32 (tabLG c me.1)))

/-- FN 03h, reciprocal. -/
def fnRecip (c : Bool) (x : Fp) : Nat :=
  match x with
  | .nan => nan32
  | .inf s => r32 (.fin s 0 0)
  | .fin s m e =>
    if m = 0 then r32 (.inf s)
    else
      let me := fpNorm (.fin false m e)
      let y := fpScale (f32 (tabRC c me.1)) (-me.2)
      r32 (if s then fpNegate y else y)

/-- FN 04h, reciprocal square root. -/
def fnRsqrt (c : Bool) (x : Fp) : Nat :=
  match x with
  | .nan => nan32
  | .inf true => nan32
  | .inf false => 0
  | .fin s m e =>
    if m = 0 then r32 (.inf s)
    else if s then nan32
    else
      let me := fpNorm (.fin false m e)
      if me.2 % 2 = 0 then r32 (fpScale (f32 (tabRS c me.1)) (-(me.2 / 2)))
      else r32 (fpScale (f32 (tabRS c (fpScale me.1 1))) (-((me.2 - 1) / 2)))

/-- SG with its tails (Table SFN-1, R141) for a finite or infinite argument. -/
def fnSG (t : Fp) : Nat :=
  match t with
  | .nan => nan32
  | .inf true => 0
  | .inf false => one32
  | t =>
    if fpLt t (fpOfInt (-8)) then
      mul32 (nth tSG 0) (fnExp false (f32 (r32 (fpAdd t (fpOfInt 8)))))
    else if fpLt t (fpOfInt 8) then segEval tSG (fpOfInt (-8)) (-2) t
    else
      let g := r32 (fpAdd (fpOfInt 1) (fpNegate (f32 (nth tSG 64))))
      sub32 one32 (mul32 g (fnExp false (f32 (r32 (fpAdd (fpOfInt 8) (fpNegate t))))))

/-- SP with its tails (R141). -/
def fnSP (t : Fp) : Nat :=
  match t with
  | .nan => nan32
  | .inf true => 0
  | .inf false => r32 (.inf false)
  | t =>
    if fpLt t (fpOfInt (-8)) then
      mul32 (nth tSP 0) (fnExp false (f32 (r32 (fpAdd t (fpOfInt 8)))))
    else if fpLt t (fpOfInt 8) then segEval tSP (fpOfInt (-8)) (-2) t
    else
      let g := r32 (fpAdd (f32 (nth tSP 64)) (fpOfInt (-8)))
      let h := mul32 g (fnExp false (f32 (r32 (fpAdd (fpOfInt 8) (fpNegate t)))))
      r32 (fpAdd t (f32 h))

/-- FN 05h, sigmoid; the S-series table covers (−8, 8] with constant tails (Table SFN-6). -/
def fnSigmoid (c : Bool) (x : Fp) : Nat :=
  if c && fpIsFin x && !fpIsZero x then
    if fpLe x (fpOfInt (-8)) then 0
    else if fpLt (fpOfInt 8) x then one32
    else segEvalS (every2 tSG) (fpOfInt (-8)) (-1) x
  else fnSG x

/-- FN 06h, tanh. -/
def fnTanh (c : Bool) (x : Fp) : Nat :=
  if fpIsZero x then 0
  else if c && fpIsFin x then
    if fpLe x (fpOfInt (-4)) then r32 (fpOfInt (-1))
    else if fpLt (fpOfInt 4) x then one32
    else segEvalS tTH (fpOfInt (-4)) (-2) x
  else
    let g := fnSG (f32 (r32 (fpScale x 1)))
    r32 (fpAdd (fpScale (f32 g) 1) (fpOfInt (-1)))

/-- FN 07h, GELU in its tanh form. In compatibility mode -inf and -0 give the -0 of Table SFN-3, where Table SFN-6 and the S-series give +0
(DESIGN CHOICE, log 52). -/
def fnGelu (c : Bool) (x : Fp) : Nat :=
  match x with
  | .nan => nan32
  | .inf true => r32 (.fin true 0 0)
  | .inf false => r32 (.inf false)
  | .fin n m e =>
    if m = 0 then r32 (.fin n 0 0)
    else if c then
      if fpLe x (fpOfInt (-4)) then 0
      else if fpLt (fpOfInt 4) x then r32 x
      else segEvalS tGE (fpOfInt (-4)) (-2) x
    else
      let b := r32 (.fin n m e)
      let s := mul32 b b
      let w := fma32 cGelu2 s cGelu1
      let z := mul32 b w
      mul32 b (fnSG (f32 z))

/-- FN 08h, SiLU. -/
def fnSilu (x : Fp) : Nat :=
  match x with
  | .nan => nan32
  | .inf true => r32 (.fin true 0 0)
  | .inf false => r32 (.inf false)
  | .fin n m e => r32 (fpMul (.fin n m e) (f32 (fnSG (.fin n m e))))

/-- The quarter-turn reduction of FN 0Ah and 0Bh: quadrant q and v in [0, 1). -/
def turnReduce (x : Fp) : Nat × Fp :=
  let f := f32 (r32 (fpAdd x (fpOfInt (-(fpFloor x)))))
  let f4 := fpScale f 2
  let n := fpFloor f4
  ((n % 4).toNat, fpAdd f4 (fpOfInt (-n)))

/-- A zero result of sin or cos is always +0 (R142). -/
def plusZero (b : Nat) : Nat := if b % 2 ^ 31 = 0 then 0 else b

/-- Tables QS and QC at v. -/
def tabQS (v : Fp) : Nat := segEval tQS fpZero (-6) v
/-- Table QC at v. -/
def tabQC (v : Fp) : Nat := segEval tQC fpZero (-6) v

/-- FN 0Ah, sin of a number of turns. -/
def fnSin (x : Fp) : Nat :=
  match x with
  | .nan => nan32
  | .inf _ => nan32
  | .fin n m e =>
    let qv := turnReduce (.fin n m e)
    plusZero (match qv.1 with
      | 0 => tabQS qv.2
      | 1 => tabQC qv.2
      | 2 => neg32 (tabQS qv.2)
      | _ => neg32 (tabQC qv.2))

/-- FN 0Bh, cos of a number of turns. -/
def fnCos (x : Fp) : Nat :=
  match x with
  | .nan => nan32
  | .inf _ => nan32
  | .fin n m e =>
    let qv := turnReduce (.fin n m e)
    plusZero (match qv.1 with
      | 0 => tabQC qv.2
      | 1 => neg32 (tabQS qv.2)
      | 2 => neg32 (tabQC qv.2)
      | _ => tabQS qv.2)

/-- A user function table (R145, Table SFN-5): the header's fields, then F and a as FP32 bits. -/
structure UTab where
  lo : Nat
  logh : Int
  nseg : Nat
  tailL : Nat
  tailR : Nat
  mono : Nat
  resv : Nat
  f : List Nat
  a : List Nat
deriving DecidableEq, Repr

/-- The right end HI = x_N of a user table. -/
def utHi (u : UTab) : Fp := breakX (f32 u.lo) u.logh u.nseg

/-- A user table's value (R145): R138 inside, a constant or a linear tail outside. -/
def utEval (u : UTab) (t : Fp) : Nat :=
  match t with
  | .nan => nan32
  | t =>
    let lo := f32 u.lo
    if fpLt t lo then
      (if u.tailL = 0 then nth u.f 0
       else fma32 (nth u.a 0) (r32 (fpAdd t (fpNegate lo))) (nth u.f 0))
    else if fpLt t (utHi u) then
      let k := (fpFloor (fpScale (fpAdd t (fpNegate lo)) (-u.logh))).toNat
      fma32 (nth u.a k) (r32 (fpAdd t (fpNegate (breakX lo u.logh k)))) (nth u.f k)
    else
      (if u.tailR = 0 then nth u.f u.nseg
       else fma32 (nth u.a (u.nseg - 1)) (r32 (fpAdd t (fpNegate (utHi u)))) (nth u.f u.nseg))

/-- Is a value exactly representable in FP32? -/
def fits32 (x : Fp) : Bool := fpIsFin x && !(fpLt (f32 (r32 x)) x || fpLt x (f32 (r32 x))) && fpIsFin (f32 (r32 x))

/-- TABLE_ILLEGAL of R146; a reserved bit that is set counts as illegal too (DESIGN CHOICE, log 59). -/
def utIllegal (u : UTab) : Bool :=
  u.resv != 0 || 2 ≤ u.tailL || 2 ≤ u.tailR || u.mono == 3 || u.nseg == 0 || 64 < u.nseg
  || decide (u.logh < -12) || decide (4 < u.logh) || u.f.length != u.nseg + 1 || u.a.length != u.nseg
  || (u.f ++ u.a).any (fun b => !fpIsFin (f32 b))
  || !((List.range (u.nseg + 1)).all fun k => fits32 (breakX (f32 u.lo) u.logh k))

/-- TABLE_NOT_MONOTONE of R146, for MONO = 1 or 2; `ge x y` is the inequality x ≥ y, reversed for MONO = 2. -/
def utNotMono (u : UTab) : Bool :=
  let ge := fun (x y : Fp) => if u.mono == 1 then fpLe y x else fpLe x y
  (u.mono == 1 || u.mono == 2) &&
  (!((List.range u.nseg).all fun k =>
      ge (f32 (nth u.f (k + 1))) (f32 (nth u.f k)) && ge (f32 (nth u.a k)) fpZero
      && ge (f32 (nth u.f (k + 1))) (fpAdd (f32 (nth u.f k)) (fpScale (f32 (nth u.a k)) u.logh)))
    || (u.tailL == 1 && !ge (f32 (nth u.a 0)) fpZero)
    || (u.tailR == 1 && !ge (f32 (nth u.a (u.nseg - 1))) fpZero))

/-- Is FN a function code (Table TIS-10)? -/
def fnLegal (fn : Nat) : Bool := fn ≤ 0x0B || (0x10 ≤ fn && fn ≤ 0x17)

/-- SFN on one element (R137): FP32 bits to FP32 bits; `ut` are the loaded user tables. -/
def sfn (c : Bool) (ut : Tbl UTab) (fn : Nat) (b : Nat) : Nat :=
  let x := f32 b
  if fn = 0x00 then fnExp2 c x
  else if fn = 0x01 then fnExp c x
  else if fn = 0x02 then fnLog2 c x
  else if fn = 0x03 then fnRecip c x
  else if fn = 0x04 then fnRsqrt c x
  else if fn = 0x05 then fnSigmoid c x
  else if fn = 0x06 then fnTanh c x
  else if fn = 0x07 then fnGelu c x
  else if fn = 0x08 then fnSilu x
  else if fn = 0x09 then fnSP x
  else if fn = 0x0A then fnSin x
  else if fn = 0x0B then fnCos x
  else match tfind ut (fn - 0x10) with
    | some u => utEval u x
    | none => nan32

/-- The row-wise function codes of Table TIS-6 in terms of SFN codes (R137, last sentence). -/
def rowFunc (c : Bool) (ut : Tbl UTab) (func : Nat) (y : Nat) : Nat :=
  match func with
  | 0 => y
  | 1 => relu32 y
  | 2 => sfn c ut 0x07 y
  | 3 => sfn c ut 0x08 y
  | 4 => sfn c ut 0x05 y
  | 5 => sfn c ut 0x06 y
  | 6 => sfn c ut 0x09 y
  | _ => sfn c ut 0x10 y

/-- The refined reciprocal of a row sum S (R147, pass 3). -/
def softRecip (c : Bool) (s : Nat) : Nat :=
  let me := fpNorm (f32 s)
  let m := r32 me.1
  let y0 := tabRC c me.1
  let t := fma32 (neg32 m) y0 one32
  let y1 := fma32 y0 t y0
  r32 (fpScale (f32 y1) (-me.2))

/-- The square root of R152, refined once from the reciprocal square root. -/
def sqrtRefined (c : Bool) (w : Nat) : Nat :=
  if w = 0 then 0
  else
    let r0 := fnRsqrt c (f32 w)
    let h := r32 (fpScale (f32 r0) (-1))
    let g := mul32 w r0
    let rd := fma32 (neg32 g) g w
    fma32 rd h g

/-- The mean and population variance of a non-empty row (R150). -/
def meanVar (xs : List Nat) : Nat × Nat :=
  match xs with
  | [] => (0, 0)
  | x0 :: _ =>
    let n := xs.length
    let ds := xs.map fun x => sub32 x x0
    let s := ds.foldl add32 0
    let dm := divn32 s n
    let cq := ds.foldl (fun (p : Nat × Nat) d =>
      let e := sub32 d dm
      (add32 p.1 e, fma32 e e p.2)) (0, 0)
    let mean := add32 x0 (add32 dm (divn32 cq.1 n))
    let v := divn32 (sub32 cq.2 (divn32 (mul32 cq.1 cq.1) n)) n
    let v := if bitOf v 31 && !fpIsNan (f32 v) then 0 else v
    (mean, v)

/-- RSTAT on one row (R150 to R153): the one or two FP32 results of STAT. -/
def rstatRow (c : Bool) (stat : Nat) (xs : List Nat) : List Nat :=
  if xs.isEmpty then (if stat = 3 then [0, 0] else [0])
  else
    let bad := xs.any fun b => !fpIsFin (f32 b)
    let mv := meanVar xs
    match stat with
    | 0 => [if bad then nan32 else mv.1]
    | 1 => [if bad then nan32 else mv.2]
    | 2 => [if bad then nan32 else sqrtRefined c (fma32 mv.1 mv.1 mv.2)]
    | 3 => if bad then [nan32, nan32] else [mv.1, mv.2]
    | 4 => [xs.tail.foldl max32 (r32 (f32 (nth xs 0)))]
    | _ => [xs.foldl add32 0]

end Sys2Proof.Machine
end

