-- ==== Sys2Proof/Machine/Encoding.lean ====
section
/-! DEFINITION. Tile instruction words as software sees them (04 R94 to R97): opcodes, reserved and illegal fields, the
control rules a program must meet at load (R125, R126, R129). A word is taken as the number its 128 bits spell. -/
namespace Sys2Proof.Machine

/-- The opcode of a word (Table TIS-1). -/
def wOpc (w : Nat) : Nat := fld w 7 0
/-- The class of a word (Table TIS-1). -/
def wClass (w : Nat) : Nat := fld w 11 8
/-- PRED of a word. -/
def wPred (w : Nat) : Nat := fld w 14 12
/-- NEG of a word. -/
def wNeg (w : Nat) : Nat := fld w 15 15

/-- The opcodes of Table TIS-2. -/
inductive Op where
  | loop | endl | br | yield | halt | gate | finial | mma | mma2 | vop | sfn | rstat | cdw | attn | qnt | dqt
  | move | comb | xsend | xrecv | sig | waits | fence
deriving DecidableEq, Repr

/-- The class code of an opcode (Table TIS-2). -/
def opClass : Op → Nat
  | .loop | .endl | .br | .yield | .halt | .gate | .finial => 0
  | .mma | .mma2 => 1
  | .vop | .sfn | .rstat | .cdw => 2
  | .attn => 3
  | .qnt | .dqt => 4
  | .move | .comb => 5
  | .xsend | .xrecv => 6
  | .sig | .waits | .fence => 7

/-- The opcode that a number codes (Table TIS-2); every other value is illegal (R95). -/
def opOf (n : Nat) : Option Op :=
  match n with
  | 0x01 => some .loop | 0x02 => some .endl | 0x03 => some .br | 0x04 => some .yield | 0x05 => some .halt
  | 0x06 => some .gate | 0x07 => some .finial | 0x10 => some .mma | 0x11 => some .mma2 | 0x20 => some .vop
  | 0x21 => some .sfn | 0x22 => some .rstat | 0x23 => some .cdw | 0x30 => some .attn | 0x40 => some .qnt
  | 0x41 => some .dqt | 0x50 => some .move | 0x51 => some .comb | 0x60 => some .xsend | 0x61 => some .xrecv
  | 0x70 => some .sig | 0x71 => some .waits | 0x72 => some .fence
  | _ => none

/-- Reserved fields zero and no field at a value its table declares illegal, per opcode (R97, R104, R108, R109, R111, R117,
R119, R121). -/
def fieldsLegal (o : Op) (w : Nat) : Bool :=
  match o with
  | .loop => fld w 50 16 = 0
  | .endl => fld w 127 12 = 0
  | .br => fld w 103 16 = 0
  | .yield => fld w 127 16 = 0
  | .halt => fld w 127 16 = 0
  | .gate => fld w 101 16 = 0
  | .finial => fld w 95 16 = 0
  | .mma => fld w 60 16 = 0 && fld w 77 74 ≤ 7
  | .mma2 => fld w 39 16 = 0 && fld w 51 48 ≤ 7
  | .vop =>
    match fld w 127 126 with
    | 0 => fld w 56 16 = 0 && fld w 101 96 ≤ 0x0B
    | 1 => fld w 68 16 = 0 && (fld w 110 105 ≤ 0x0C || (0x10 ≤ fld w 110 105 && fld w 110 105 ≤ 0x15))
    | 2 => fld w 109 16 = 0 && fld w 119 116 != 0xF
    | _ => false
  | .sfn => fld w 105 16 = 0 && fnLegal (fld w 115 111)
  | .rstat => fld w 102 16 = 0 && fld w 115 113 ≤ 5
  | .cdw => fld w 74 16 = 0 && fld w 103 101 ≤ 3 && fld w 100 98 != 7 && fld w 97 95 != 7 && fld w 94 92 != 7
      && fld w 87 84 ≤ 7
  | .attn => fld w 34 16 = 0
  | .qnt => fld w 101 16 = 0
  | .dqt => fld w 104 16 = 0
  | .move => fld w 97 16 = 0 && fld w 115 112 ≤ 7
  | .comb => fld w 90 16 = 0
  | .xsend => fld w 100 16 = 0 && fld w 102 101 != 0
  | .xrecv => fld w 107 16 = 0
  | .sig => fld w 83 16 = 0
  | .waits => fld w 82 16 = 0
  | .fence => fld w 121 16 = 0 && fld w 127 122 != 0

/-- A legal word (R95 to R97). -/
def wordLegal (w : Nat) : Bool :=
  match opOf (wOpc w) with
  | none => false
  | some o => wClass w = opClass o && fieldsLegal o w && !(wNeg w = 1 && wPred w = 0)

/-- Is a word this opcode's? -/
def isOp (o : Op) (w : Nat) : Bool := opOf (wOpc w) = some o

/-- BODY of a LOOP (Table TIS-18). -/
def loopBody (w : Nat) : Nat := fld w 127 112
/-- OFFSET of a BR, in words. -/
def brOffset (w : Nat) : Int := sext 24 (fld w 127 104)

/-- The loops of a program as (LOOP index, ENDL index), found with a stack of open loops; nothing when the structure rules
of R125 item 5 are broken. -/
def loopScan : List Nat → Nat → List (Nat × Nat) → Option (List (Nat × Nat))
  | [], _, stack => if stack.isEmpty then some [] else none
  | w :: ws, i, stack =>
    if isOp .loop w then loopScan ws (i + 1) ((i, i + loopBody w) :: stack)
    else if isOp .endl w then
      match stack with
      | (l, e) :: rest => if e = i then (loopScan ws (i + 1) rest).map ((l, e) :: ·) else none
      | [] => none
    else
      match stack with
      | (_, e) :: _ => if e ≤ i then none else loopScan ws (i + 1) stack
      | [] => loopScan ws (i + 1) stack

/-- The loops whose body holds word `i`. -/
def loopsAt (ls : List (Nat × Nat)) (i : Nat) : List (Nat × Nat) := ls.filter fun l => l.1 < i && i ≤ l.2

/-- May a word stand in a STEAL body (R129 item 4; the closing ENDL is no part of the iteration's work)? -/
def stealWord (w : Nat) : Bool :=
  match opOf (wOpc w) with
  | some .mma | some .mma2 | some .vop | some .sfn | some .rstat | some .cdw | some .attn | some .qnt | some .dqt
  | some .move | some .comb | some .finial | some .endl => true
  | _ => false

/-- The word at which the structure rules of R125 item 5 are broken: the LOOP whose BODY does not end on its ENDL, or an ENDL without one (log 53);
the program's length where they hold. -/
def loopFail : List Nat → Nat → List (Nat × Nat) → Nat
  | [], i, stack => ((stack.head?).map (·.1)).getD i
  | w :: ws, i, stack =>
    if isOp .loop w then loopFail ws (i + 1) ((i, i + loopBody w) :: stack)
    else
      match stack with
      | (l, e) :: rest => if isOp .endl w then (if e = i then loopFail ws (i + 1) rest else l) else if e ≤ i then l else loopFail ws (i + 1) stack
      | [] => if isOp .endl w then i else loopFail ws (i + 1) []

/-- Does a BR of R126 or a STEAL body of R129 break its rule? -/
def ctlWordBad (ws : List Nat) (ls : List (Nat × Nat)) (i w : Nat) : Bool :=
  if isOp .br w then
    let t : Int := (i : Int) + brOffset w
    !(decide (0 ≤ t) && decide (t < ws.length) && loopsAt ls t.toNat == loopsAt ls i)
  else isOp .loop w && bitOf w 51 && !(loopBody w ≤ 512 && ((ws.drop (i + 1)).take (loopBody w)).all stealWord)

/-- The word of a program that breaks the control rules: of its structure, else its first BR or STEAL body that does, else its last word
(log 53). -/
def controlFail (ws : List Nat) : Nat :=
  match loopScan ws 0 [] with
  | none => loopFail ws 0 []
  | some ls => (((ws.zipIdx).find? fun e => ctlWordBad ws ls e.2 e.1).map (·.2)).getD (ws.length - 1)

/-- ILLEGAL_CONTROL: are the control rules of R125, R126 and R129 met? -/
def controlOk (ws : List Nat) : Bool :=
  match loopScan ws 0 [] with
  | none => false
  | some ls =>
    (ws.zipIdx.all fun e => !ctlWordBad ws ls e.2 e.1)
    && (match ws.getLast? with
        | some w => (isOp .halt w || isOp .br w) && wPred w = 0 && wNeg w = 0
        | none => false)

end Sys2Proof.Machine
end

