-- ==== Sys2Proof/Machine/Eff.lean ====
section
/-! DEFINITION. What the data part of an instruction yields: bytes to write, quantisation status words to update, and
increments of the job's counters (Tables NUM-9, ATN-6, PAS-5, MEM-7, DET-5, SCH-7, FAB-6). -/
namespace Sys2Proof.Machine

/-- The per-job counters that QUERY returns, in the order of Tables NUM-9, ATN-6, PAS-5, MEM-7, DET-5, SCH-7, FAB-6. -/
inductive Ctr where
  | qntTiles | qntOutliers | qntNonfinite | qntFallbackTensors | qntFallbackTiles | fbClamps | wtIllegalBytes
  | keyRange | bucketOverflow | cowCopies | ringAdvHeld
  | gateEvals | gateReuse | gateForced
  | ovfLost | reqErrors | reqErrorsMerged | pageCopies
  | orderChoices | placementChoices | ordContests | ordSwredArr | plStolen | plChanges | reqOrderChoices
  | switchesOut | lcAccepted | lcRefused | lcLate | collPreemptStalls | modelWaits
  | fabPieces | fabDropBytes | swredGranted | swredRefused
deriving DecidableEq, Repr

/-- The counters in table order. -/
def Ctr.all : List Ctr :=
  [.qntTiles, .qntOutliers, .qntNonfinite, .qntFallbackTensors, .qntFallbackTiles, .fbClamps, .wtIllegalBytes] ++
  [.keyRange, .bucketOverflow, .cowCopies, .ringAdvHeld] ++
  [.gateEvals, .gateReuse, .gateForced] ++
  [.ovfLost, .reqErrors, .reqErrorsMerged, .pageCopies] ++
  [.orderChoices, .placementChoices, .ordContests, .ordSwredArr, .plStolen, .plChanges, .reqOrderChoices] ++
  [.switchesOut, .lcAccepted, .lcRefused, .lcLate, .collPreemptStalls, .modelWaits] ++
  [.fabPieces, .fabDropBytes, .swredGranted, .swredRefused]

/-- The width of a counter in bits (the tables' second column). -/
def ctrWidth : Ctr → Nat
  | .qntFallbackTensors | .bucketOverflow | .cowCopies | .ringAdvHeld | .ovfLost | .reqErrors | .reqErrorsMerged
  | .pageCopies | .switchesOut | .lcAccepted | .lcRefused | .lcLate | .modelWaits | .swredGranted | .swredRefused => 32
  | _ => 64

/-- The position of a counter in the order of the tables. -/
def ctrIdx (c : Ctr) : Nat := Ctr.all.idxOf c

/-- Bytes to write: address space (0 scratchpad, 1 job virtual), address, bytes. -/
structure Wr where
  space : Nat
  addr : Nat
  data : List Nat
deriving DecidableEq, Repr

/-- The data effect of an instruction: writes in order, status words to update for overflowed tiles (02 R56), counts. -/
structure Eff where
  wr : List Wr
  qsw : List Nat
  cnt : List (Ctr × Nat)
deriving DecidableEq, Repr

/-- No effect. -/
def effNone : Eff := ⟨[], [], []⟩

/-- One effect after another. -/
def effApp (a b : Eff) : Eff := ⟨a.wr ++ b.wr, a.qsw ++ b.qsw, a.cnt ++ b.cnt⟩

/-- The effects of a list, in order. -/
def effCat (l : List Eff) : Eff := ⟨l.flatMap (·.wr), l.flatMap (·.qsw), l.flatMap (·.cnt)⟩

/-- One write. -/
def effWr (space addr : Nat) (data : List Nat) : Eff := ⟨[⟨space, addr, data⟩], [], []⟩

/-- One count, left out when it is zero. -/
def effCnt (c : Ctr) (n : Nat) : Eff := ⟨[], [], if n = 0 then [] else [(c, n)]⟩

end Sys2Proof.Machine
end

