-- ==== Sys2Proof/Machine/Operands.lean ====
section
/-! DEFINITION. Operand forms of the tile instructions: the fields of a tensor descriptor (03 Table SPI-3), where an
element, a block scale, an outlier record and a shadow tile lie (02 R37, R51, R55), the value of an element in each format
(R30 to R36, R63), and a block of 32 elements as the block arithmetic takes it. `rd space address` is one byte of the
scratchpad (space 0) or of job virtual memory (space 1). -/
namespace Sys2Proof.Machine

/-- The fields of a tensor descriptor (Table SPI-3). -/
structure Td where
  base : Nat
  space : Nat
  fmt : Nat
  cap : Nat
  perch : Bool
  outEn : Bool
  fbEn : Bool
  d0 : Nat
  d1 : Nat
  d2 : Nat
  d3 : Nat
  s1 : Nat
  s2 : Nat
  s3 : Nat
  tscale : Nat
  tq : Nat
  scaleB : Nat
  auxB : Nat
  outrecB : Nat
  shadowB : Nat
  fbB : Nat
deriving DecidableEq, Repr

/-- Table SPI-3: the fields of a descriptor word. -/
def tdDec (e : Entry) : Td :=
  let w := e.toNat
  { base := fld w 47 0, space := fld w 49 48, fmt := fld w 53 50, cap := fld w 60 54,
    perch := bitOf w 61, outEn := bitOf w 62, fbEn := bitOf w 63,
    d0 := fld w 79 64, d1 := fld w 103 80, d2 := fld w 127 104, d3 := fld w 143 128,
    s1 := fld w 175 144, s2 := fld w 207 176, s3 := fld w 239 208,
    tscale := fld w 271 240, tq := fld w 303 272,
    scaleB := fld w 343 304, auxB := fld w 383 344, outrecB := fld w 423 384, shadowB := fld w 463 424,
    fbB := fld w 503 464 }

/-- Rows of the descriptor view: DIM1 × DIM2 × DIM3. -/
def tdRows (t : Td) : Nat := t.d1 * t.d2 * t.d3

/-- Planned elements. -/
def tdElems (t : Td) : Nat := t.d0 * tdRows t

/-- Blocks of 32 in one row. -/
def tdRowBlocks (t : Td) : Nat := cdiv t.d0 32

/-- Bytes of the codes of one row of `n` elements in a format (R30 to R32, Table NUM-1). -/
def rowBytes (fmt n : Nat) : Nat :=
  match fmt with
  | 1 => n
  | 2 => cdiv n 2
  | 3 => cdiv n 4
  | 4 => (n / 32) * 7 + (if n % 32 = 0 then 0 else if 30 < n % 32 then 7 else cdiv (n % 32) 5)
  | 5 => n
  | 6 => n
  | 7 => n
  | 8 => 2 * n
  | 9 => cdiv n 2
  | 10 => 4 * n
  | _ => 0

/-- Does a format carry block scales of its own (R37, R63)? -/
def hasScales (fmt : Nat) : Bool := 1 ≤ fmt && fmt ≤ 7

/-- Byte address of the first code of row `r` of the descriptor view. -/
def rowAddr (t : Td) (r : Nat) : Nat :=
  t.base + (r % t.d1) * t.s1 + ((r / t.d1) % t.d2) * t.s2 + (r / (t.d1 * t.d2)) * t.s3

/-- Address of the scale byte of block `b` of row `r` (R37: the blocks of row 0, then those of row 1, and so on). -/
def scaleAddr (t : Td) (r b : Nat) : Nat := t.scaleB * 256 + r * tdRowBlocks t + b

/-- Address of the FB4 residue of block `b` of row `r` (R63). -/
def fbAddr (t : Td) (r b : Nat) : Nat := t.fbB * 256 + (r * tdRowBlocks t + b) * 16

/-- Index of the outlier tile that holds row `r`, column `c` (R51, R204). -/
def tileIdx (t : Td) (r c : Nat) : Nat := (r / 128) * cdiv t.d0 128 + c / 128

/-- Bytes of an outlier record (R51): an 8-byte header and CAP entries, padded to 64. -/
def recSize (t : Td) : Nat := roundUp (8 + 4 * (16 * t.cap)) 64

/-- Address of the outlier record of a tile. -/
def recAddr (t : Td) (tile : Nat) : Nat := t.outrecB * 256 + tile * recSize t

/-- Address of the shadow of a tile (R55). -/
def shadowAddr (t : Td) (tile : Nat) : Nat := t.shadowB * 256 + tile * 32768

/-- COUNT of the record of a tile. -/
def recCount (rd : Nat → Nat → Nat) (t : Td) (tile : Nat) : Nat := rdLe (rd 1) (recAddr t tile) 2

/-- Is the tile stored as A16 (R55: COUNT = FFFFh)? -/
def tileOver (rd : Nat → Nat → Nat) (t : Td) (tile : Nat) : Bool :=
  t.outEn && (5 ≤ t.fmt && t.fmt ≤ 7) && recCount rd t tile == 0xFFFF

/-- The entries of a record that a consumer reads: min(COUNT, CAP) of them (R53), none where the tile is stored as A16. The CAP is
that of the descriptor that reads (DEDUCED, log 49: R53 does not say whether it is this one or the header's CAP). -/
def recEntries (rd : Nat → Nat → Nat) (t : Td) (tile : Nat) : List Nat :=
  if t.outEn && (5 ≤ t.fmt && t.fmt ≤ 7) && recCount rd t tile != 0xFFFF then
    (List.range (min (recCount rd t tile) (16 * t.cap))).map fun i => rdLe (rd 1) (recAddr t tile + 8 + 4 * i) 4
  else []

/-- The shadow's BF16 value at row `r`, column `c` (R55). -/
def shadowVal (rd : Nat → Nat → Nat) (t : Td) (r c : Nat) : Nat :=
  rdLe (rd 1) (shadowAddr t (tileIdx t r c) + 256 * (r % 128) + 2 * (c % 128)) 2

/-- The byte that carries WT element `c` of a row at byte address `a` (R32), and the element's place in it. -/
def wtByteAddr (a c : Nat) : Nat := a + (c / 32) * 7 + (if c % 32 < 30 then (c % 32) / 5 else 6)

/-- Is a WT byte legal at its place (R32)? -/
def wtLegal (c b : Nat) : Bool := if c % 32 < 30 then b ≤ 242 else b ≤ 8

/-- The value of WT element `c`; an illegal byte reads as 0 (R33). -/
def wtVal (c b : Nat) : Int :=
  if wtLegal c b then
    let j := if c % 32 < 30 then (c % 32) % 5 else c % 32 - 30
    (((b / 3 ^ j) % 3 : Nat) : Int) - 1
  else 0

/-- The unscaled value of element `c` of row `r` in its stored format (R30 to R35, R63). -/
def elemVal (rd : Nat → Nat → Nat) (t : Td) (r c : Nat) : Fp :=
  let a := rowAddr t r
  let byte := fun i => rd t.space (a + i)
  match t.fmt with
  | 1 => fpOfInt (sext 8 (byte c))
  | 2 => fpOfInt (sext 4 (byte (c / 2) >>> (4 * (c % 2))))
  | 3 => fpOfInt (2 * ((byte (c / 4) >>> (2 * (c % 4))) % 4 : Nat) - 3)
  | 4 => fpOfInt (wtVal c (rd t.space (wtByteAddr a c)))
  | 5 => fpOfInt (sext 8 (byte c))
  | 6 => e4m3 (byte c)
  | 7 => e5m2 (byte c)
  | 8 => bf16 (rdLe (rd t.space) (a + 2 * c) 2)
  | 9 => fpScale (fpOfInt (sext 4 (byte (c / 2) >>> (4 * (c % 2))))) (-4)
  | 10 => f32 (rdLe (rd t.space) (a + 4 * c) 4)
  | _ => fpZero

/-- The block scale code of block `b` of row `r`; A16 and FP32 read as 1.0 (Table NUM-1). -/
def blockScale (rd : Nat → Nat → Nat) (t : Td) (r b : Nat) : Nat :=
  if t.fmt = 8 || t.fmt = 10 then 0x78 else rd t.space (scaleAddr t r b) % 256

/-- The outlier entry value of element (r, c), if a record entry names it: the first of several (DESIGN CHOICE, log 52: the spec is silent). -/
def outAt (rd : Nat → Nat → Nat) (t : Td) (r c : Nat) : Option Nat :=
  ((recEntries rd t (tileIdx t r c)).find? fun e => fld e 13 0 == (r % 128) * 128 + c % 128).map fun e => fld e 31 16

/-- The dequantised value of an element without the tensor scale (R59, R66): the shadow's value in a tile stored as A16,
the entry's value for an outlier, else code times block scale; exact. -/
def deqVal (rd : Nat → Nat → Nat) (t : Td) (r c : Nat) : Fp :=
  if tileOver rd t (tileIdx t r c) then bf16 (shadowVal rd t r c)
  else match outAt rd t r c with
    | some v => bf16 v
    | none =>
      if t.fmt = 8 || t.fmt = 10 then elemVal rd t r c
      else
        let s := blockScale rd t r (c / 32)
        if s = 0 then fpZero else fpMul (elemVal rd t r c) (ue5m3 s)

/-- The number of illegal WT bytes among those that carry the first `cols` elements of rows `r0 ..< r1` (R33). A byte of a block
whose scale is 00h counts as read too (DEDUCED, log 49: R43 uses none of that block's codes and R33 counts bytes read). -/
def wtBad (rd : Nat → Nat → Nat) (t : Td) (r0 r1 cols : Nat) : Nat :=
  if t.fmt = 4 then
    sumN ((List.range (r1 - r0)).map fun i =>
      ((List.range cols).filter fun c =>
        (c % 32) % 5 = 0 && !wtLegal c (rd t.space (wtByteAddr (rowAddr t (r0 + i)) c))).length)
  else 0

/-- How a block's elements are stored, for the choice among R40, R41 and R42. -/
inductive EKind where
  | int | f8 | a16
deriving DecidableEq, Repr

/-- The kind of a format in a matrix operand. -/
def fmtKind (fmt : Nat) : EKind :=
  if fmt = 8 then .a16 else if fmt = 6 || fmt = 7 then .f8 else .int

/-- 32 elements along the reduction dimension: values unscaled, scale code, outliers by ascending position (R54). -/
structure Blk where
  kind : EKind
  vals : List Fp
  sc : Nat
  outs : List (Nat × Nat)
deriving DecidableEq, Repr

/-- Block `b` of row `r`, with elements at or beyond column `ext` reading as zero (R38, R98). -/
def getBlk (rd : Nat → Nat → Nat) (t : Td) (r b ext : Nat) : Blk :=
  let cols := (List.range 32).map (b * 32 + ·)
  if tileOver rd t (tileIdx t r (b * 32)) then
    { kind := .a16, vals := cols.map fun c => if c < ext then bf16 (shadowVal rd t r c) else fpZero, sc := 0x78, outs := [] }
  else
    { kind := fmtKind t.fmt
      vals := cols.map fun c => if c < ext then elemVal rd t r c else fpZero
      sc := blockScale rd t r b
      outs := (List.range 32).filterMap fun i =>
        if b * 32 + i < ext then (outAt rd t r (b * 32 + i)).map fun v => (i, v) else none }

/-- The tensor scale of output channel `n` (R39, Table SPI-3: AUX_BASE with PERCH = 1, else TSCALE). PERCH = 1 on an activation
operand takes scale `n` of that array too (DEDUCED, log 49: R39 and Table SPI-3 give PERCH a meaning for weight tensors only). -/
def tensorScale (rd : Nat → Nat → Nat) (t : Td) (n : Nat) : Nat :=
  if t.perch then rdLe (rd 1) (t.auxB * 256 + 4 * n) 4 else t.tscale

/-- The FP32 bits of an FP32 or A16 element (R458: the widening is exact); a quantised one dequantised without its tensor
scale. -/
def srcVal (rd : Nat → Nat → Nat) (t : Td) (r c : Nat) : Nat := r32 (deqVal rd t r c)

/-- The write of an FP32 value into an FP32 or A16 destination (R458). -/
def dstBytes (t : Td) (v : Nat) : List Nat := if t.fmt = 8 then leBytes 2 (rbf16 (f32 v)) else leBytes 4 v

/-- The write of a run of FP32 values from column 0 of row `r`. -/
def dstRow (t : Td) (r : Nat) (vs : List Nat) : Eff :=
  if vs.isEmpty then effNone else effWr t.space (rowAddr t r) (vs.flatMap (dstBytes t))

/-- The causes of Table TIS-3 that a descriptor's own fields raise (R87): 0101h and 0102h. -/
def tdIllegal (t : Td) : Option Nat :=
  if t.fmt = 0 || 0xB ≤ t.fmt then some 0x101
  else if 2 ≤ t.space || 64 < t.cap || t.d0 = 0 || t.d1 = 0 || t.d2 = 0 || t.d3 = 0 || (t.fbEn && t.fmt != 5) then some 0x102
  else none

/-- The end, one past the last byte, of the codes of the planned extent. -/
def tdEnd (t : Td) : Nat :=
  t.base + (t.d1 - 1) * t.s1 + (t.d2 - 1) * t.s2 + (t.d3 - 1) * t.s3 + rowBytes t.fmt t.d0

/-- The end of the scale array of the planned extent. -/
def tdScaleEnd (t : Td) : Nat := t.scaleB * 256 + tdRows t * tdRowBlocks t

/-- SCRATCH_RANGE of R81 and R87 for a descriptor in scratchpad space. -/
def tdScratchBad (t : Td) : Bool :=
  t.space == 0 &&
  (t.base % 64 != 0 || t.s1 % 64 != 0 || t.s2 % 64 != 0 || t.s3 % 64 != 0 || 0x300000 < tdEnd t
   || (hasScales t.fmt && 0x300000 < tdScaleEnd t))

/-- The byte intervals of a descriptor's planned extent in the scratchpad: codes, and block scales where it has any. -/
def tdScratchIv (t : Td) : List (Nat × Nat) :=
  if t.space = 0 then
    (t.base, tdEnd t) :: (if hasScales t.fmt then [(t.scaleB * 256, tdScaleEnd t)] else [])
  else []

end Sys2Proof.Machine
end

