-- ==== Sys2Proof/Machine/Timing.lean ====
section
/-! DEFINITION. Tabulated times in spire cycles (03 R72, R73; 04 R131 to R136; 06 R163). They delay nothing here: the load
and admission checks of R130 and the certificates use them. -/
namespace Sys2Proof.Machine

/-- The memory classes of Table TIS-19. -/
inductive MemClass where
  | sp | dsOwn | dsOther | vOwn | vOther | far | host
deriving DecidableEq, Repr

/-- The rate r in bytes per spire cycle; 0 where none is guaranteed. -/
def clsRate : MemClass → Nat
  | .sp => 256 | .dsOwn => 128 | .dsOther => 16 | .vOwn => 64 | .vOther => 16 | .far => 2 | .host => 0

/-- The latency λ. -/
def clsLat : MemClass → Nat
  | .sp => 16 | .dsOwn => 60 | .dsOther => 300 | .vOwn => 250 | .vOther => 500 | .far => 1500 | .host => 0

/-- What the plan declares for one descriptor of an instruction (R131, R178): its values, and the classes of its base and of its auxiliary
bases SCALE_BASE, AUX_BASE, OUTREC_BASE, SHADOW_BASE and FB_BASE, where it declares any. -/
structure OpDecl where
  td : Nat
  jv : Bool
  cls : Option MemClass
  fmt : Nat
  d0 : Nat
  d1 : Nat
  d2 : Nat
  d3 : Nat
  outEn : Bool
  cap : Nat
  shadowCls : Option MemClass
  scaleCls : Option MemClass := none
  auxCls : Option MemClass := none
  outrecCls : Option MemClass := none
  fbCls : Option MemClass := none
deriving DecidableEq, Repr

/-- The declaration of a descriptor; an operand that the plan declares nothing for is computed in the far-memory class (R131), as one FP32
element. -/
def declOf (ds : List OpDecl) (td : Nat) : OpDecl :=
  (ds.find? fun d => d.td == td).getD
    { td := td, jv := true, cls := none, fmt := 10, d0 := 1, d1 := 1, d2 := 1, d3 := 1, outEn := false, cap := 0, shadowCls := none }

/-- The class of a job-virtual operand: far memory where the plan declares none (R131). -/
def clsOf (d : OpDecl) : MemClass := d.cls.getD .far

/-- The class of the shadow, likewise. -/
def shadowOf (d : OpDecl) : MemClass := d.shadowCls.getD .far

/-- The classes of a job-virtual side: its codes, and its block scales at SCALE_BASE where it has any. -/
def sideCls (d : OpDecl) : List MemClass :=
  if d.jv then clsOf d :: (if hasScales d.fmt then [d.scaleCls.getD .far] else []) else []

/-- The bytes of block scales at declared extents. -/
def scaleBytes (d : OpDecl) : Nat := d.d1 * d.d2 * d.d3 * cdiv d.d0 32

/-- The bytes of codes and block scales at declared extents. -/
def declBytes (d : OpDecl) : Nat :=
  d.d1 * d.d2 * d.d3 * rowBytes d.fmt d.d0 + (if hasScales d.fmt then scaleBytes d else 0)

/-- The classes of a job-virtual side of a dequantisation: FB4 codes are read with the block scales of their A8 tensor (02 R63, R66). -/
def deqCls (d : OpDecl) : List MemClass := sideCls d ++ (if d.jv && d.fmt = 9 then [d.scaleCls.getD .far] else [])

/-- The bytes of such a side; with OUT_EN its outlier records and shadow count none (DESIGN CHOICE, log 59). -/
def deqBytes (d : OpDecl) : Nat := declBytes d + (if d.fmt = 9 then scaleBytes d else 0)

/-- The longer latency λ of the sides of a transfer; a host side counts nothing. -/
def sidesLat (cs : List MemClass) : Nat := maxN ((cs.filter (· != .host)).map clsLat)

/-- ceil(B / r) at the slower rate of the sides; a host side has no rate term. -/
def sidesTime (cs : List MemClass) (b : Nat) : Nat :=
  let cs := cs.filter (· != .host)
  if cs.isEmpty then 0 else cdiv b (cs.foldl (fun m c => min m (clsRate c)) 256)

/-- The same for one job-virtual side; nothing for a scratchpad side. -/
def jvTerm (d : OpDecl) (b : Nat) : Nat :=
  sidesLat (sideCls d) + sidesTime (sideCls d) b

/-- k_c of an operand pair, weight format then activation format (Table SPI-2). -/
def kcOf (w a : Nat) : Nat :=
  if a = 8 then (if w = 3 || w = 4 then 128 else if w = 2 then 64 else 32)
  else if w = 3 || w = 4 then 512 else if w = 2 then 256 else 128

/-- Weight bits per element (Table SPI-2): of WT the two of its cell, not its stored 1.75 (DESIGN CHOICE, log 59). -/
def weightBits (w : Nat) : Nat := if w = 3 || w = 4 then 2 else if w = 2 then 4 else if w = 8 then 16 else 8

/-- B_w of R72. -/
def weightBytes (w k : Nat) : Nat := k * 128 * weightBits w / 8 + (if w = 8 then 0 else (k / 32) * 128)

/-- The drain time D of Table TIS-6. -/
def drainTime (compat : Bool) (func : Nat) : Nat := if func ≤ 1 then 128 else if compat then 1024 else 512

/-- w_q of R134 for a destination: `keep` writes nothing; `quant` says that the instruction quantises; `rc` the planned
rows and columns, which the tiles and the bytes that the destination holds are counted by. -/
def writeTerm (keep quant : Bool) (d : OpDecl) (rc : Nat × Nat) : Nat :=
  if keep then 0
  else
    let t := if quant && d.outEn then cdiv rc.1 128 * cdiv rc.2 128 else 0
    if t = 0 then (if d.jv then sidesLat [clsOf d]
        + sidesTime [clsOf d] (declBytes { d with d0 := rc.2, d1 := rc.1, d2 := 1, d3 := 1 }) else 0)
    else 300 + sidesLat [shadowOf d] + sidesTime [shadowOf d] (t * 32832)

/-- R134: one product of M × N × K planned sizes. -/
def productTime (w a : Nat) (wd : OpDecl) (m n k dr : Nat) (keep : Bool) (wq : Nat) : Nat :=
  let cm := 128 * cdiv k (kcOf w a)
  let c := (m / 128) * max cm dr
  let own := !wd.jv || clsOf wd = .dsOwn
  let l := if own then cdiv (weightBytes w k) 128 else sidesTime [clsOf wd] (weightBytes w k)
  let lam := if own then 0 else sidesLat [clsOf wd]
  let g := n / 128
  lam + l + (g - 1) * max c l + c + (if keep then 0 else dr) + 200 + wq

/-- R135 with the changes of R163. -/
def attnTime (compat sb2 : Bool) (g rb : Nat) (kd vd pd : OpDecl) (wq : Nat) : Nat :=
  let side := fun (d : OpDecl) => g * (if d.jv then max 132 (sidesTime [clsOf d] 16896) else 132)
  let qk := side kd
  let pv := side vd
  let e := if compat then 256 * g else 128 * g
  let t := if sb2 then qk + (rb - 1) * (max qk e + pv) + e + pv else rb * (qk + e + pv)
  let lam := fun (d : OpDecl) => if d.jv then sidesLat [clsOf d] else 0
  t + 600 + wq + lam kd + lam vd + (if kd.jv || vd.jv then 600 else 0) + jvTerm pd (512 * g)

/-- A planned size field: size/128 − 1. -/
def psize (w hi lo : Nat) : Nat := (fld w hi lo + 1) * 128

/-- The tabulated time of a word with the plan's declarations for it (Table TIS-20). An XSEND moves flat bytes, so its scales are no
part of B (R133; 14 R323); nor do the 16-byte records of CONV 6 and the tables of GATE have any (06 R171; 08 R205). XRECV has its time of WAIT = 0 with WAIT = 1 too, whose wait lies outside it (DESIGN CHOICE, log 52: the table
gives none for WAIT = 1). -/
def tabTime (compat : Bool) (ds : List OpDecl) (w : Nat) : Nat :=
  let d := fun hi lo => declOf ds (fld w hi lo)
  let elems := fun (x : OpDecl) => x.d0 * x.d1 * x.d2 * x.d3
  let rows := fun (x : OpDecl) => x.d1 * x.d2 * x.d3
  let side := fun (x : OpDecl) => if x.jv then sideCls x else [.sp]
  let flat := fun (x : OpDecl) => if x.jv then [clsOf x] else [.sp]
  match opOf (wOpc w) with
  | some .mma =>
    let o := d 115 110
    let m := psize w 88 86
    let n := psize w 85 83
    productTime (d 121 116).fmt (d 127 122).fmt (d 121 116) m n (psize w 82 78) (drainTime compat (fld w 77 74))
      (bitOf w 72) (writeTerm (bitOf w 72) (bitOf w 70) o (m, n))
  | some .mma2 =>
    let m := psize w 65 63
    let n1 := psize w 57 55
    let n2 := psize w 54 52
    productTime (d 121 116).fmt (d 127 122).fmt (d 121 116) m n1 (psize w 62 58) (drainTime compat (fld w 51 48)) false 0
    + productTime (d 115 110).fmt (d 109 104).fmt (d 115 110) m n2 n1 128 (bitOf w 45)
        (writeTerm (bitOf w 45) (bitOf w 43) (d 103 98) (m, n2))
  | some .vop => if fld w 127 126 = 0 then cdiv (elems (d 125 120)) 128 + 24 else 1
  | some .sfn => cdiv (elems (d 127 122)) (if compat then 16 else 32) + 40
  | some .rstat =>
    let a := d 121 116
    rows a * (if fld w 115 113 ≤ 3 then 2 else 1) * cdiv a.d0 128 + 48
  | some .cdw =>
    let o := d 127 122
    cdiv (elems o * (fld w 100 98 + 1) * (fld w 97 95 + 1) * (fld w 94 92 + 1) * 2 ^ fld w 103 101) 512 + 96
      + writeTerm false (bitOf w 83) o (rows o, o.d0)
  | some .attn =>
    let m := psize w 89 87
    attnTime compat (bitOf w 90) (fld w 86 81 + 1) (m / 128) (d 121 116) (d 115 110) (d 97 92)
      (writeTerm false (bitOf w 70) (d 109 104) (m, 128))
  | some .qnt =>
    let o := d 127 122
    cdiv (elems o) 128 + 48 + writeTerm false true o (rows o, o.d0)
  | some .dqt =>
    let xs := [d 127 122, d 121 116].filter (·.jv)
    let cs := xs.flatMap deqCls
    cdiv (elems (d 127 122)) 128 + 48 + sidesLat cs + sidesTime cs (maxN (xs.map deqBytes))
  | some .move =>
    let a := d 121 116
    let o := d 127 122
    let deq := fld w 115 112 = 4
    let b := max (if deq then deqBytes a else declBytes a) (declBytes o)
    let cs := side a ++ (if deq then deqCls a else []) ++ side o
    let recs := if 1 < a.d3 then a.d3 else if 1 < a.d2 then a.d2 else if 1 < a.d1 then a.d1 else a.d0
    if fld w 115 112 = 6 then 64 + sidesLat (flat a ++ flat o) + sidesTime (flat a ++ flat o) (16 * recs) + 8 * recs
    else if fld w 115 112 = 7 then
      64 + sidesLat cs + rows o * (sidesTime cs (declBytes { a with d1 := 1, d2 := 1, d3 := 1 }) + 4)
    else 64 + sidesLat cs + sidesTime cs b
  | some .comb =>
    let o := d 127 122
    let p := d 121 116
    let e := elems o
    (p.d3 - 1) * cdiv e 128 + 48 + cdiv e 128 * (fld w 97 97 + fld w 96 96) + jvTerm p (4 * p.d3 * e)
  | some .xsend =>
    let a := { d 127 122 with scaleCls := (d 127 122).cls }
    let b := rows a * rowBytes a.fmt a.d0
    128 + cdiv b 32 + jvTerm a b
  | some .xrecv => 8
  | some .sig => 4 + (if bitOf w 127 then 300 else 12)
  | some .waits => 4 + (if bitOf w 127 then 300 else 12)
  | some .fence =>
    let k := fld w 127 122
    1 + maxN [if bitOf k 1 then 60 else 0, if bitOf k 2 then 300 else 0, if bitOf k 3 then 500 else 0]
  | some .gate => 20 + 2 * sidesLat (flat (d 126 121) ++ if bitOf w 127 then [] else flat (d 120 115))
  | some .loop => 2
  | some .endl => 1
  | some .br => 2
  | some .yield => 4
  | some .halt => 4
  | some .finial => 4
  | none => 0

end Sys2Proof.Machine
end

