-- ==== Sys2Proof/Machine/Plan.lean ====
section
/-! DEFINITION. The contents of a program image as the rules name them (04 R93, R102; 01 R21; 09 R223; 13 R289; 14 R320;
07 R179): programs, initial state, the plan and the schedule record. The container's bytes are ruled by nothing in the
spec (log 7). -/
namespace Sys2Proof.Machine

/-- Initial sequencer state of one logical spire (03 R86), and its scratchpad ranges marked live (01 R26). -/
structure LInit where
  tds : Tbl Nat := []
  sregs : Tbl Nat := []
  preds : Nat := 0
  live : List (Nat × Nat) := []
deriving DecidableEq, Repr

/-- The tiers that the plan's address map names (09 R216, R223). -/
inductive Tier where
  | vault | frame | dome | far
deriving DecidableEq, Repr

/-- One page of the plan's address map: virtual page number, tier, logical cupola, shared-prefix mark. -/
structure PlanPage where
  vpn : Nat
  tier : Tier
  lcup : Nat := 0
deriving DecidableEq, Repr

/-- An overflow set (09 R227): the virtual pages it backs. -/
structure PlanOvf where
  vpns : List Nat
deriving DecidableEq, Repr

/-- A shape table entry (07 Table TIL-1). -/
structure Shape where
  bound : Nat := 0
  used : Bool := false
  sreg : Nat := 0
deriving DecidableEq, Repr

/-- A ring of the plan (06 R164, R165): its control block, region base, pattern record and address, ring pages, prefix rows,
the logical cupola whose assist serves it, and the virtual pages backed by the ring page pool. -/
structure PlanRing where
  ctl : Nat
  base : Nat
  pat : Nat
  patVa : Nat
  ringPages : Nat
  pfxRows : Nat
  lcup : Nat := 0
  vpns : List Nat := []
deriving DecidableEq, Repr

/-- A shared prefix page (06 R172): the address of its entry, the logical cupola of its home vault, or 32 and above where it is
interleaved, the sequences' virtual pages that map it. -/
structure PlanPrefix where
  entry : Nat
  lcup : Nat := 0
  vpns : List Nat
deriving DecidableEq, Repr

/-- A quantised tensor of the plan (02 R58): the address of its status word, the bytes of its A8 codes, its shadow, the words of the
programs that consume it (logical spire × 2,048 + word index), and for each the word of its fall-back variant. -/
structure PlanQuant where
  qsw : Nat
  codes : Nat
  shadow : Nat
  shadowBytes : Nat
  consumers : List Nat
  variants : List (Nat × Nat)
deriving DecidableEq, Repr

/-- A group record (14 Table FAB-5). -/
structure Grp where
  raBase : Nat
  ctlBase : Nat
  slotUnits : Nat
  nslot : Nat
  nred : Nat
  z : List Nat
  raSp : Bool
  raLsp : Nat
  hop1 : Bool
  swred : Bool
  arr : Bool
deriving DecidableEq, Repr

/-- A model the plan names (13 R301, 17 R385): its virtual pages in order, and the digest the image requires. -/
structure PlanModel where
  vpns : List Nat
  digest : List Nat := []
deriving DecidableEq, Repr

/-- A program image's contents. `quants` are its quantised tensors, `swVariants` the SWRED groups whose fall-back variant it holds (14
R332). -/
structure Plan where
  members : List Nat
  progs : List (List Nat)
  inits : List LInit
  decls : Tbl (Tbl (List OpDecl)) := []
  utabs : Tbl UTab := []
  preempt : Bool := false
  dlMin : Nat := 0
  grainCyc : Nat := 0
  certs : List (Nat × Nat) := []
  orderFree : Bool := true
  accLive : Bool := false
  sems : List Nat := []
  vlocal : List Nat := []
  vframes : Nat := 0
  dspages : List Nat := []
  dscways : List Nat := []
  farPages : Nat := 0
  windows : Nat := 256
  ovfs : List PlanOvf := []
  pages : List PlanPage := []
  shapes : List Shape := []
  rings : List PlanRing := []
  poolPages : List Nat := []
  prefixes : List PlanPrefix := []
  groups : Tbl Grp := []
  models : List PlanModel := []
  quants : List PlanQuant := []
  swVariants : List Nat := []
  cups : Option (List Nat) := none
deriving DecidableEq, Repr

/-- Logical spires of a plan (01 R21). -/
def planLsps (p : Plan) : Nat := sumN p.members

/-- The first logical spire of a logical cupola (01 R21). -/
def lspBase (p : Plan) (c : Nat) : Nat := sumN (p.members.take c)

/-- The logical cupola and member of a logical spire (01 R21). -/
def lspPos (p : Plan) (l : Nat) : Nat × Nat :=
  let c := ((List.range p.members.length).filter fun c => lspBase p c ≤ l).foldl max 0
  (c, l - lspBase p c)

/-- Initial state of a logical spire. -/
def initOf (p : Plan) (l : Nat) : LInit := p.inits.getD l {}

/-- The largest live scratchpad bytes of any logical spire (09 R224). -/
def liveMax (p : Plan) : Nat := maxN (p.inits.map fun i => sumN (i.live.map (·.2)))

/-- Spill bytes of one logical spire, rounded up to 64 KiB (09 R224). -/
def spillBytes (p : Plan) : Nat := roundUp (8192 + 131072 * b2n p.accLive + liveMax p) 65536

/-- A group record decoded from its 256 bits (14 Table FAB-5). -/
def grpDec (w : Nat) : Grp :=
  { raBase := fld w 255 216, ctlBase := fld w 215 176, slotUnits := fld w 175 144, nslot := fld w 143 128,
    nred := fld w 127 120, z := [fld w 107 104, fld w 111 108, fld w 115 112, fld w 119 116], raSp := bitOf w 103,
    raLsp := fld w 102 95, hop1 := bitOf w 94, swred := bitOf w 93, arr := bitOf w 92 }

/-- A shape table entry decoded (07 Table TIL-1). -/
def shapeDec (w : Nat) : Shape := { bound := fld w 63 32, used := bitOf w 8, sreg := fld w 4 0 }

/-- A user function table decoded (05 R145, Table SFN-5): the 16-byte header, then F_0 to F_N and a_0 to a_(N−1), little-endian. -/
def utabDec (bs : List Nat) : UTab :=
  let h := ofLe (bs.take 16)
  let n := fld h 39 32
  { lo := fld h 31 8 * 256, logh := sext 8 (fld h 7 0), nseg := n, mono := fld h 41 40, tailL := fld h 43 42, tailR := fld h 45 44
    resv := fld h 127 46, f := (List.range (n + 1)).map fun k => recFld bs (16 + 4 * k) 4
    a := (List.range n).map fun k => recFld bs (16 + 4 * (n + 1) + 4 * k) 4 }

/-- The bytes of a user table by its header. -/
def utabLen (bs : List Nat) : Nat := 16 + 4 * (2 * fld (ofLe (bs.take 16)) 39 32 + 1)

/-- A certificate entry decoded (13 Table SCH-3): ENSP and C_CYC. -/
def certDec (w : Nat) : Nat × Nat := (fld w 7 0, fld w 127 64)

/-- The words of a program: 16 bytes each, little-endian (04 R93). -/
def progDec (bs : List Nat) : List Nat := (List.range (bs.length / 16)).map fun i => recFld bs (16 * i) 16

/-- An image's contents with the parts whose bits the spec rules still undecoded: the programs, one for each logical spire, the schedule record
and its certificates, the shape table, the group records, the user tables. -/
structure PlanRaw where
  plan : Plan
  progs : List (List Nat)
  sched : Nat
  certs : List Nat
  shapes : List Nat
  groups : Tbl Nat
  utabs : Tbl (List Nat)
deriving DecidableEq, Repr

/-- The contents of an image (04 R93; 13 Tables SCH-2 and SCH-3, 07 Table TIL-1, 14 Table FAB-5, 05 Table SFN-5). -/
def planOf (r : PlanRaw) : Plan :=
  { r.plan with
    progs := r.progs.map progDec
    dlMin := fld r.sched 95 64, grainCyc := fld r.sched 63 32, preempt := bitOf r.sched 13
    certs := (r.certs.take (fld r.sched 15 14 + 1)).map certDec, shapes := r.shapes.map shapeDec
    groups := r.groups.map fun g => (g.1, grpDec g.2), utabs := r.utabs.map fun u => (u.1, utabDec u.2) }

/-- Do the programs and records disagree with their lengths or slots (04 Table TIS-4, IMAGE_MALFORMED)? -/
def rawBad (r : PlanRaw) : Bool :=
  r.progs.any (fun b => b.length % 16 != 0) || r.utabs.any (fun u => 8 ≤ u.1 || u.2.length != utabLen u.2) || r.shapes.length != 16 || r.groups.any (fun g => 16 ≤ g.1)

end Sys2Proof.Machine
end

