-- ==== Sys2Proof/Machine/VideoTypes.lean ====
section
/-! DEFINITION. Records of the video island (15): streams, pool entries, frame commands, engines, buffer sizes, and what a decoder or an
encoder of a published standard answers for one frame. -/
namespace Sys2Proof.Machine

/-- The profiles that a bitstream names, those of Table VID-1 and the others. -/
inductive VidProfile where
  | av1Main | av1High | hevcMain | hevcMain10 | hevcMain422 | hevcMain444 | vvcMain10 | other
deriving DecidableEq, Repr, Inhabited

/-- What one coded frame yields (15 R336, R338, R343, R346, R347): the stream's state after, whether the frame starts with a key or IRAP
picture, the profile, whether the stream has more than one layer, whether it is AV1 large-scale tile, the level indication times 10, bit depth,
chroma format, width and height of the bitstream, the samples of the reconstructed picture plane by plane, without film grain, its reference
mark (0 none, 1 short, 2 long), its output order, whether it awaits output, the pictures whose reference marks the standard clears, those that
it makes long-term references and those it outputs in order, numbered in coding order within the stream, and an encoder's bitstream of the
frame beside the sequence-level headers. -/
structure VidOut where
  state : List Nat
  key : Bool
  profile : VidProfile
  layered : Bool
  largeTile : Bool
  level : Nat
  bd : Nat
  chroma : Nat
  w : Nat
  h : Nat
  pic : List Nat
  mark : Nat
  order : Nat
  pend : Bool
  cleared : List Nat
  longs : List Nat
  outs : List Nat
  bits : List Nat
deriving DecidableEq, Repr, Inhabited

/-- What ends a coded frame without success: a bitstream that does not conform, or one that asks for what Table VID-1 lacks; `key`: it
begins with a key or IRAP picture. -/
inductive VidErr where
  | bitstream (key : Bool)
  | unsupported (key : Bool)
deriving DecidableEq, Repr, Inhabited

/-- A pool entry (Table VID-6): marks bit 0 IN_USE, 1 REF_SHORT, 2 REF_LONG, 3 OUT_PEND; the picture's number in coding order, its bytes and
bit depth, and whether an output list has named it (R347). -/
structure PoolEnt where
  frame : Nat := 0
  order : Nat := 0
  marks : Nat := 0
  pic : Nat := 0
  size : Nat := 0
  bd : Nat := 10
  listed : Bool := false
deriving DecidableEq, Repr

/-- A stream (15 R341 to R343): its owner, record bytes, state (0 OPEN, 1 RUNNING, 2 ERROR), pool, the coding state that its context holds
(log 50), the pictures coded, the bit depth of its bitstream, the bits that the buffer model of its rate control holds (R343). -/
structure Stream where
  fn : Nat
  job : Nat
  recd : List Nat
  st : Nat := 0
  pool : Tbl PoolEnt := []
  coding : List Nat := []
  pics : Nat := 0
  bd : Nat := 10
  full : Nat := 0
deriving DecidableEq, Repr

/-- A queued frame command (15 R344, R345), a RELEASE (`rel` names the buffer) or a CLOSE. -/
structure VFrame where
  fn : Nat
  qp : Nat
  cmd : Nat
  num : Nat
  stream : Nat
  recd : List Nat := []
  rel : Option Nat := none
  close : Bool := false
deriving DecidableEq, Repr

/-- A codec engine (15 Table VID-10): `st` 0 IDLE, 2 DECODE, 3 ENCODE, 4 EXPORT, 6 RESET; the running frame, the buffer it took, when it
started (µs); whether its start loaded the stream's context, and saved another's before (R345). -/
structure Engine where
  frames : Nat := 0
  switches : Nat := 0
  ctx : Nat := 0
  st : Nat := 0
  last : Option Nat := none
  run : Option VFrame := none
  buf : Option Nat := none
  since : Nat := 0
  loads : Bool := false
  saves : Bool := false
deriving DecidableEq, Repr

/-- The video island: streams by context, engines, frames in acceptance order, acceptance counter, VID_STAT.LOST. -/
structure Video where
  streams : Tbl Stream := []
  engines : Tbl Engine := []
  queue : List VFrame := []
  num : Nat := 0
  lost : Nat := 0
deriving DecidableEq, Repr

/-! Frame buffers (R339). -/

/-- The pitch of a plane. -/
def vPitch (w : Nat) : Nat := cdiv (2 * w) 256 * 256

/-- Chroma width and height of a chroma format (0 4:2:0, 1 4:2:2, 2 4:4:4, 3 monochrome). -/
def chromaDim (c w h : Nat) : Nat × Nat :=
  match c with
  | 0 => (cdiv w 2, cdiv h 2)
  | 1 => (cdiv w 2, h)
  | 2 => (w, h)
  | _ => (0, 0)

/-- Bytes of a picture. -/
def vSize (c w h : Nat) : Nat :=
  let d := chromaDim c w h
  vPitch w * h + 2 * (if c = 3 then 0 else vPitch d.1 * d.2)

/-- The size of a pool buffer. -/
def streamFsz (r : List Nat) : Nat := vSize (nth r 5) (recFld r 8 2) (recFld r 0xA 2)
/-- The address of a pool buffer. -/
def poolAddr (r : List Nat) (b : Nat) : Nat := recFld r 0x10 8 + b * streamFsz r

/-- The address of a frame operand: a pool buffer or a job virtual address. -/
def frAddr (t : Stream) (a : Nat) : Nat := if bitOf a 63 then poolAddr t.recd (a % 64) else a

end Sys2Proof.Machine
end

