-- ==== Sys2Proof/Config.lean ====
section
/-! DEFINITION. Values and functions the spec leaves to an implementation or to a published standard. None has a body, so
no proof can lean on what they answer (logs 7 to 11). -/
namespace Sys2Proof

/-- A free value by the counter that names it (log 11). -/
opaque Config.freeNat : Nat → Nat

/-- A byte of a region that the spec leaves undefined: the region's number and the address (log 11). -/
opaque Config.freeByte : Nat → Nat → Byte

/-- A byte of far memory that nothing has written: its page's epoch and its address (09 R225, 17 R390; log 10). -/
opaque Config.farByte : Nat → Nat → Byte

/-- The contents of a container (04 R102), the records that the spec lays out still as their bits; nothing where its structure cannot be
read (log 7). -/
opaque Config.parseImage : List Nat → Option Machine.PlanRaw

/-- Does a model image hold a WT byte outside its 243 codes (02 R33), its weights placed as the image itself says (log 7)? -/
opaque Config.wtIllegal : List Nat → Bool

/-- SHAKE256 with an output length in bytes (17, FIPS 202; log 8). -/
opaque Config.shake256 : List Nat → Nat → List Nat

/-- The parameter sets of SLH-DSA that the device uses (17 R383, FIPS 205). -/
inductive SlhSet where
  | shake256s
  | shake256f
deriving DecidableEq, Repr

/-- SLH-DSA verification: parameter set, public key, message with its context encoding, signature (17, FIPS 205; log 8). -/
opaque Config.slhVerify : SlhSet → List Nat → List Nat → List Nat → Bool

/-- SLH-DSA key generation with a parameter set from a seed: private and public key (log 8). -/
opaque Config.slhKeygen : SlhSet → List Nat → List Nat × List Nat

/-- SLH-DSA signature: parameter set, private key, message with its context encoding (log 8). -/
opaque Config.slhSign : SlhSet → List Nat → List Nat → List Nat

/-- ML-KEM key generation from a seed: decapsulation and encapsulation key (17, FIPS 203; log 8). -/
opaque Config.mlkemKeygen : List Nat → List Nat × List Nat

/-- ML-KEM decapsulation (log 8). -/
opaque Config.mlkemDecap : List Nat → List Nat → List Nat

/-- AES-256-GCM encryption: key, IV, additional data, plaintext; ciphertext and tag (log 8). -/
opaque Config.gcmSeal : List Nat → List Nat → List Nat → List Nat → List Nat × List Nat

/-- AES-256-GCM decryption: key, IV, additional data, ciphertext, tag; nothing when the tag does not match (log 8). -/
opaque Config.gcmOpen : List Nat → List Nat → List Nat → List Nat → List Nat → Option (List Nat)

/-- AES-256-XTS encryption of one data unit: key of 512 bits, tweak, 256 bytes (17 R390, IEEE 1619; log 8). -/
opaque Config.aesXts : List Nat → Nat → List Nat → List Nat

/-- What the other member devices of a job have counted, by the job's identity on the fabric, the counter and the time (12 R279; log 19). -/
opaque Config.memberCount : Nat → Nat → Nat → Nat

/-- Whether the packet or access that a requester of an instance is granted for belongs to a job's request that is stopped, by the job's handle,
the instance, the requester and the time (11 R268; log 32). -/
opaque Config.netOwner : Nat → Nat → Nat → Nat → Bool

/-- A byte of the built-in calibration defaults whose value the spec does not give, by its offset in the body: the same at every read
(18 R410; log 11). -/
opaque Config.calByte : Nat → Byte

/-- The boot progress code that the UART emits at a stage: 0 the boot ROM, 1 recovery, 2 firmware (17 R393; log 46). -/
opaque Config.bootCode : Nat → Byte

/-- Is a JTAG instruction one of the boundary-scan instructions of IEEE 1149.1 and IEEE 1149.6 (17 R393; its codes stand in the BSDL; log 46)? -/
opaque Config.jtagScan : Nat → Bool

/-- What a boundary-scan instruction with its data drives onto a sideband output: a level, or none where it leaves the output its function (21 R445;
the BSDL's; log 46). -/
opaque Config.jtagDrive : Nat → Nat → Nat → Option Bool

/-- What a scan shifts out on TDO: of the instruction, the data register before it, and the pins captured (21 R445; log 46). -/
opaque Config.jtagOut : Nat → Nat → List Nat → Nat

/-- Does a voltage sensor read VDD_IO (19 R430; 21 R445; log 46)? -/
opaque Config.vddIoSensor : Nat → Bool

/-- Bytes of the entropy source, by draw (17; log 8). -/
opaque Config.entropy : Nat → Nat → List Nat

/-- A frame of a decoder: the standard (Table VID-4 STD), stream state before, bitstream (15 R338; log 9). -/
opaque Config.videoDecode : Nat → List Nat → List Nat → Except Machine.VidErr Machine.VidOut

/-- The bits that the buffer model of an encoder's stream holds at its opening, by its record (15 R338, R343; log 9). -/
opaque Config.videoFull : List Nat → Nat

/-- A frame of an encoder: stream record, stream state before, the bits that rate control gives the frame and those that its buffer model
holds, in units of 1/FPS_NUM of a bit, frame flags, source samples (15 R338, R343; log 9). -/
opaque Config.videoEncode : List Nat → List Nat → Nat → Nat → Nat → List Nat → Machine.VidOut

/-- The sequence-level headers of an encoded stream by its record: its level, its frame rate (15 R336, R343, R355; log 9). -/
opaque Config.seqHeaders : List Nat → List Nat

/-- The coding state of a stream that has run no frame (15; log 9). -/
opaque Config.videoInit : List Nat → List Nat

/-- The alias certificate in DER form (17 R383, R384): identity private key, alias public key, VERSION, SVN, rollback index, body
digest (log 8). -/
opaque Config.aliasCert : List Nat → List Nat → Nat → Nat → Nat → List Nat → List Nat

/-- The certificates that the flash certificate area holds, joined (17 R384; log 8). -/
opaque Config.factoryChain : List Nat → List Nat

/-- Which of the free quarters of a system area a new job's page table takes: job handle (09 R216; log 50). -/
opaque Config.tablePlace : Nat → Nat

/-- MOVE without requantisation: scale and codes of a destination block whose elements come from blocks of different scales, by the codes
and scales of its elements (07 R194, a C16 block covers two positions; log 21). -/
opaque Config.mixedBlock : List (Nat × Nat) → Nat × List Nat

/-- CDW: does a triple of descriptors use the C16 layout (07 R194; log 22)? -/
opaque Config.cdwC16 : Nat → Nat → Nat → Bool

/-- CDW: the displacement of the first tap along an axis (0 frames, 1 rows, 2 columns) with kernel extent above 1 (log 22). -/
opaque Config.cdwOrigin : Nat → Nat → Int

end Sys2Proof
end

