-- ==== Sys2Proof/Machine/SpireState.lean ====
section
/-! DEFINITION. The state of one physical spire (03 R74 to R92; 04 R93, R125, R129): registers, sequencer state of the
logical spires it carries, instructions in flight. -/
namespace Sys2Proof.Machine

/-- Memory: a list of address and byte pairs, addresses strictly rising. -/
abbrev Memory := List Host.Cell

/-- A store: written bytes, and the ranges whose unwritten bytes are free values, newest first: start, length, region. -/
structure Store where
  cells : Memory := []
  free : List (Nat × Nat × Nat) := []
deriving DecidableEq, Repr

/-- The spire states of Table SPI-5. -/
inductive SpState where
  | off | idle | loading | running | blocked | saving | halted | faulted
deriving DecidableEq, Repr

/-- A level of the loop stack (03 R86, 04 R125): the LOOP's index, its ENDL's, iteration count, current iteration, induction
register, its value at the LOOP, step, enable; for a stealable loop the iterations not yet started end at `top`, `out` are on
thieves, `sregs`, `tds` and `preds` are the owner's at the LOOP (R129), and `marks` holds the trace markers of stolen iterations that have ended,
by iteration (R128). -/
structure LoopFr where
  pc : Nat
  fin : Nat
  cnt : Nat
  it : Nat
  sInd : Nat
  base : Nat
  step : Nat
  indEn : Bool
  steal : Bool
  top : Nat
  out : Nat
  sregs : Tbl Nat
  tds : Tbl Nat
  preds : Nat
  marks : Tbl (List (List Nat)) := []
deriving DecidableEq, Repr

/-- A standing KEEP (04 R105, R114): planned and run-time M and N, the K so far, scales latched, the result's width. -/
structure Keep where
  mp : Nat
  np : Nat
  m : Nat
  n : Nat
  k : Nat
  tw : List Nat
  taPer : List Nat
deriving DecidableEq, Repr

/-- A pending wait (03 R86, R89, R91): a WAITS on a semaphore, or the wait of an XRECV. -/
structure PWait where
  id : Nat
  recv : Bool
  scope : Nat
  home : Nat
  va : Nat
  target : Nat
  dec : Bool
  ok : Bool
  group : Nat
  first : Nat
  count : Nat
  sdrop : Nat
  hang : Nat
  wdog : Nat
deriving DecidableEq, Repr

/-- The state of one logical spire (03 R86, R75, R76). `gate` is the GATE state: 1 compute, also before the first
GATE of a program (DESIGN CHOICE, log 59). -/
structure LCtx where
  lidx : Nat
  pc : Nat := 0
  loops : List LoopFr := []
  preds : Nat := 0
  sregs : Tbl Nat := []
  tds : Tbl Nat := []
  gate : Nat := 1
  keep : Option Keep := none
  acc : Tbl Nat := []
  v : Tbl Nat := []
  waits : List PWait := []
  halting : Bool := false
  halted : Bool := false
  runCyc : Nat := 0
  sp : Store := {}
deriving DecidableEq, Repr

/-- An instruction in flight (03 R83, R84): its units (0 matrix, 1 vector, 2 special function, 3 quantisation, 4 mover; the
matrix engine's queued slot is counted), scratchpad intervals, what it waits for, pins of prefix pages, and for a piece
stream the m-groups started, the operands latched at issue and the accumulators it continues (R98, R105). -/
structure InFl where
  seq : Nat
  lidx : Nat
  pc : Nat
  word : Nat
  units : List Nat
  rd : List (Nat × Nat)
  wr : List (Nat × Nat)
  wait : Nat := 0
  pins : List Nat := []
  mg : Nat := 0
  mgs : Nat := 0
  lat : List Nat := []
  tds : List Nat := []
  acc : Tbl Nat := []
  port : Nat := 0
  since : Nat := 0
deriving DecidableEq, Repr

/-- A stolen iteration that a spire runs (04 R129): the owner spire and logical spire, the LOOP, the iteration, its trace markers. -/
structure Stolen where
  owner : Nat
  olidx : Nat
  loopPc : Nat
  it : Nat
  ctx : LCtx
  marks : List (List Nat) := []
deriving DecidableEq, Repr

/-- A physical spire. Every field resets to the value of 03 Tables SPI-5 to SPI-10, or to 0 (log 1). `resume` is the carried logical spire
that was released first while both were blocked (01 R25). -/
structure Spire where
  st : SpState := .off
  job : Option Nat := none
  run : Option LCtx := none
  other : Option LCtx := none
  progs : Tbl (List Nat) := []
  steal : List Nat := []
  stolen : Option Stolen := none
  infl : List InFl := []
  seq : Nat := 0
  changing : Bool := false
  resume : Option Nat := none
  compat : Bool := false
  compatReg : Bool := false
  saveReq : Bool := false
  cycles : Nat := 0
  cycDisp : Nat := 0
  logRun : Nat := 0
  logOther : Nat := 0
  eccBank : Nat := 0
  eccSrc : Nat := 0
  eccCnt : Nat := 0
  stalls : Nat := 0
  hangShift : Nat := 28
  cause : Nat := 0
  param : Nat := 0
  ordContests : Nat := 0
  ordSwred : Nat := 0
  plStolen : Nat := 0
  plChanges : Nat := 0
  ord : Nat := 0
  place : Nat := 0
  sp : Store := {}
deriving DecidableEq, Repr

end Sys2Proof.Machine
end

