-- ==== Sys2Proof/Machine/Records.lean ====
section
/-! DEFINITION. Records of jobs, requests, host queues, windows, models, pool units and fabric ports (09, 13, 14, 16). -/
namespace Sys2Proof.Machine

/-- A page-table entry (09 Table MEM-3), by its fields; tier 0 vault, 1 dome-store scratch, 2 far memory, 3 host window. -/
structure Pte where
  tier : Nat
  ilv : Bool := false
  shr : Bool := false
  wp : Bool := false
  slot : Nat := 0
  pfn : Nat
deriving DecidableEq, Repr

/-- An issued write not yet performed (11 R256): the job, the issuing logical spire and instruction, address and bytes, a
quantisation status word update (02 R56), a host-window side. -/
structure PWr where
  id : Nat
  job : Nat
  lsp : Nat
  seq : Nat
  qsw : Bool
  host : Bool
  va : Nat
  pa : Nat
  data : List Nat
deriving DecidableEq, Repr

/-- A SIG on its way to its home (04 R122, 12 R278). `home` is the cupola or the slice, `key` the semaphore's index or
physical address. -/
structure Sig where
  id : Nat
  job : Nat
  p : Nat
  lsp : Nat
  seq : Nat
  scope : Nat
  home : Nat
  key : Nat
  val : Nat
deriving DecidableEq, Repr

/-- A command of a host function that will complete: function, queue pair, and the device's own token × 65,536 plus the host's
CMD_ID. -/
structure CmdRef where
  fn : Nat
  qp : Nat
  cmd : Nat
deriving DecidableEq, Repr

/-- An accepted request (13 R286, R290; 16 R369): times in lantern cycles, `fs` the spire clock at acceptance in MHz. -/
structure Req where
  ref : CmdRef
  shapes : List Nat
  pass : Nat
  chain : Bool
  abs : Nat
  at_ : Nat
  c : Nat
  bound : Nat
  fs : Nat
  num : Nat
  waited : Bool := false
  throttled : Bool := false
deriving DecidableEq, Repr

/-- The running request (08 R200, 13 R292): `host` once a host-window write was issued, `haltAt` the last time at which a logical spire
had not ended (16 R369), `waited` where the restore of its saved job waits for the load of a model (13 Table SCH-6). -/
structure RunReq where
  req : Req
  first : Bool
  since : Nat
  ordBase : Nat
  haltAt : Nat := 0
  host : Bool := false
  claims : List Nat := []
  waited : Bool := false
deriving DecidableEq, Repr

/-- A ring's state at the assist beside the control block in memory (06 R165 to R168): unit increases of ADV and REL not yet served, held
mark, lists generated. -/
structure RingSt where
  adv : Nat := 0
  rel : Nat := 0
  held : Bool := false
  lists : Nat := 0
  pool : List Pte := []
deriving DecidableEq, Repr

/-- A switch reduction the job's device 0 has claimed or is claiming (14 R330); `gone` once its request has ended. -/
structure Claim where
  req : Nat
  group : Nat
  answered : Bool
  granted : Bool
  gone : Bool := false
deriving DecidableEq, Repr

/-- A request of a job with several members that has ended here, its completion held for the REQ_END messages that cross (09 R231): the member
of lowest index whose status it has so far. -/
structure EndWait where
  ref : CmdRef
  num : Nat
  who : Nat
  status : Nat
  param : Nat
deriving DecidableEq, Repr

/-- A job on the device (12 Table DET-6, 13 Table SCH-1, 16 Table HST-10). The slot is its key. Of its scratch pages `dsp`, by slice × 4
+ page, those in `away` are held by another job; `backs` are their backing pages, one for each; `spills` the spill pages of each logical
cupola (09 R223, R224); `tableAt` the place of its page table (R216); `ovfGot` the overflow sets given once (R227); `ovfTiles` the overflowed tiles
of the request by status word (02 R61); `enders` the completions held for crossing REQ_END
messages (R231); `ends` the requests that have ended, by number, with pass and success, as far as the first-pass test of
08 R200 needs them; `farLost` the address of a far write lost while no request ran (R230); `digests` those of its models at admission (17 R389);
`ek`, `dk` and `kt` its encapsulation, decapsulation and tenant keys (R388). -/
structure Job where
  handle : Nat := 0
  fn : Nat
  img : Nat
  plan : Plan
  ready : Bool := false
  admCmd : Option CmdRef := none
  lc : Bool := false
  weight : Nat := 16
  collWdog : Nat := 200
  strict : Bool := false
  steal : Bool := false
  compat : Bool := false
  trace : Bool := false
  m : Nat := 1
  l : Nat := 0
  grid : List Nat := []
  fabId : Nat := 0
  fas : List Nat := []
  models : List Nat := []
  place : List Nat := []
  cups : List Nat := []
  semBase : List Nat := []
  pt : Tbl Pte := []
  tableAt : Nat := 0
  vpages : List Nat := []
  frames : List Nat := []
  dsp : List Nat := []
  ways : List (Nat × Nat × Nat) := []
  far : List Nat := []
  copies : List Pte := []
  copyAll : List Pte := []
  freed : List Pte := []
  ringPool : List Pte := []
  ovf : Tbl (List Nat) := []
  ovfGot : List Nat := []
  rings : Tbl RingSt := []
  queue : List Req := []
  running : Option RunReq := none
  everRun : Bool := false
  ends : Tbl (Nat × Bool) := []
  v : Nat := 0
  vRem : Nat := 0
  saved : Bool := false
  spill : Tbl LCtx := []
  away : List Nat := []
  backs : List Nat := []
  spills : List (List Nat) := []
  pauseSent : Bool := false
  ctrs : Tbl Nat := []
  traceRing : List (List Nat) := []
  dirty : List (Nat × Nat) := []
  farLost : Option Nat := none
  ovfTiles : Tbl Nat := []
  gcmCtr : Nat := 9223372036854775808
  kt : List Nat := []
  block : List Nat := []
  digests : List (List Nat) := []
  ek : List Nat := []
  dk : List Nat := []
  claims : List Claim := []
  readyFrom : List (Nat × Nat) := []
  goGot : Tbl Nat := []
  paused : List Nat := []
  beatSeen : Bool := false
  beatMiss : Nat := 0
  beatWin : Nat := 0
  sent : List (Nat × Nat) := []
  redParts : Tbl (Nat × Nat) := []
  subs : Nat := 0
  reqEnds : Tbl (Nat × Nat) := []
  enders : List EndWait := []
deriving DecidableEq, Repr

/-- A co-tenant group (13 R287, R293): its cupolas, member jobs, the holder, the time of the last service account (µs), when the
holder took the group, the job that a scheduling point gives it to from a holder that runs (`next`), the BE job that the last scheduling point
chose (`turn`), the quantum in effect (R305), the outgoing job of a switch whose restore
has not ended (Table SCH-4). A holder that is still `saved` is being restored. -/
structure CoGrp where
  cups : List Nat
  jobs : List Nat
  holder : Option Nat := none
  since : Nat := 0
  took : Nat := 0
  next : Option Nat := none
  turn : Option Nat := none
  quantum : Nat := 100
  outJob : Option Nat := none
deriving DecidableEq, Repr

/-- A program image held for a function (16 R368). -/
structure Image where
  fn : Nat
  len : Nat
  digest : List Nat
  signer : List Nat
  plan : Plan
deriving DecidableEq, Repr

/-- A host window (16 R371). -/
structure Win where
  job : Nat
  base : Nat
  pages : Nat
  va : Nat
  rd : Bool
  wr : Bool
  gcm : Bool
deriving DecidableEq, Repr

/-- States of a hot-set entry (13 Table SCH-5). -/
inductive HotState where
  | loading | resident | pinned | evicting
deriving DecidableEq, Repr

/-- A hot-set entry (13 R301, Table SCH-11). `waits` are commands that wait on its load. -/
structure Model where
  fn : Nat
  st : HotState
  size : Nat
  frames : List Nat
  pins : Nat := 0
  uses : Nat := 0
  age : Nat := 0
  src : Nat := 0
  srcAddr : Nat := 0
  cache : Bool := false
  reload : Bool := false
  digest : List Nat := []
  signer : List Nat := []
  waits : List CmdRef := []
deriving DecidableEq, Repr

/-- A unit of the shared pool (09 R226): a model-cache entry (`kind` 0, a model handle) or an overflow set (`kind` 1, a job
slot and set). -/
structure PUnit where
  fn : Nat := 0
  kind : Nat
  owner : Nat
  set : Nat
  pages : List Nat
  age : Nat := 0
  pins : Nat := 0
  size : Nat := 0
  digest : List Nat := []
deriving DecidableEq, Repr

/-- A queue pair (16 Table HST-4, R361 to R367). -/
structure QPair where
  sqBase : Nat
  cqBase : Nat
  sqLog : Nat
  cqLog : Nat
  iv : Nat := 0
  coalN : Nat := 0
  coalUs : Nat := 0
  ien : Bool := true
  sqHead : Nat := 0
  sqTail : Nat := 0
  cqHead : Nat := 0
  cqTail : Nat := 0
  phase : Nat := 1
  opened : List Nat := []
  waitq : List Nat := []
  unsent : Nat := 0
  since : Nat := 0
  waiting : Bool := false
  err : Bool := false
deriving DecidableEq, Repr

/-- A host function (16 Table HST-3, R360, R374; 20 Table REG-1): the PF is function 0. `openv` are the MSI-X vectors that are not
masked, `msixT` the address and data words of its MSI-X table by 4-byte index, `pendv` its pending bits (log 30). -/
structure Fn where
  enabled : Bool := false
  asq : Nat := 0
  acq : Nat := 0
  asqLog : Nat := 6
  acqLog : Nat := 6
  en : Bool := false
  rdy : Bool := false
  err : Bool := false
  allot : Nat := 0
  bar4Miss : Nat := 0
  evDropped : Nat := 0
  dbDropped : Nat := 0
  bar4 : Nat := 0
  qps : Tbl QPair := []
  asyncOut : List Nat := []
  asyncWait : List (Nat × Nat × Nat) := []
  evLost : Nat := 0
  d3hot : Bool := false
  openv : List Nat := []
  msixT : Tbl Nat := []
  pendv : List Nat := []
  doeResp : List Nat := []
  doeErr : Bool := false
deriving DecidableEq, Repr

/-- An MSI-X message sent: function, vector, address and data. -/
structure MsixMsg where
  fn : Nat
  vec : Nat
  addr : Nat
  data : Nat
deriving DecidableEq, Repr

/-- A command waiting in the lantern's mailbox, read at a time in µs (16 R366; 13 R286), with the record that a codec command names, read with it
(15 R342, R344). -/
structure Fetched where
  fn : Nat
  qp : Nat
  tok : Nat
  e : Entry
  at_ : Nat := 0
  recd : List Nat := []
deriving DecidableEq, Repr

/-- Port states (14 Table FAB-8). -/
inductive PortState where
  | down | training | link | ready | mismatch | disabled
deriving DecidableEq, Repr

/-- A frame the device sends (14 Tables FAB-3, FAB-4): type, VC, LSN, acknowledgement, NAK, returned credits, addresses, header
fields, message words and payload; `id` is the device's own mark of the piece. -/
structure OutFr where
  port : Nat
  type : Nat
  vc : Nat
  lsn : Nat := 0
  ack : Option Nat := none
  nak : Bool := false
  cvc : Nat := 0
  cred : Nat := 0
  id : Nat := 0
  dst : Nat
  job : Nat := 0
  group : Nat := 0
  slot : Nat := 0
  offset : Nat := 0
  plen : Nat := 0
  first : Bool := false
  last : Bool := false
  arr : Bool := false
  kind : Nat := 0
  a : Nat := 0
  b : Nat := 0
  data : List Nat := []
  src : Nat := 0
  smac : Nat := 0
  dmac : Nat := 0
  ether : Nat := 0x88B5
  tag : Option Nat := none
deriving DecidableEq, Repr

/-- A fabric port (14 R306 to R314, Tables FAB-8, FAB-9): `wRound` the weights of the round that runs, `ether` and `vlan` FAB_CFG as it was at
link-up (R335). -/
structure Port where
  en : Bool := true
  noDegrade : Bool := false
  media : Nat := 3
  st : PortState := .down
  width : Nat := 0
  fa : Nat := 0
  gen : Nat := 0
  w1 : Nat := 6
  w2 : Nat := 3
  w3 : Nat := 1
  retries : Nat := 0
  fcsErr : Nat := 0
  stray : Nat := 0
  linkDowns : Nat := 0
  swRefused : Nat := 0
  swGranted : Nat := 0
  lsn : Nat := 0
  lsnExp : Nat := 0
  nakSent : Bool := false
  rxAny : Bool := false
  ackDue : Bool := false
  owe : List Nat := [0, 0, 0, 0]
  ackAt : Nat := 0
  txq : List OutFr := []
  deficit : List Nat := [0, 0, 0, 0]
  turn : Nat := 1
  unacked : List OutFr := []
  retryRun : Nat := 0
  credits : List Nat := [0, 0, 0, 0]
  tower : Nat := 0
  pos : Nat := 0
  present : List (Nat × Nat) := []
  mib : Nat := 0
  towers : Option (List Nat) := none
  towersGen : Nat := 0
  wRound : List Nat := [6, 3, 1]
  ether : Nat := 0x88B5
  vlan : Option Nat := none
deriving DecidableEq, Repr

/-- A receive slot that is being written (14 R323): which piece is landing, and how far. -/
structure Landing where
  job : Nat
  group : Nat
  slot : Nat
  src : Nat
  next : Nat
  plen : Nat
deriving DecidableEq, Repr

end Sys2Proof.Machine
end

