-- ==== Sys2Proof/Machine/Units.lean ====
section
/-! DEFINITION. Records of the units outside the spires: vault and far-memory channels (10), slices (09, 20 Table REG-7),
arbiters (11), the event recorder and the store (18), gates, thermal state and power (19), boot and fuses (17, 19, 20). -/
namespace Sys2Proof.Machine

/-- A vault channel (10 Table VLT-8, R237, R241 to R243): corrected errors per physical lane, queued write lines, per-bank
time of the last refresh (ns) with the band then in force. -/
structure VChan where
  ue : Nat := 0
  ce : Nat := 0
  f0 : Option Nat := none
  f1 : Option Nat := none
  dis : Bool := false
  lanes : Tbl Nat := []
  wq : List Nat := []
  wqSince : Nat := 0
  refr : Tbl (Nat × Bool) := []
deriving DecidableEq, Repr

/-- Lines that one operation of the lantern, the zero-fill or the copying of a page, wrote to a vault at once, until the channels `done` have
turned to writes (10 R243): the first line, how many, when (µs). -/
structure WBulk where
  line : Nat
  n : Nat
  since : Nat
  done : List Nat := []
deriving DecidableEq, Repr

/-- A DRAM layer of a vault (10 R242): in the hot band, samples at or below 85 °C in a row, last reading in 0.125 °C. -/
structure Layer where
  hot : Bool := false
  cool : Nat := 0
  temp : Int := 0
deriving DecidableEq, Repr

/-- A vault (10 R239, R241; 20 Table REG-7). -/
structure Vault where
  patrol : Nat := 0
  ueReg : Nat := 0
deriving DecidableEq, Repr

/-- A dome-store slice (20 Table REG-7). -/
structure Slice where
  ce : Nat := 0
  ueClean : Nat := 0
  ueCount : Nat := 0
  conflict : Bool := false
  ueReg : Nat := 0
deriving DecidableEq, Repr

/-- A far-memory channel (10 Table VLT-9, R249): `st` is STATE, `win` the errors of the current window, `winAt` its start (µs). -/
structure FChan where
  ue : Nat := 0
  ce : Nat := 0
  density : Nat := 0
  hot : Bool := false
  st : Nat := 0
  win : Nat := 0
  winAt : Nat := 0
deriving DecidableEq, Repr

/-- An arbiter instance (11 R264 to R272): round-robin pointer, owner and units of its grant, whether a unit is under way, whether
the grant is withdrawn as that ends, parked requests per requester, requesters that wait with one at their full queue, waiting cycles of the window, the window's cycles so far, those of the present microsecond, ARB_CFG in force and its next value,
ARB_STARVE, ARB_STAT, the requesters whose signals the lantern has not taken yet, the signals not recorded. -/
structure Arb where
  ptr : Nat := 0
  owner : Option Nat := none
  units : Nat := 0
  mid : Bool := false
  drop : Bool := false
  parked : Tbl Nat := []
  held : List Nat := []
  wait : Tbl Nat := []
  cyc : Nat := 0
  sub : Nat := 0
  burst : Nat := 16
  winLog : Nat := 16
  ie : Bool := true
  thr : Nat := 4096
  next : Option Nat := none
  flags : Nat := 0
  cur : Nat := 0
  dead : Nat := 0
  pqFull : Nat := 0
  grants : Nat := 0
  signalled : Bool := false
  sigs : List Nat := []
  lastRec : Option Nat := none
  unrec : Nat := 0
deriving DecidableEq, Repr

/-- An event record (18 Table EVR-2) by its fields; the CRC and the valid mark follow from them. -/
structure Rec where
  code : Nat
  sev : Nat
  src : Nat
  secs : Nat
  pcyc : Nat
  sub : Nat
  ps : List Nat
deriving DecidableEq, Repr

/-- A slot of the flash ring that is not erased (18 R395, R396): sector 0 to 8, slot 0 to 2,047, the record written, whether it has left the
log and waits for its sector's compaction (R399), the bytes that an interrupted write left. -/
structure FRec where
  sec : Nat
  slot : Nat
  r : Rec
  dead : Bool := false
  cut : Option (List Nat) := none
deriving DecidableEq, Repr

/-- The event recorder (18 R397 to R404, Table EVR-6): the flash ring, the RAM ring, the holding queue; `absent` where the board has no
flash. -/
structure Evr where
  absent : Bool := false
  flash : List FRec := []
  ram : List Rec := []
  held : List Rec := []
  frozen : Bool := false
  freezeAt : Nat := 0
  hold : Nat := 0
  holdErr : Nat := 0
  full : Nat := 0
  flashFail : Bool := false
  index : Nat := 0
  stampSec : Nat := 0
  stampSub : Nat := 0
deriving DecidableEq, Repr

/-- A flash operation that a power loss may find under way, with what undoes it (18 R407, R410, R411): a record's program; a compaction; a
store write; a calibration write; an erase or a program in a firmware slot. -/
inductive FlashWork where
  | record (sec slot : Nat)
  | compact (old : List FRec)
  | store (bank : Nat) (old : Option (List Nat))
  | calib (old : Option (List Nat))
  | slots (addr n : Nat) (prog : Bool) (old : Memory) (cuts : Tbl Nat)
deriving DecidableEq, Repr

/-- What the end of a flash operation does: the reply of the management pair (21 R449), the completion of a command, CALIB_WRITTEN (18 R402, R410). -/
inductive FlashEnd where
  | reply (bytes : List Nat)
  | answer (ref : CmdRef)
  | written (target crc : Nat)
deriving DecidableEq, Repr

/-- A flash operation, the time by which it has ended (18 R395), and what its end does. -/
structure FlashOp where
  till : Nat
  work : FlashWork
  ends : List FlashEnd := []
deriving DecidableEq, Repr

/-- A flash command of the management pair that waits for PERST_N deassertion (21 R449, 19 R417). -/
inductive FlashCmd where
  | read (addr len : Nat)
  | erase (addr : Nat) (ok : Bool)
  | program (addr : Nat) (bytes : List Nat) (ok : Bool)
deriving DecidableEq, Repr

/-- A store bank (18 Table EVR-4) by its fields; the repair list holds (vault, channel, LANE1). -/
structure Bank where
  seq : Nat
  secs : Nat
  pcyc : Nat
  board : List Nat
  repair : List (Nat × Nat × Nat)
deriving DecidableEq, Repr

/-- A power gate (19 Table PWR-10): STATE 0 OFF, 1 POWERING_UP, 2 ON, 3 SHUTTING_DOWN. -/
structure Gate where
  en : Bool := false
  st : Nat := 0
  pend : Bool := false
  refused : Nat := 0
deriving DecidableEq, Repr

/-- A cupola's thermal state (19 R423, Table PWR-11), or the video island's; `run` is the level in force, `held` the ms since
TL last changed. -/
structure Therm where
  tl : Nat := 0
  held : Nat := 0
  tDie : Int := 0
  tDram : Int := 0
  throtMs : Nat := 0
  run : Nat := 0
  pend : Option Nat := none
  lastRec : Option Nat := none
deriving DecidableEq, Repr

/-- The power block beside the gates (19 Tables PWR-8, PWR-9, R424); the core rail's setpoint and the setpoints written over AVSBus in their
order (21 R451). -/
structure Power where
  plimit : Nat := 1600
  shutdown : Bool := false
  quiesced : Bool := false
  closing : Option Nat := none
  ioOut : Bool := false
  alert : Nat := 0
  clampUs : Nat := 0
  clamp : Bool := false
  devLevel : Nat := 0
  devHeld : Nat := 0
  ests : List Nat := []
  pkgW : Nat := 0
  vddMv : Nat := 750
  avs : List Nat := []
  lastRec : Option Nat := none
  cupOut : List Nat := []
  uncoreOut : List Nat := []
  videoOut : Bool := false
deriving DecidableEq, Repr

/-- Fuses and board facts (00 R4, R8; 17 Table SEC-1; 10 R245; log 2). The host's setting of the resizable BAR4 is 2^`bar4Log` GiB. `worn`
lists the 64 KiB sectors of the flash in which an erase (0) or a program (1) fails every time (18 R404). -/
structure Fuses where
  gradeB : Bool := false
  stepB1 : Bool := true
  disabled : List Nat := (List.range 16).map fun i => (16 + i) * 8 + 7
  uid : Nat := 0
  uds : List Nat := List.replicate 32 0
  fwkeyHash : List Nat := List.replicate 64 0
  rollback : Nat := 0
  debugLock : Bool := true
  romVersion : Nat := 1
  far : List (Option Nat) := List.replicate 16 (some 1)
  bar4Log : Nat := 0
  worn : Tbl Nat := []
deriving DecidableEq, Repr

/-- Boot stages: no power, ROM, recovery, firmware, firmware between a device fault and its warm reset (19 R430), stopped after a trip. -/
inductive Stage where
  | off | rom | recovery | firmware | fault | stopped
deriving DecidableEq, Repr

/-- Pins and boot state: `coldDue` until firmware has run since a cold reset, `cal` the calibration set in effect, `cert` the
alias certificate, `calNew` whether CALIB_WRITE has stored a set since the last cold boot, `recur` whether a device fault recurred, `mgmt` what the management
pair returns next, `mgmtQ` its flash commands that wait, `uart` the progress codes emitted since the reset (19 R416, R417, R430, R432; 17 R379 to R383; 20 Tables REG-4, REG-6; 21 R447, R449). -/
structure Boot where
  stage : Stage := .off
  pwrgd : Bool := false
  perstN : Bool := false
  strap : Nat := 0
  faultN : Bool := true
  thermtripN : Bool := true
  slot : Nat := 0
  svn : Nat := 0
  version : Nat := 0
  body : List Nat := []
  aliasKey : List Nat := []
  aliasPub : List Nat := []
  udsLocked : Bool := false
  linkUp : Bool := false
  trained : Bool := false
  admitReady : Bool := false
  warm : Bool := false
  storeBank : Nat := 0
  calUser : Bool := false
  calValid : Bool := false
  resetAt : Nat := 0
  lastFault : Option Nat := none
  wdogAt : Option Nat := none
  recImg : Memory := []
  farBoot : Nat := 0
  jtagIr : Nat := 0
  jtagDr : Nat := 0
  jtagTdo : Nat := 0
  jtagOn : Bool := false
  opBase : Nat := 0
  opSince : Nat := 0
  pcyc : Nat := 0
  seq : Nat := 0
  storeSec : Option Nat := none
  board : List Nat := List.replicate 4 3 ++ List.replicate 60 0
  repair : List (Nat × Nat × Nat) := []
  storeDue : Bool := false
  draws : Nat := 0
  coldDue : Bool := true
  cal : Option (List Nat) := none
  cert : List Nat := []
  calNew : Bool := false
  recur : Bool := false
  mgmt : List Nat := []
  mgmtQ : List FlashCmd := []
  uart : List Byte := []
deriving DecidableEq, Repr

/-- The MARGIN in progress (10 R251, R252): command, buffer, parameter block, start (µs), temperature and band at the start. -/
structure MarginRun where
  ref : CmdRef
  buf : Nat
  par : Nat
  start : Nat
  temp : Nat
  hot : Bool
deriving DecidableEq, Repr

/-- Global registers (20 Table REG-6) and the MARGIN in progress (10 R251). -/
structure Glb where
  badAccess : Nat := 0
  scratch : Nat := 0
  margin : Option MarginRun := none
deriving DecidableEq, Repr

end Sys2Proof.Machine
end

