-- ==== Sys2Proof/Machine/State.lean ====
section
/-! DEFINITION. The state of the block, its faults and refusals, and reset. Everything is plain data; a table lists only the
units that have left their reset values. -/
namespace Sys2Proof.Machine

/-- What stops the machine. -/
inductive Fault where
  /-- An access to a reserved range of device physical addresses (09 R214). Raised by FAR_ACCESS_TIMEOUT, FAR_WRITE_LOST and
  HOST_COMPLETION_TIMEOUT, which name the address of an access that failed; safe. -/
  | reservedAddress
deriving DecidableEq, Repr

/-- Why a command has no meaning in a state. -/
inductive Refusal where
  /-- The command is not modelled. Raised by Dispatch alone; safe. -/
  | notModelled (mnemonic : String)
  /-- An operand is outside the range the spec gives the unit, or the word is no word of this command. Raised by every meaning; safe. -/
  | illFormed
  /-- The spire's program counter does not stand at this word (04 R93). Raised by the tile commands; safe. -/
  | notFetched
  /-- The hazard rules hold the instruction (03 R84), or the spire issues nothing now. Raised by the tile commands; safe. -/
  | notIssuable
  /-- The event's own condition does not hold in this state (log 4). Raised by timers, completions and frames; safe. -/
  | notEnabled
  /-- The device has no power, is in the boot ROM, in recovery or stopped, and takes no such command. Raised by all others; safe. -/
  | notRunning
deriving DecidableEq, Repr

/-- The state of the block. -/
structure State where
  pending : List Instr := []
  now : Nat := 0
  freeCtr : Nat := 0
  ids : Nat := 0
  fuse : Fuses := {}
  boot : Boot := {}
  glb : Glb := {}
  hmem : Memory := []
  msixOut : List MsixMsg := []
  fabOut : List OutFr := []
  fetched : List Fetched := []
  fns : Tbl Fn := []
  images : Tbl Image := []
  imgSeq : Nat := 1
  wins : Tbl Win := []
  models : Tbl Model := []
  hotSeq : Nat := 0
  pool : Tbl PUnit := []
  poolSeq : Nat := 0
  jobs : Tbl Job := []
  jobSeq : Nat := 1
  jobRegs : Tbl Nat := []
  groups : Tbl CoGrp := []
  quantum : Nat := 100
  spires : Tbl Spire := []
  mem : Store := {}
  far : Store := {}
  farEpoch : Tbl Nat := []
  farKeys : Tbl Nat := []
  farTags : Tbl Nat := []
  writes : List PWr := []
  sigs : List Sig := []
  csem : Tbl Nat := []
  dsPart : Tbl Nat := []
  slices : Tbl Slice := []
  vchans : Tbl VChan := []
  layers : Tbl Layer := []
  vaults : Tbl Vault := []
  wbulk : List WBulk := []
  ueFence : Nat := 4
  fchans : Tbl FChan := []
  farFenced : Bool := false
  arbs : Tbl Arb := []
  netMode : Nat := 1
  ports : Tbl Port := []
  etherType : Nat := 0x88B5
  vlanEn : Bool := false
  vlanId : Nat := 0
  landings : List Landing := []
  video : Video := {}
  evr : Evr := {}
  bar4Rd : List Nat := []
  bankA : Option (List Nat) := none
  bankB : Option (List Nat) := none
  lastBank : Nat := 1
  calib : Option (List Nat) := none
  flash : Memory := []
  flashOps : List FlashOp := []
  flashCuts : Tbl Nat := []
  gates : Tbl Gate := []
  therms : Tbl Therm := []
  power : Power := {}
deriving DecidableEq, Repr

/-- The device before its first power-up edge: every register at its reset value, or at the value a log entry names. -/
def State.reset : State := {}

end Sys2Proof.Machine
end

