-- ==== Sys2Proof/Machine/Ops.lean ====
section
/-! DEFINITION. Named operations over State: memory and addresses (09), the event recorder (18), completions, messages and
asynchronous events (16). -/
namespace Sys2Proof.Machine

/-- An outcome of the block. -/
abbrev Out := Host.Outcome State Fault Refusal

/-- The next state under a condition, else a refusal. -/
def guardNext (c : Bool) (r : Refusal) (s : State) : Out := if c then .next s else .refused r

/-! Memory as a list of cells. -/

/-- The byte listed at an address. -/
def cellAt (m : Memory) (a : Nat) : Option Byte := tfind m a

/-- The canonical form: addresses strictly rising, no entry equal to what an unlisted address reads as. -/
def Memory.wf (dflt : Nat → Option Byte) (m : Memory) : Bool :=
  decide (m.Pairwise fun a b => a.1 < b.1) && m.all fun c => dflt c.1 != some c.2

/-- The cells of a run of bytes. -/
def runCells (a : Nat) (bs : List Nat) : Memory := bs.mapIdx fun i b => (a + i, BitVec.ofNat 8 b)

/-- Memory with a run of bytes written; an entry equal to the default is not listed. -/
def Memory.put (dflt : Nat → Option Byte) (m : Memory) (a : Nat) (bs : List Nat) : Memory :=
  (m.filter fun c => c.1 < a) ++ ((runCells a bs).filter fun c => dflt c.1 != some c.2)
    ++ m.filter fun c => a + bs.length ≤ c.1

/-- Memory with a range no longer listed. -/
def Memory.drop (m : Memory) (a n : Nat) : Memory := m.filter fun c => c.1 < a || a + n ≤ c.1

/-- Does a range (start, length, region) hold an address? -/
def inRange (r : Nat × Nat × Nat) (a : Nat) : Bool := r.1 ≤ a && a < r.1 + r.2.1

/-- What an unlisted address of a store reads as, where it is no free value: 0 (09 R225, 03 R85). -/
def Store.dflt (st : Store) (a : Nat) : Option Byte :=
  match st.free.find? fun r => inRange r a with
  | some (_, _, 0) => some 0
  | some _ => none
  | none => some 0

/-- What an unlisted address of far memory reads as, where it is no free value: 0 in a range filled with zeros (09 R227). -/
def Store.farDflt (st : Store) (a : Nat) : Option Byte :=
  match st.free.find? fun r => inRange r a with
  | some (_, _, 0) => some 0
  | _ => none

/-- A byte of a store. -/
def Store.get (st : Store) (a : Nat) : Byte :=
  match cellAt st.cells a with
  | some b => b
  | none =>
    match st.free.find? fun r => inRange r a with
    | some (_, _, 0) => 0
    | some (_, _, id) => Config.freeByte id a
    | none => 0

/-- A store with bytes written. -/
def Store.put (st : Store) (a : Nat) (bs : List Nat) : Store := { st with cells := Memory.put st.dflt st.cells a bs }

/-- Far memory with bytes written. -/
def Store.farPut (st : Store) (a : Nat) (bs : List Nat) : Store := { st with cells := Memory.put st.farDflt st.cells a bs }

/-- A store whose range holds free values of region `id`, or zeros for id 0. -/
def Store.mark (st : Store) (a n id : Nat) : Store :=
  let fr := st.free.filter fun r => !(a ≤ r.1 && r.1 + r.2.1 ≤ a + n)
  { cells := Memory.drop st.cells a n
    free := if id = 0 && fr.all (fun r => r.1 + r.2.1 ≤ a || a + n ≤ r.1) then fr else (a, n, id) :: fr }

/-- Far memory whose range holds free values of region `id`, or zeros for id 0 (09 R227). -/
def Store.farMark (st : Store) (a n id : Nat) : Store :=
  { cells := Memory.drop st.cells a n, free := (a, n, id) :: st.free.filter fun r => !(a ≤ r.1 && r.1 + r.2.1 ≤ a + n) }

/-- The canonical form of a store. -/
def Store.wf (st : Store) : Bool := Memory.wf st.dflt st.cells

/-- The canonical form of far memory. -/
def Store.farWf (st : Store) : Bool := Memory.wf st.farDflt st.cells

/-! Units with their reset values. -/

/-- The state of physical spire `p`. -/
def spOf (s : State) (p : Nat) : Spire := tget {} s.spires p
/-- Spire `p` replaced. -/
def setSp (s : State) (p : Nat) (x : Spire) : State := { s with spires := tset s.spires p x }
/-- Spire `p` changed by a function. -/
def modSp (s : State) (p : Nat) (f : Spire → Spire) : State := setSp s p (f (spOf s p))

/-- A function's reset block: the PF is enabled and has all queue pairs (16 Table HST-3, R361); a VF's vectors, which no register
reaches, are not masked (log 30). -/
def fnReset (f : Nat) : Fn := if f = 0 then { enabled := true, allot := 1024 } else { openv := List.range 64 }
/-- The state of host function `f`. -/
def fnOf (s : State) (f : Nat) : Fn := tget (fnReset f) s.fns f
/-- Function `f` replaced. -/
def setFn (s : State) (f : Nat) (x : Fn) : State := { s with fns := tset s.fns f x }
/-- Function `f` changed by a function. -/
def modFn (s : State) (f : Nat) (g : Fn → Fn) : State := setFn s f (g (fnOf s f))

/-- The job of a slot. -/
def jobOf (s : State) (j : Nat) : Option Job := tfind s.jobs j
/-- The job of a slot replaced. -/
def setJob (s : State) (j : Nat) (x : Job) : State := { s with jobs := tset s.jobs j x }
/-- The job of a slot changed, where there is one. -/
def modJob (s : State) (j : Nat) (f : Job → Job) : State :=
  match jobOf s j with
  | some x => setJob s j (f x)
  | none => s
/-- The next handle of `bits` bits: from `seq` on, the first that is neither 0 nor in use (log 16). -/
def nextHandle (bits seq : Nat) (used : List Nat) : Nat :=
  (((List.range (used.length + 2)).map fun i => (seq + i) % 2 ^ bits).find? fun h => h != 0 && !used.contains h).getD 0
/-- The handle of the job in a slot, 0 where there is none. -/
def jobHandle (s : State) (j : Nat) : Nat := ((jobOf s j).map (·.handle)).getD 0
/-- The slot that a handle names, if its job exists. -/
def slotOf (s : State) (h : Nat) : Option Nat := if h = 0 then none else (s.jobs.find? fun x => x.2.handle = h).map (·.1)

/-- The gate `n` (19 R436: fabric ports reset to their EN). -/
def gateReset (n : Nat) : Gate := if 36 ≤ n && n < 40 then { en := true, st := 2 } else {}
/-- The state of gate `n`. -/
def gateOf (s : State) (n : Nat) : Gate := tget (gateReset n) s.gates n
/-- The state of a fabric port. -/
def portOf (s : State) (p : Nat) : Port := tget {} s.ports p
/-- A fabric port changed. -/
def modPort (s : State) (p : Nat) (f : Port → Port) : State := { s with ports := tset s.ports p (f (portOf s p)) }
/-- The state of a vault channel. -/
def vchOf (s : State) (v c : Nat) : VChan := tget {} s.vchans (v * 64 + c)
/-- A vault channel changed. -/
def modVch (s : State) (v c : Nat) (f : VChan → VChan) : State :=
  { s with vchans := tset s.vchans (v * 64 + c) (f (vchOf s v c)) }
/-- The state of a far-memory channel. -/
def fchOf (s : State) (c : Nat) : FChan := tget {} s.fchans c
/-- Cycles of an arbiter's island in a microsecond: the lantern's for a mailbox, a cupola uncore's at its nominal clock. -/
def arbMhz (a : Nat) : Nat := if a < 2400 then 2100 else 1600
/-- An instance that nothing has touched since reset: its windows of 2^16 cycles follow one another from the reset on (11 R271). -/
def arbFresh (s : State) (a : Nat) : Arb := { cyc := (s.now - s.boot.resetAt) * arbMhz a % 65536 }
/-- The state of an arbiter instance. -/
def arbOf (s : State) (a : Nat) : Arb := tget (arbFresh s a) s.arbs a
/-- A cupola's thermal state; 32 is the video island. -/
def thermOf (s : State) (c : Nat) : Therm := tget {} s.therms c

/-- A fresh identifier. -/
def freshId (s : State) : Nat × State := (s.ids + 1, { s with ids := s.ids + 1 })
/-- A fresh free value of `n` bits (log 11). -/
def freshVal (s : State) (n : Nat) : Nat × State :=
  (Config.freeNat s.freeCtr % 2 ^ n, { s with freeCtr := s.freeCtr + 1 })

/-- The 1 s window of the lantern island that holds now, counted from the reset that starts its counters (11 R271). -/
def secWindow (s : State) : Nat := (s.now - s.boot.resetAt) / 1000000

/-- The size of the PF's BAR4: a power of two from 1 to 128 GiB (16 Table HST-2). -/
def bar4Size (s : State) : Nat := 2 ^ (30 + min 7 s.fuse.bar4Log)

/-- Lantern cycles (13 R286; 1.6 GHz). -/
def cycNow (s : State) : Nat := s.now * 1600

/-- Does firmware run (19 R417)? -/
def fwUp (s : State) : Bool := s.boot.stage == .firmware

/-! Enabled spires, vaults and cupolas in service. -/

/-- SPIRE_ID.ENABLED (03 Table SPI-7). -/
def spEnabled (s : State) (p : Nat) : Bool := p < 256 && !s.fuse.disabled.contains p
/-- Do the islands other than the lantern run: not without power, nor after a trip (19 R426)? -/
def clocksOn (s : State) : Bool := s.boot.pwrgd && s.boot.stage != .stopped
/-- Do the spires of a cupola run: firmware runs, and their gate is ON (19 R419, R426)? -/
def cupClk (s : State) (c : Nat) : Bool := fwUp s && (gateOf s c).st == 2
/-- Does a spire's clock run? -/
def spClk (s : State) (p : Nat) : Bool := cupClk s (p / 8)
/-- The uncore of a cupola has lost lock: its register blocks read zero and discard writes (20 R440). -/
def uncoreOut (s : State) (c : Nat) : Bool := s.power.uncoreOut.contains c
/-- The enabled physical spires of a cupola, by position (01 R24). -/
def enabledIn (s : State) (c : Nat) : List Nat := ((List.range 8).map fun m => c * 8 + m).filter (spEnabled s)
/-- The enabled-spire count of the part. -/
def enspCount (s : State) : Nat := ((List.range 256).filter (spEnabled s)).length
/-- Disabled channels of a vault (10 R239). -/
def vaultK (s : State) (v : Nat) : Nat := ((List.range 64).filter fun c => (vchOf s v c).dis).length
/-- A vault in service (10 R239). -/
def vaultUp (s : State) (v : Nat) : Bool := s.boot.trained && vaultK s v ≤ 8
/-- A cupola in service and placeable (01 R24, 19 Table PWR-3). -/
def cupUp (s : State) (c : Nat) : Bool := vaultUp s c && !s.power.cupOut.contains c
/-- Is page q of vault v in service and outside the system area (10 R239; 09 R214)? -/
def pageUp (s : State) (v q : Nat) : Bool := vaultUp s v && 32 * vaultK s v ≤ q && q < 2032
/-- The interleave set: its base and size (09 R218). -/
def ilvSet (s : State) : Option (Nat × Nat) :=
  let up := fun lo n => (List.range n).all fun i => vaultUp s (lo + i)
  if up 0 32 then some (0, 32) else if up 0 16 then some (0, 16) else if up 16 16 then some (16, 16) else none
/-- Is a vault in the interleave set? -/
def inIlv (s : State) (v : Nat) : Bool := (ilvSet s).any fun b => b.1 ≤ v && v < b.1 + b.2

/-- Does frame q exist (09 R217, R218)? -/
def frameUp (s : State) (q : Nat) : Bool :=
  match ilvSet s with
  | some (b, n) => (List.range n).all fun i => pageUp s (b + i) q
  | none => false
/-- Far-memory channels in service, ascending (10 R246). -/
def farUp (s : State) : List Nat := (List.range 64).filter fun c => (fchOf s c).st == 2 || (fchOf s c).st == 4
/-- The smallest density among the packages in use, a channel fenced at boot included, in GiB per package (10 R246). -/
def farGib (s : State) : Nat :=
  (((List.range 64).filter fun c => 2 ≤ (fchOf s c).st).map fun c => 16 * 2 ^ (fchOf s c).density).foldl min 64
/-- Populated far memory in bytes (10 R246). -/
def farSize (s : State) : Nat := (farUp s).length * farGib s * 2 ^ 30 / 4
/-- The channel that a far-memory address lies on (10 R246). -/
def farChan (s : State) (pa : Nat) : Nat :=
  let l := (pa - 0x010000000000) / 256
  let n := (farUp s).length
  if n = 0 then 64 else (farUp s).getD ((l + l / n) % n) 64

/-! Device physical addresses (09 R214, R215). -/

/-- What a device physical address names. -/
inductive PaKind where
  | vault | dome | far | window | reserved
deriving DecidableEq, Repr

/-- Table MEM-2. -/
def paKind (pa : Nat) : PaKind :=
  if pa < 0x002000000000 then .vault
  else if 0x004000000000 ≤ pa && pa < 0x004010000000 then .dome
  else if 0x010000000000 ≤ pa && pa < 0x020000000000 then .far
  else if 0x100000000000 ≤ pa && pa < 0x1000000000000 then .window
  else .reserved

/-- The home slice of an address (R215); none for a host window or a reserved range. -/
def homeSlice (pa : Nat) : Option Nat :=
  match paKind pa with
  | .vault => some (pa / 2 ^ 32)
  | .dome => some ((pa / 2 ^ 23) % 32)
  | .far => some (((pa - 0x010000000000) / 4096) % 32)
  | _ => none

/-- Channel, bank, row and column of a vault address before steering and replacement (10 R235). -/
def vaultChan (pa : Nat) : Nat := (fld pa 13 8) ^^^ (fld pa 27 22)

/-- The disabled channels of a vault, and those in service, ascending (10 R240). -/
def disabledCh (s : State) (v : Nat) : List Nat := (List.range 64).filter fun c => (vchOf s v c).dis
/-- The channels of a vault in service. -/
def liveCh (s : State) (v : Nat) : List Nat := (List.range 64).filter fun c => !(vchOf s v c).dis

/-- Channel, row, bank and column that carry a vault offset (10 R235, R240). -/
def vaultPhys (s : State) (v off : Nat) : Nat × Nat × Nat × Nat :=
  let c := vaultChan off
  let row := fld off 31 22
  let bank := (fld off 21 17) ^^^ (fld off 31 27)
  let col := fld off 16 14
  let k := vaultK s v
  if !(vchOf s v c).dis || row < 16 * k then (c, row, bank, col)
  else
    let i := (disabledCh s v).idxOf c
    let n := ((i * (1024 - 16 * k) + (row - 16 * k)) * 32 + bank) * 8 + col
    let sl := n / (64 - k)
    ((liveCh s v).getD (n % (64 - k)) 0, sl / 256, (sl / 8) % 32, sl % 8)

/-- A written run of bytes enters the write queues of its vault channels, line by line (10 R243). -/
def queueLines (s : State) (pa n : Nat) : State :=
  (List.range ((pa + n + 255) / 256 - pa / 256)).foldl (fun s i =>
    let l := pa / 256 + i
    modVch s (l / 2 ^ 24) (vaultPhys s (l / 2 ^ 24) (l % 2 ^ 24 * 256)).1 fun x =>
      { x with wq := x.wq ++ [l], wqSince := if x.wq.isEmpty then s.now else x.wqSince }) s

/-- The device address of scratch page `p` of slice `sl`. -/
def scratchPa (sl p : Nat) : Nat := 0x004000000000 + sl * 2 ^ 23 + p * 2 ^ 21

/-- A vault page by its number v × 2,048 + q. -/
def vaultPa (n : Nat) : Nat := n / 2048 * 2 ^ 32 + n % 2048 * 2 ^ 21

/-- The address of a byte of an interleaved page in slot j of frame q (09 R217, R218). -/
def ilvPa (b n j q o : Nat) : Nat :=
  let g := o / 4096
  (b + (g + j) % n) * 2 ^ 32 + q * 2 ^ 21 + (512 / n * j + g / n) * 4096 + o % 4096

/-- The physical address a page-table entry gives an offset (09 Table MEM-3). -/
def ptePa (s : State) (e : Pte) (o : Nat) : Nat :=
  if e.ilv then
    match ilvSet s with
    | some (b, n) => ilvPa b n e.slot e.pfn o
    | none => 0x002000000000
  else e.pfn * 2 ^ 21 + o

/-- Where the bytes of a physical address of a job lie: a yieldable scratch page that another job holds is away, in its backing page
(13 R287, R294). -/
def placePa (j : Job) (pa : Nat) : Nat :=
  let n := (pa - 0x004000000000) / 2 ^ 21
  if j.away.contains n && 0x004000000000 ≤ pa then vaultPa (nth j.backs (j.dsp.idxOf n)) + pa % 2 ^ 21 else pa

/-- The entry of a page as its 64 bits (09 Table MEM-3). -/
def pteBits (e : Pte) : Nat :=
  2 ^ 63 + e.tier * 2 ^ 60 + b2n e.ilv * 2 ^ 59 + b2n e.shr * 2 ^ 58 + b2n e.wp * 2 ^ 57 + e.slot * 2 ^ 48 + e.pfn * 2 ^ 21

/-- A page-table entry from its 64 bits; none where V is 0 (09 Table MEM-3). -/
def pteDec (w : Nat) : Option Pte :=
  if bitOf w 63 then
    some { tier := fld w 62 60, ilv := bitOf w 59, shr := bitOf w 58, wp := bitOf w 57, slot := fld w 52 48, pfn := fld w 47 21 }
  else none

/-- The directory indices under which a page of a job translates: each has a leaf table. -/
def leafIdx (j : Job) : List Nat := (j.pt.map fun e => e.1 / 8192).eraseDups

/-- The place of a job's directory, in the system area of the vault of logical cupola 0 (09 R214, R216): a quarter of it, which its admission chose
(log 50). Its leaf tables follow. -/
def ptBase (j : Job) : Nat := nth j.cups 0 * 2 ^ 32 + 2032 * 2 ^ 21 + j.tableAt % 4 * 2 ^ 23

/-- Entry `i` of a job's directory (09 R216): valid where a page below it translates, with the address of its leaf table. -/
def dirEntry (j : Job) (i : Nat) : Nat :=
  if (leafIdx j).contains i then 2 ^ 63 + (ptBase j + 131072 + (leafIdx j).idxOf i * 65536) else 0

/-- Entry `k` of the leaf table under directory index `i`. -/
def leafEntry (j : Job) (i k : Nat) : Nat := ((tfind j.pt (i * 8192 + k)).map pteBits).getD 0

/-- The 8-byte word of a job's page table at an address: what those words of the system area hold follows from the pages that the job's table
lists (09 R216). -/
def ptWord (j : Job) (pa : Nat) : Nat :=
  let o := pa - ptBase j
  if o < 131072 then dirEntry j (o / 8)
  else leafEntry j ((leafIdx j).getD ((o - 131072) / 65536) 16384) (o % 65536 / 8)

/-- The walk of a job's two-level table (09 R216): the directory's word, then the word of the leaf table that it names. -/
def ptWalk (j : Job) (va : Nat) : Option Pte :=
  let d := ptWord j (ptBase j + 8 * fld va 47 34)
  if bitOf d 63 then pteDec (ptWord j (fld d 47 16 * 65536 + 8 * fld va 33 21)) else none

/-- Translation of a job virtual address (09 R216, R219): an address has 48 bits. -/
def xlate (s : State) (j : Job) (va : Nat) : Option (Pte × Nat) :=
  if va < 2 ^ 48 then (ptWalk j va).map fun e => (e, placePa j (ptePa s e (va % 2 ^ 21))) else none

/-! Host memory and host windows (16 R371; 17 R391, R392). -/

/-- A byte of host memory. -/
def hostByte (s : State) (a : Nat) : Nat := ((cellAt s.hmem a).getD 0).toNat
/-- Bytes of host memory. -/
def hostRead (s : State) (a n : Nat) : List Nat := rdBytes (hostByte s) a n
/-- Host memory with bytes written. -/
def hostPut (s : State) (a : Nat) (bs : List Nat) : State := { s with hmem := Memory.put (fun _ => some 0) s.hmem a bs }

/-- Big-endian bytes of a number. -/
def beBytes (n v : Nat) : List Nat := (leBytes n v).reverse

/-- Associated data of a protected unit (17 R391). -/
def gcmAad (off h : Nat) : List Nat := leBytes 8 off ++ leBytes 2 h ++ List.replicate 6 0

/-- The plaintext of unit k of a protected range of `len` bytes at `base`; nothing when its record does not verify or its tag and IV are zero,
zeros when `zeroOk` and the record is all zero (17 R392). -/
def gcmUnit (s : State) (key : List Nat) (h base len k : Nat) (zeroOk : Bool) : Option (List Nat) :=
  let r := hostRead s (base + len + 32 * k) 32
  if zeroOk && r.all (· == 0) then some (List.replicate 4096 0)
  else if (r.take 28).all (· == 0) then none
  else Config.gcmOpen key ((r.drop 16).take 12) (gcmAad (4096 * k) h) (hostRead s (base + 4096 * k) 4096) (r.take 16)

/-- A protected range with unit k encrypted anew (17 R391): the next IV of the job's counter. -/
def gcmPut (s : State) (j : Nat) (key : List Nat) (ctr base len k : Nat) (plain : List Nat) : State :=
  let iv := beBytes 8 ctr ++ [0, 0, 0, 0]
  let ct := Config.gcmSeal key iv (gcmAad (4096 * k) (jobHandle s j)) plain
  hostPut (hostPut s (base + 4096 * k) ct.1) (base + len + 32 * k) (ct.2 ++ iv ++ [0, 0, 0, 0])

/-- Bytes merged into a unit at an offset. -/
def mergeAt (u : List Nat) (off : Nat) (bs : List Nat) : List Nat := u.take off ++ bs ++ u.drop (off + bs.length)

/-- A write into a protected range, all of it within one unit (17 R392); nothing when a unit it covers in part fails. -/
def gcmWrite (s : State) (j base len off : Nat) (bs : List Nat) : Option State :=
  match jobOf s j with
  | none => none
  | some x =>
    let k := off / 4096
    let u := if bs.length = 4096 then some bs
      else (gcmUnit s x.kt (jobHandle s j) base len k true).map fun u => mergeAt u (off % 4096) bs
    u.map fun p => modJob (gcmPut s j x.kt x.gcmCtr base len k p) j fun x => { x with gcmCtr := x.gcmCtr + 1 }

/-- The window of a window address: its index and the offset within it. -/
def winIdx (pa : Nat) : Nat × Nat := ((pa - 0x100000000000) / 2 ^ 36, (pa - 0x100000000000) % 2 ^ 36)

/-- A byte at a device physical address; windows are read through their host range. -/
def paByte (s : State) (pa : Nat) : Nat :=
  match paKind pa with
  | .vault | .dome => (s.mem.get pa).toNat
  | .far =>
    match cellAt s.far.cells pa with
    | some b => b.toNat
    | none =>
      match s.far.free.find? fun r => inRange r pa with
      | some (_, _, 0) => 0
      | some (_, _, id) => (Config.freeByte id pa).toNat
      | none => (Config.farByte (s.boot.farBoot * 2 ^ 32 + tget 0 s.farEpoch (pa / 2 ^ 21)) pa).toNat
  | .window =>
    match tfind s.wins (winIdx pa).1 with
    | some w =>
      let off := (winIdx pa).2
      if w.gcm then
        match jobOf s w.job with
        | some x =>
          ((gcmUnit s x.kt (jobHandle s w.job) w.base (w.pages * 2 ^ 21) (off / 4096) false).getD []).getD (off % 4096) 0
        | none => 0
      else hostByte s (w.base + off)
    | none => 0
  | .reserved => 0

/-- Bytes written at a device physical address, within 4 KiB: a line (11 R256), or up to a unit of a protected window (17 R392). -/
def paPut (s : State) (pa : Nat) (bs : List Nat) : State :=
  match paKind pa with
  | .vault => queueLines { s with mem := s.mem.put pa bs } pa bs.length
  | .dome => { s with mem := s.mem.put pa bs }
  | .far => { s with far := s.far.farPut pa bs }
  | .window =>
    match tfind s.wins (winIdx pa).1 with
    | some w =>
      let off := (winIdx pa).2
      if w.gcm then (gcmWrite s w.job w.base (w.pages * 2 ^ 21) off bs).getD s else hostPut s (w.base + off) bs
    | none => s
  | .reserved => s

/-- The vault's write queues with lines that one operation writes at once (10 R243). -/
def bulkAdd (s : State) (pa n : Nat) : List WBulk :=
  if paKind pa = .vault && 0 < n then s.wbulk ++ [{ line := pa / 256, n := (pa + n + 255) / 256 - pa / 256, since := s.now }] else s.wbulk

/-- Zeros over a range of vault or dome-store addresses. -/
def zeroMem (s : State) (pa n : Nat) : State := { s with mem := s.mem.mark pa n 0, wbulk := bulkAdd s pa n }

/-- A range of device memory left undefined by the spec: free values of a fresh region (log 11). -/
def freeMem (s : State) (pa n : Nat) : State :=
  let i := freshId s
  match paKind pa with
  | .far => { i.2 with far := i.2.far.farMark pa n i.1 }
  | .window | .reserved => s
  | _ => { i.2 with mem := i.2.mem.mark pa n i.1 }

/-- The key slot of the far-memory pages that no job holds: K_B (17 R390). Slot j below 64 is that of job slot j. -/
def bootKeySlot : Nat := 64

/-- A far-memory page passes to an owner, whose key slot becomes its tag; it reads as ciphertext under the new key: undefined (17 R390; log 10). -/
def farNewOwner (tag : Nat) (s : State) (page : Nat) : State :=
  { s with
    farTags := tset s.farTags page tag
    far := { cells := Memory.drop s.far.cells (page * 2 ^ 21) (2 ^ 21)
             free := s.far.free.filter fun r => !(page * 2 ^ 21 ≤ r.1 && r.1 + r.2.1 ≤ page * 2 ^ 21 + 2 ^ 21) }
    farEpoch := tset s.farEpoch page (tget 0 s.farEpoch page + 1) }

/-- The key of a far-memory page, by its owner tag: 512 bits drawn for its slot (17 R390). -/
def farKey (s : State) (page : Nat) : List Nat := Config.entropy (tget 0 s.farKeys (tget bootKeySlot s.farTags page)) 64

/-- A line of far memory as its package stores it: 256 B under AES-256-XTS, its tweak counted in lines (17 R390). -/
def farStored (s : State) (pa : Nat) : List Nat :=
  Config.aesXts (farKey s (pa / 2 ^ 21)) (pa / 256 - 0x010000000000 / 256) ((List.range 256).map fun i => paByte s (pa / 256 * 256 + i))

/-- A byte of a job's virtual memory as a spire reads it; 0 where nothing translates (the access checks come first). -/
def vaByte (s : State) (j : Job) (va : Nat) : Nat :=
  match xlate s j va with
  | some (_, pa) => paByte s pa
  | none => 0

/-- The byte reader of an instruction on physical spire p: space 0 its scratchpad, 1 the job's virtual memory. -/
def rdOf (s : State) (p : Nat) (j : Job) (space a : Nat) : Nat :=
  if space = 0 then ((spOf s p).sp.get a).toNat else vaByte s j a

/-- A run of bytes cut at multiples of `n`: pairs of address and bytes. Fuel bounds the pieces. -/
def cutAt (n : Nat) : Nat → Nat → List Nat → List (Nat × List Nat)
  | 0, _, _ => []
  | fuel + 1, a, bs =>
    if bs.isEmpty then [] else
      let k := n - a % n
      (a, bs.take k) :: cutAt n fuel (a + k) (bs.drop k)

/-- A run of bytes in lines of 256 B (11 R256). -/
def lines (a : Nat) (bs : List Nat) : List (Nat × List Nat) := cutAt 256 (bs.length + 1) a bs

/-- A run of bytes in units of 4 KiB, the granule of an interleaved page and of a protected window (09 R217, 17 R391). -/
def units (a : Nat) (bs : List Nat) : List (Nat × List Nat) := cutAt 4096 (bs.length + 1) a bs

/-- Bytes written to a job's virtual memory at once, by an agent other than a spire (11 R261). -/
def vaPut (s : State) (j va : Nat) (bs : List Nat) : State :=
  (units va bs).foldl (fun s l =>
    match jobOf s j with
    | some x =>
      match xlate s x l.1 with
      | some (_, pa) => paPut s pa l.2
      | none => s
    | none => s) s

/-- The address of a job that a device address is one of: a backing page stands for its scratch page while that is away. -/
def unplacePa (j : Job) (pa : Nat) : Nat :=
  match j.away.find? fun n => vaultPa (nth j.backs (j.dsp.idxOf n)) / 2 ^ 21 = pa / 2 ^ 21 with
  | some n => 0x004000000000 + n * 2 ^ 21 + pa % 2 ^ 21
  | none => pa

/-- Memory that a running request of a job writes, by the job's own addresses (`unplacePa`): where it ends without success, these bytes become undefined (07 R181). A host window keeps
what was written, and the request carries the mark of it. -/
def noteWrite (s : State) (j pa n : Nat) : State :=
  let host := paKind pa == .window
  modJob s j fun x =>
    match x.running with
    | some r => { x with dirty := if host then x.dirty else x.dirty ++ [(unplacePa x pa, n)], running := some { r with host := r.host || host } }
    | none => x

/-- Bytes written to a job's virtual memory at once for its running request, by an assist or a landing. -/
def vaPutReq (s : State) (j va : Nat) (bs : List Nat) : State :=
  (units va bs).foldl (fun s l =>
    match jobOf s j with
    | some x =>
      match xlate s x l.1 with
      | some (_, pa) => noteWrite (paPut s pa l.2) j pa l.2.length
      | none => s
    | none => s) s

/-- A counter of a job raised, saturating at its width (02 R67 and the counter tables). -/
def ctrAdd (x : Job) (c : Ctr) (n : Nat) : Job :=
  { x with ctrs := tmod 0 x.ctrs (ctrIdx c) fun v => satAdd (ctrWidth c) v n }

/-- The value of a job's counter. -/
def ctrGet (x : Job) (c : Ctr) : Nat := tget 0 x.ctrs (ctrIdx c)

/-! The event recorder (18 R397 to R404). -/

/-- Operating seconds (18 R408). -/
def opSecs (s : State) : Nat := if fwUp s || s.boot.stage == .fault then s.boot.opBase + (s.now - s.boot.opSince) / 1000000 else s.boot.opBase

/-- A record's key: power-cycle count, operating seconds, sub-second sequence (R397). -/
def recKey (r : Rec) : Nat := (r.pcyc * 2 ^ 40 + r.secs) * 2 ^ 8 + r.sub

/-- A record put into a list before the first of a key that is not below its own. -/
def recInsert (r : Rec) : List Rec → List Rec
  | [] => [r]
  | a :: t => if recKey r ≤ recKey a then r :: a :: t else a :: recInsert r t

/-- Records in ascending order of their keys. -/
def recSort (l : List Rec) : List Rec := l.foldr recInsert []

/-- The records of the flash ring that are in the log: valid ones that no removal has taken out (R398, R399). -/
def evrLive (e : Evr) : List Rec := (e.flash.filter fun x => !x.dead && x.cut.isNone).map (·.r)

/-- Is the RAM ring alone the log (R398)? -/
def ramOnly (e : Evr) : Bool := e.flashFail || e.absent

/-- The log in its order (R397, R398). -/
def evrLog (e : Evr) : List Rec := recSort (if ramOnly e then e.ram else evrLive e ++ e.ram)

/-- The log's capacity (R398). -/
def evrCap (e : Evr) : Nat := if ramOnly e then 4096 else 16384

/-- The victim for a record of severity `sev`: the oldest of the lowest severity present, none above it, no fatal (R399). -/
def evrVictim (l : List Rec) (sev : Nat) : Option Rec :=
  ((List.range (min sev 2 + 1)).filterMap fun v => l.find? fun r => r.sev == v).head?

/-- A record of the flash ring leaves the log; its slot waits for the compaction of its sector. -/
def markDead (v : Rec) : List FRec → List FRec
  | [] => []
  | x :: t => if x.r = v && !x.dead && x.cut.isNone then { x with dead := true } :: t else x :: markDead v t

/-- A record removed from the log. -/
def evrRemove (e : Evr) (v : Rec) : Evr :=
  if e.ram.contains v then { e with ram := e.ram.erase v } else { e with flash := markDead v e.flash }

/-- A record enters the log (R398, R399). With 4,096 records waiting in the RAM ring the victim is one of those (DESIGN CHOICE, log 55). -/
def evrEnter (e : Evr) (r : Rec) : Evr :=
  if (evrLog e).length < evrCap e && e.ram.length < 4096 then { e with ram := e.ram ++ [r] }
  else
    match evrVictim (if e.ram.length < 4096 then evrLog e else recSort e.ram) r.sev with
    | none => { e with full := satAdd 16 e.full 1 }
    | some v =>
      let e := evrRemove e v
      { e with ram := e.ram ++ [r] }

/-- The stamp of the next record: second and sub-second sequence, at most 256 in a second (R397). -/
def evrStamp (s : State) : Nat × Nat :=
  let t := opSecs s
  if s.evr.stampSec < t || (s.evr.stampSec = 0 && s.evr.stampSub = 0) then (t, 0)
  else if s.evr.stampSub ≤ 255 then (s.evr.stampSec, s.evr.stampSub)
  else (s.evr.stampSec + 1, 0)

/-- A stamped record. -/
def mkRec (s : State) (code sev src : Nat) (ps : List Nat) : Rec :=
  let t := evrStamp s
  { code := code, sev := sev, src := src, secs := t.1, pcyc := s.boot.pcyc, sub := t.2,
    ps := (List.range 4).map fun i => nth ps i % 2 ^ 32 }

/-- An event is recorded: it enters the log, or during a freeze the holding queue (R401). -/
def evrAdd (s : State) (code sev src : Nat) (ps : List Nat) : State :=
  let r := mkRec s code sev src ps
  let e := { s.evr with stampSec := r.secs, stampSub := r.sub + 1 }
  if e.frozen then
    if e.held.length < (if sev ≤ 1 then 56 else 64) then { s with evr := { e with held := e.held ++ [r] } }
    else { s with evr := { e with hold := satAdd 16 e.hold 1, holdErr := e.holdErr + b2n (2 ≤ sev) } }
  else { s with evr := evrEnter e r }

/-- The end of a freeze (R401). -/
def evrThaw (s : State) : State :=
  if !s.evr.frozen then s
  else
    let e := s.evr.held.foldl evrEnter { s.evr with frozen := false, held := [] }
    let s := { s with evr := { e with hold := 0, holdErr := 0 } }
    if e.hold = 0 then s else evrAdd s 0x0B11 1 0 [e.hold, e.holdErr]

/-! Completions, messages and asynchronous events (16 R363, R364, R367, R374). -/

/-- A completion entry's 256 bits (Table HST-6), the phase bit left to the ring. -/
def cqeBits (qp flags status sqHead cmd lateUs param result : Nat) : Nat :=
  qp * 2 ^ 245 + flags * 2 ^ 241 + status * 2 ^ 224 + sqHead * 2 ^ 208 + cmd * 2 ^ 192 + (lateUs % 2 ^ 32) * 2 ^ 160
    + (param % 2 ^ 32) * 2 ^ 128 + result % 2 ^ 128

/-- An MSI-X message of a vector, or its pending bit when it is masked (R367). -/
def msix (s : State) (f v : Nat) : State :=
  let x := fnOf s f
  let t := fun i => tget 0 x.msixT (4 * v + i)
  if x.openv.contains v then { s with msixOut := s.msixOut ++ [⟨f, v, t 0 + t 1 * 2 ^ 32, t 2⟩] }
  else setFn s f { x with pendv := if x.pendv.contains v then x.pendv else x.pendv ++ [v] }

/-- Does a completion ring have a free slot? -/
def cqRoom (q : QPair) : Bool := (q.cqTail + 1) % 2 ^ q.cqLog != q.cqHead

/-- Waiting completion entries written while the ring has room (R363, R364). Fuel bounds the entries. -/
def cqDrain : Nat → State → Nat → Nat → State
  | 0, s, _, _ => s
  | fuel + 1, s, f, qi =>
    match tfind (fnOf s f).qps qi with
    | none => s
    | some q =>
      match q.waitq with
      | [] => s
      | e :: rest =>
        if !cqRoom q then s
        else
          let bits := e + q.phase * 2 ^ 255
          let s := hostPut s (q.cqBase + 32 * q.cqTail) (leBytes 32 bits)
          let tail := (q.cqTail + 1) % 2 ^ q.cqLog
          let q := { q with waitq := rest, cqTail := tail, phase := if tail = 0 then 1 - q.phase else q.phase,
                            unsent := q.unsent + 1, since := if q.waiting then q.since else s.now, waiting := true }
          let send := q.ien && (q.coalN + 1 ≤ q.unsent || q.coalUs = 0)
          let s := modFn s f fun x => { x with qps := tset x.qps qi (if send then { q with unsent := 0, waiting := false } else q) }
          cqDrain fuel (if send then msix s f q.iv else s) f qi

/-- A command completes: its entry joins its ring (R364), unless its queue pair was deleted (R361). -/
def completeX (s : State) (r : CmdRef) (flags status lateUs param result : Nat) : State :=
  match tfind (fnOf s r.fn).qps r.qp with
  | none => s
  | some q =>
    if !q.opened.contains r.cmd then s
    else
      let e := cqeBits r.qp flags status q.sqHead (r.cmd % 65536) lateUs param result
      let q := { q with opened := q.opened.erase r.cmd, waitq := q.waitq ++ [e] }
      cqDrain (q.waitq.length) (modFn s r.fn fun x => { x with qps := tset x.qps r.qp q }) r.fn r.qp

/-- A command completes without lateness. -/
def complete (s : State) (r : CmdRef) (status param result : Nat) : State := completeX s r 0 status 0 param result

/-- An asynchronous event of a function (R374). -/
def asyncEvent (s : State) (f kind h cause : Nat) : State :=
  let x := fnOf s f
  match x.asyncOut with
  | c :: rest =>
    complete (setFn s f { x with asyncOut := rest }) ⟨f, 0, c⟩ 0 0 (kind * 2 ^ 112 + h * 2 ^ 96 + cause * 2 ^ 80)
  | [] =>
    if x.asyncWait.length < 64 then setFn s f { x with asyncWait := x.asyncWait ++ [(kind, h, cause)] }
    else setFn s f { x with evDropped := satAdd 16 x.evDropped 1, evLost := satAdd 16 x.evLost 1 }

/-- A queue pair enters ERROR and the event QUEUE_ERROR is raised (R365). -/
def queueError (s : State) (f qi cause : Nat) : State :=
  let s := modFn s f fun x =>
    { x with qps := tmod { sqBase := 0, cqBase := 0, sqLog := 6, cqLog := 6 } x.qps qi fun q => { q with err := true }
             err := x.err || qi == 0 }
  asyncEvent s f 2 qi cause

end Sys2Proof.Machine
end

