-- ==== Sys2Proof/Machine/ArbCore.lean ====
section
/-! DEFINITION. One instance of the common arbiter (11 R255, R264 to R272; 20 Table REG-2). -/
namespace Sys2Proof.Machine

/-! The mesh's requesters (R254, R255). -/

/-- The virtual network of a packet (R255): REQ 0, RSP 1, CTL 2. -/
def netVn (m : NetMsg) : Nat :=
  match m with
  | .read | .write | .atomic => 0
  | .readData | .ack => 1
  | .semaphore | .mailbox | .fenceProbe | .walk => 2

/-- The requester of a router's outputs that a packet is which came in by a port (Table NET-3). -/
def routerReq (port : Nat) (m : NetMsg) : Nat := port * 3 + netVn m

/-- Requesters of an instance (11 Table NET-3). -/
def arbReqs (a : Nat) : Nat :=
  if a < 224 then 21 else if a < 352 then 16 else if a < 2400 then 5 else if a < 2404 then 24 else 0

/-- Is a router output port present: N, E, S, W face a neighbour, L always, X0 and X1 as R254 assigns (20 R438)? -/
def routerPort (r k : Nat) : Bool :=
  let x := r % 8
  let y := r / 8
  match k with
  | 0 => y != 0
  | 1 => x != 7
  | 2 => y != 3
  | 3 => x != 0
  | 4 => true
  | 5 => y = 0 || y = 3 || x = 0 || x = 7
  | 6 => ((y = 0 || y = 3) && (x = 0 || x = 7)) || (x = 7 && y = 1)
  | _ => false

/-- The cupola whose uncore an instance lies in; none for a mailbox of the lantern. -/
def arbCup (a : Nat) : Option Nat :=
  if a < 224 then some (a / 7) else if a < 352 then some ((a - 224) / 4) else if a < 2400 then some ((a - 352) / 64) else none

/-- Does an instance exist (20 Table REG-2, R438)? -/
def arbPresent (a : Nat) : Bool := if a < 224 then routerPort (a / 7) (a % 7) else a < 2404

/-- May requester `q` of output `k` of router `r` present a request (R255): its input port is present and another one, and a packet
that came along a column stays in it, as routing goes along the row first? -/
def routerTurn (r k q : Nat) : Bool :=
  let i := q / 3
  routerPort r i && i != k && !((i = 0 || i = 2) && (k = 1 || k = 3))

/-- The requester of a request at an instance: past them all where the request is not of its kind. -/
def arbIdx (a : Nat) (q : ArbIn) : Nat :=
  match q with
  | .unit r => if a < 224 then 24 else r
  | .packet p m => if a < 224 then routerReq p m else 24

/-- May a requester of an instance present a request? -/
def arbReqOk (a q : Nat) : Bool := q < arbReqs a && (224 ≤ a || routerTurn (a / 7) (a % 7) q)

/-- The most units that a requester of the device holds in mode 0 (Table NET-3); none for a host function at a mailbox. -/
def arbHold (a q : Nat) : Option Nat := if a < 224 then some 1 else if a < 2400 then some 8 else if q < 17 then none else some 1

/-! Waiting (R270). -/

/-- The effective threshold of R270. -/
def arbThr (x : Arb) : Nat := min x.thr (2 ^ x.winLog - 1)

/-- A requester's bits set; at the first flag of a window the lantern is signalled, where ARB_CFG.IE is 1 (R270 steps 1 and 2). -/
def arbFlag (x : Arb) (r : Nat) : Arb :=
  let x := { x with flags := x.flags ||| 2 ^ r, cur := x.cur ||| 2 ^ r }
  if x.signalled || !x.ie then x else { x with signalled := true, sigs := x.sigs ++ [r] }

/-- `k` waiting cycles of each requester that is presented and not granted; one past the threshold is flagged. -/
def arbWait (k : Nat) (x : Arb) (n : Nat) (waiting : Nat → Bool) : Arb :=
  (List.range n).foldl (fun x r =>
    if !waiting r || k = 0 then x
    else
      let c := tget 0 x.wait r + k
      let x := { x with wait := tset x.wait r c }
      if arbThr x < c then arbFlag x r else x) x

/-- Does a requester wait: it has parked a request, and is not the owner? -/
def arbWaits (x : Arb) (r : Nat) : Bool := x.owner != some r && 0 < tget 0 x.parked r

/-! Windows (R271, R272). -/

/-- ARB_CFG as written, in force (Table NET-5): BURST 0 stores 1, WIN_LOG2 is held in 10 to 31. -/
def arbLoad (x : Arb) (v : Nat) : Arb :=
  { x with burst := max 1 (fld v 47 40), winLog := max 10 (fld v 31 27), ie := bitOf v 24, thr := fld v 23 0, next := none }

/-- A window ends and the next begins (R270, R271): counts and CUR clear, a written ARB_CFG takes effect. A signal that the lantern has not
taken stays. -/
def arbWindow (x : Arb) : Arb :=
  let x := match x.next with
    | some v => arbLoad x v
    | none => x
  { x with wait := [], cur := 0, signalled := false, cyc := 0 }

/-- Has a window had all its cycles? -/
def arbFull (x : Arb) : Bool := 2 ^ x.winLog ≤ x.cyc

/-- An instance before its next cycle: in a new window where the last one is over. -/
def arbRoll (x : Arb) : Arb := if arbFull x then arbWindow x else x

/-! Grants (R265 to R269). -/

/-- R265: the first requester at or after the index one above the last owner. -/
def arbNext (n ptr : Nat) (presented : Nat → Bool) : Option Nat :=
  ((List.range n).map fun i => (ptr + 1 + i) % n).find? presented

/-- A request that is not granted in its cycle (R266): parked, or waiting at its requester while the queue is full. -/
def arbPark (x : Arb) (r : Nat) : Arb :=
  if tget 0 x.parked r < 8 then { x with parked := tmod 0 x.parked r (· + 1) } else { x with held := x.held ++ [r] }

/-- The requests presented in a cycle that no queue holds: those that wait at their requesters, then the new ones of other requesters. -/
def arbLiveIn (x : Arb) (reqs : List Nat) : List Nat := x.held ++ reqs.filter fun r => !x.held.contains r

/-- `k` cycles of the requests that wait at a full queue (ARB_STAT.PQ_FULL). -/
def arbFullWait (k : Nat) (x : Arb) : Arb := { x with pqFull := satAdd 16 x.pqFull (k * x.held.length) }

/-- Does the grant end with this unit (R267): the owner drops, or in modes 1 to 3 the burst limit is reached? -/
def arbEnds (mode : Nat) (x : Arb) (last : Bool) : Bool := last || (mode != 0 && x.burst ≤ x.units + 1)

/-- The grant of a cycle (R265): a running grant goes on; with none the next presented requester has it, by the head of its queue, or by
its live request. The live requests that were not granted are parked, behind what their requester has parked (R269). -/
def arbTake (n : Nat) (x : Arb) (new : List Nat) : Arb :=
  let reqs := arbLiveIn x new
  let x := { x with held := [] }
  match x.owner with
  | some _ => reqs.foldl arbPark x
  | none =>
    match arbNext n x.ptr fun r => 0 < tget 0 x.parked r || reqs.contains r with
    | none => x
    | some g =>
      let y := { x with owner := some g, units := 0, mid := false, drop := false, grants := (x.grants + 1) % 2 ^ 32 }
      if 0 < tget 0 x.parked g then reqs.foldl arbPark { y with parked := tmod 0 x.parked g (· - 1) }
      else (reqs.erase g).foldl arbPark y

/-- One cycle counted, with the waits of those that are presented and not granted. -/
def arbCount (n : Nat) (x : Arb) : Arb := arbWait 1 { arbFullWait 1 x with cyc := x.cyc + 1, sub := x.sub + 1 } n (arbWaits x)

/-- The dead cycle of a withdrawn grant (R268), which may be the grant's own: every live request is parked, every presented one waits, the pointer
moves as if the grant ended. -/
def arbDead (n : Nat) (x : Arb) (r : Nat) (live : List Nat) : Arb :=
  let y := arbTake n x live
  arbCount n { y with owner := none, units := 0, mid := false, drop := false, ptr := r, dead := satAdd 16 y.dead 1 }

/-- One cycle of an instance (R265 to R267, R269): `reqs` are its new live requests, `last` what the cycle is for the unit under way.
A grant withdrawn while a unit was under way is idle for one more cycle once that has ended (R268). -/
def arbCycle (mode n : Nat) (x : Arb) (reqs : List Nat) (last : UnitEnd) : Arb :=
  let x := arbCount n (arbTake n x reqs)
  match x.owner with
  | none => x
  | some o =>
    if last = .goesOn then { x with mid := true }
    else if x.drop then arbDead n { x with mid := false } o []
    else if arbEnds mode x (last = .drops) then { x with owner := none, units := 0, mid := false, ptr := o }
    else { x with units := x.units + 1, mid := false }

/-- May the unit that ends leave the grant on (Table NET-3, the longest hold in normal service)? -/
def arbHoldOk (mode a : Nat) (x : Arb) (reqs : List Nat) (last : UnitEnd) : Bool :=
  let y := arbTake (arbReqs a) x reqs
  match y.owner with
  | some o => last != .ends || mode != 0 || (arbHold a o).all fun m => y.units + 1 < m
  | none => true

/-- A withdrawal (R268): free of a parked request, a dead cycle for the granted one. -/
def arbDrop (a n : Nat) (x : Arb) (q : ArbReq) : Arb :=
  match q with
  | .granted r live => arbDead n x (arbIdx a r) (live.map (arbIdx a))
  | .parked r => { x with parked := tmod 0 x.parked (arbIdx a r) (· - 1) }

/-- Has an instance the request to withdraw: the granted one between two units (no unit is cut, R264) or in the cycle of its grant, or a parked
one? -/
def arbHolds (a n : Nat) (x : Arb) (q : ArbReq) : Bool :=
  match q with
  | .granted r live =>
    match x.owner with
    | some o => o = arbIdx a r && !x.mid
    | none => arbNext n x.ptr (fun g => 0 < tget 0 x.parked g || (live.map (arbIdx a)).contains g) = some (arbIdx a r)
  | .parked r => 0 < tget 0 x.parked (arbIdx a r)

/-! Time (R270, R271). -/

/-- `k` cycles in which the unit under way goes on, through the ends of windows. Fuel bounds the windows. -/
def arbPass (n : Nat) : Nat → Nat → Arb → Arb
  | 0, _, x => x
  | fuel + 1, k, x =>
    let left := 2 ^ x.winLog - x.cyc
    if k ≤ left then arbWait k { arbFullWait k x with cyc := x.cyc + k } n (arbWaits x)
    else arbPass n fuel (k - left) (arbWindow (arbWait left { arbFullWait left x with cyc := x.cyc + left } n (arbWaits x)))

/-- A microsecond of an instance: in the cycles that no command was, a presented request is granted and its unit goes on. -/
def arbTick (a : Nat) (x : Arb) : Arb :=
  let k := arbMhz a - x.sub
  if k = 0 then { x with sub := 0 }
  else
    let y := arbTake (arbReqs a) x []
    { arbPass (arbReqs a) 4 k { y with mid := y.owner.isSome } with sub := 0 }

/-! Grants that the device withdraws (R268): a translation fault, a request that the lantern stops. -/

/-- The grant of a requester at an instance withdrawn: at once, or as the unit under way ends, for none is cut (R264). -/
def arbKill (s : State) (a r : Nat) : State :=
  let x := arbOf s a
  if x.owner != some r then s
  else { s with arbs := tset s.arbs a (if x.mid then { x with drop := true } else arbDead (arbReqs a) (arbRoll x) r []) }

/-- What a requester has presented at an instance and is not granted, withdrawn at no cost. -/
def arbForget (s : State) (a r : Nat) : State :=
  let x := arbOf s a
  if tget 0 x.parked r = 0 then s else { s with arbs := tset s.arbs a { x with parked := tdel x.parked r, held := x.held.filter (· != r) } }

/-- The requests of a spire at the four ports of its cupola's slice, granted and waiting. -/
def arbKillSpire (s : State) (p : Nat) : State :=
  (List.range 4).foldl (fun s k => arbForget (arbKill s (224 + p / 8 * 4 + k) (p % 8)) (224 + p / 8 * 4 + k) (p % 8)) s

/-- The other grants that belong to a stopped request of a job: packets at any router, on any virtual network, accesses of movers and assists at slice
ports, line commands at vault queues. Which of the grants that run they are is not in the state: a free value (log 32). -/
def arbKillNet (s : State) (h : Nat) : State :=
  (s.arbs.filter fun x => x.1 < 2400).foldl (fun s x =>
    match x.2.owner with
    | some r => if !(224 ≤ x.1 && x.1 < 352 && r < 8) && Config.netOwner h x.1 r s.now then arbKill s x.1 r else s
    | none => s) s

end Sys2Proof.Machine
end

