-- ==== Sys2Proof/Machine/JobOps.lean ====
section
/-! DEFINITION. Shared operations on jobs: clearing spires (03 R92), sending frames (14), ending frames of streams (15 R349),
ending a request (07 R181), a job fault (19 R428), release and zeroisation (17 R394), a device fault (19 R430). -/
namespace Sys2Proof.Machine

/-! Frames sent by a port (14 R308 to R311). -/

/-- Credits that a frame takes, in units of 256 B (R310; log 24). -/
def frCredits (f : OutFr) : Nat := cdiv (32 + f.data.length) 256
/-- Bytes of a frame on the wire (Table FAB-2). -/
def frWire (f : OutFr) : Nat := f.data.length + 70
/-- Unacknowledged bytes allowed at a port's width (Table FAB-2). -/
def replayCap (p : Port) : Nat := if p.width = 3 then 2097152 else 1048576
/-- Unacknowledged bytes held. -/
def replayUsed (p : Port) : Nat := sumN (p.unacked.map frWire)
/-- The weight of a virtual channel in the round that runs (Table FAB-9). -/
def vcWeight (p : Port) (v : Nat) : Nat := nth p.wRound (v - 1)

/-- A round of the deficit round robin begins: written weights take effect (Table FAB-9). -/
def newRound (p : Port) : Port := { p with wRound := [p.w1, p.w2, p.w3] }

/-- May the oldest waiting frame of a VC go now: credits and replay room (R309, R310)? -/
def vcHead (p : Port) (v : Nat) : Option OutFr :=
  match p.txq.find? fun f => f.vc == v with
  | some f => if frCredits f ≤ nth p.credits v && replayUsed p + frWire f ≤ replayCap p then some f else none
  | none => none

/-- The virtual channel whose credits the next frame returns: the lowest with any. -/
def oweVc (p : Port) : Nat := ((List.range 4).find? fun v => 0 < nth p.owe v).getD 0

/-- The MAC address of a port number and a fabric address (R308). -/
def macOf (port fa : Nat) : Nat := 0x025542 * 2 ^ 24 + port * 2 ^ 16 + fa % 2 ^ 16

/-- The lowest-numbered READY port, which gives the device its tower and position (R314). -/
def refPort (s : State) : Option Port := ((List.range 4).map (portOf s)).find? fun p => p.st = .ready

/-- The fabric address of the device: of its lowest-numbered READY port (R313, R314), else what the port's own roster gave. -/
def devFa (s : State) (p : Port) : Nat := ((refPort s).map (·.fa)).getD p.fa

/-- A frame leaves: its addresses and EtherType, with FAB_CFG.VLAN_EN a tag of priority 4 + VC (R308; the destination's port number is that
of the plane, DEDUCED, log 24); it takes the next LSN and its credits, carries the acknowledgement and returned credits, and stays in the
replay buffer (R309, R310). -/
def portEmit (s : State) (pi : Nat) (f : OutFr) : State :=
  let p := portOf s pi
  let v := oweVc p
  let cred := min (nth p.owe v) 16383
  let g := { f with lsn := p.lsn, ack := if p.rxAny then some ((p.lsnExp + 65535) % 65536) else none, cvc := v, cred := cred
                    src := devFa s p, smac := macOf pi (devFa s p), dmac := macOf pi f.dst, ether := p.ether
                    tag := p.vlan.map fun n => (4 + f.vc) * 2 ^ 13 + n }
  { modPort s pi (fun p =>
      { p with txq := p.txq.erase f, lsn := (p.lsn + 1) % 65536, unacked := p.unacked ++ [g], owe := lset p.owe v (nth p.owe v - cred), ackDue := false
               ackAt := if p.unacked.isEmpty then s.now else p.ackAt
               credits := lset p.credits f.vc (nth p.credits f.vc - frCredits f) }) with
    fabOut := s.fabOut ++ [g] }

/-- The next frame by R311: VC0 first, then deficit round robin over VC1 to VC3; `none` when nothing can go. -/
def portPick (p : Port) : Option OutFr × Port :=
  match vcHead p 0 with
  | some f => (some f, p)
  | none =>
    let order := [p.turn, p.turn % 3 + 1, (p.turn + 1) % 3 + 1]
    match order.filter (fun v => (vcHead p v).isSome) with
    | [] => (none, p)
    | v :: rest =>
      match vcHead p v with
      | none => (none, p)
      | some f =>
        if frWire f ≤ nth p.deficit v then
          (some f, { p with turn := v, deficit := lset p.deficit v (nth p.deficit v - frWire f) })
        else
          let p := if rest.isEmpty then newRound p else p
          let p := { p with deficit := lset p.deficit v (nth p.deficit v + vcWeight p v * 4166) }
          match rest with
          | [] => (some f, { p with turn := v, deficit := lset p.deficit v (nth p.deficit v - frWire f) })
          | w :: _ => (none, { (if w < v then newRound p else p) with turn := w })

/-- A port sends what credits and its replay buffer allow. Fuel bounds the frames and turns. -/
def portDrain : Nat → State → Nat → State
  | 0, s, _ => s
  | fuel + 1, s, pi =>
    let r := portPick (portOf s pi)
    let s' := modPort s pi fun _ => r.2
    match r.1 with
    | some f => portDrain fuel (portEmit s' pi f) pi
    | none => if r.2.turn = (portOf s pi).turn then s' else portDrain fuel s' pi

/-- May a port take a frame: its link is up, and a frame of a job only while it is READY (R312, R314)? -/
def portTakes (p : Port) (f : OutFr) : Bool :=
  p.st = .ready || (f.job = 0 && (p.st = .link || p.st = .mismatch))

/-- A port sends what it can of its waiting frames. -/
def portRun (s : State) (pi : Nat) : State := portDrain (4 * (portOf s pi).txq.length + 4) s pi

/-- A frame is handed to a port; a port whose link is down loses it. -/
def portSend (s : State) (pi : Nat) (f : OutFr) : State :=
  if portTakes (portOf s pi) f then
    portRun (modPort s pi fun p => { (if p.txq.isEmpty then newRound p else p) with txq := p.txq ++ [{ f with port := pi }] }) pi
  else s

/-- The port and plane between two logical devices (R322). -/
def pairPort (a b : Nat) : Nat := (a + b) % 4

/-- The port of a lantern message to logical device `d`: that of the pair, or while it is not READY the lowest one that is (DEDUCED, log 24: every
member hears of a lost port, R316). -/
def ctlPort (s : State) (x : Job) (d : Nat) : Nat :=
  if (portOf s (pairPort x.l d)).st = .ready then pairPort x.l d
  else ((List.range 4).find? fun p => (portOf s p).st = .ready).getD (pairPort x.l d)

/-- A lantern message on VC0 to logical device `d` of a job (Table FAB-4; kinds in the order of TYPE 5h's row). -/
def ctlSend (s : State) (x : Job) (d kind a b : Nat) : State :=
  portSend s (ctlPort s x d) { port := 0, type := 5, vc := 0, dst := nth x.fas d, job := x.fabId, kind := kind, a := a, b := b }

/-- A lantern message to every other member. -/
def ctlAll (s : State) (x : Job) (kind a b : Nat) : State :=
  ((List.range x.m).filter (· != x.l)).foldl (fun s d => ctlSend s x d kind a b) s

/-! Switch reduction claims (14 R330; 12 R282). -/

/-- Does a group of a job reduce in arrival order: it asks for it, and the job is not strict (12 R282 item 2)? -/
def arrMode (x : Job) (g : Grp) : Bool := g.arr && !x.strict

/-- The size of a group (14 R319). -/
def grpSize (g : Grp) : Nat := 2 ^ sumN g.z

/-- The reduction memory that a group claims, in bytes (14 R330). -/
def claimSize (x : Job) (g : Grp) : Nat := g.nred * (if arrMode x g then 1 else grpSize g) * (g.slotUnits * 256)

/-- A frame to the leaf switch about a reduction claim (14 R330): kind 0 a claim with its size and mode, 1 a release. -/
def claimSend (s : State) (x : Job) (g kind req : Nat) : State :=
  let gr := tfind x.plan.groups g
  portSend s (g % 4) { port := 0, type := 6, vc := 0, dst := 0xFFFF, job := x.fabId, group := g, kind := kind, a := req
                       arr := gr.any (arrMode x), b := (gr.map (claimSize x)).getD 0 }

/-- The claims of a request that ends (R330): granted ones are released; one that has no verdict yet is released when it is granted. -/
def claimsRelease (s : State) (j req : Nat) : State :=
  match jobOf s j with
  | none => s
  | some x =>
    let s := (x.claims.filter fun c => c.req = req && c.granted).foldl (fun s c => claimSend s x c.group 1 req) s
    modJob s j fun x =>
      { x with claims := (x.claims.filter fun c => c.req != req || !c.answered).map fun c =>
          if c.req = req then { c with gone := true } else c }

/-- Every claim of a job that ends is released. -/
def claimsEnd (s : State) (j : Nat) : State :=
  match jobOf s j with
  | none => s
  | some x => (x.claims.filter fun c => c.granted || !c.answered).foldl (fun s c => claimSend s x c.group 1 c.req) s

/-! Spires. -/

/-- The logical state of a spire that has run and been cleared. -/
def spClear (x : Spire) : Spire :=
  { x with st := .idle, run := none, other := none, progs := [], steal := [], stolen := none, infl := [], changing := false, resume := none,
           saveReq := false, stalls := 0, cause := 0, param := 0, ordContests := 0, ordSwred := 0, plStolen := 0, plChanges := 0,
           ord := 0, place := 0, sp := {} }

/-- The counts of a spire added to its job's sums before CLEAR zeroes them (12 R278, R279). -/
def foldDet (s : State) (p : Nat) : State :=
  let x := spOf s p
  match x.job with
  | none => s
  | some j => modJob s j fun y =>
      [(Ctr.orderChoices, x.ord), (.placementChoices, x.place), (.ordContests, x.ordContests), (.ordSwredArr, x.ordSwred),
       (.plStolen, x.plStolen), (.plChanges, x.plChanges)].foldl (fun y c => ctrAdd y c.1 c.2) y

/-- CLEAR of a spire (03 R92, Table SPI-8). -/
def doClear (s : State) (p : Nat) : State := modSp (foldDet s p) p spClear

/-- The physical spires of a job, without repeats. -/
def jobSpires (x : Job) : List Nat := x.place.eraseDups

/-- The sum of a determinism count over a job's live spires and what CLEAR has folded (12 R279). -/
def detSum (s : State) (j : Nat) (x : Job) (c : Ctr) (f : Spire → Nat) : Nat :=
  ctrGet x c + sumN ((jobSpires x).map fun p => if (spOf s p).job = some j then f (spOf s p) else 0)

/-- ORDER_CHOICES of a job so far. -/
def ordSum (s : State) (j : Nat) (x : Job) : Nat := detSum s j x .orderChoices (·.ord)

/-! Checks of a window (16 R371; 17 R392). -/

/-- A range cut at multiples of `n`: address and length. Fuel bounds the pieces. -/
def piecesAux (n : Nat) : Nat → Nat → Nat → List (Nat × Nat)
  | 0, _, _ => []
  | fuel + 1, a, len =>
    if len = 0 then [] else
      let k := min len (n - a % n)
      (a, k) :: piecesAux n fuel (a + k) (len - k)

/-- A range cut at multiples of `n`. -/
def pieces (n a len : Nat) : List (Nat × Nat) := piecesAux n (len / n + 2) a len

/-- Why an access cannot be made: a fault of the job, or an error of the request or command. -/
inductive AccBad where
  | fault (cause va : Nat)
  | err (status pa : Nat)
deriving DecidableEq, Repr

/-- Does every unit of a protected window that an access touches verify (17 R392)? A write needs only the units it covers in part. -/
def gcmOk (s : State) (w : Win) (off len : Nat) (wr : Bool) : Bool :=
  match jobOf s w.job with
  | none => false
  | some x => (pieces 4096 off len).all fun p =>
      (wr && p.2 = 4096) || (gcmUnit s x.kt (jobHandle s w.job) w.base (w.pages * 2 ^ 21) (p.1 / 4096) wr).isSome

/-- A window access (16 R371). -/
def winBad (s : State) (pa len : Nat) (wr : Bool) : Option AccBad :=
  match tfind s.wins (winIdx pa).1 with
  | none => some (.err 0x040A pa)
  | some w =>
    if (wr && !w.wr) || (!wr && !w.rd) then some (.err 0x040A pa)
    else if w.gcm && !gcmOk s w (winIdx pa).2 len wr then some (.err 0x0409 pa)
    else none

/-! Writes (11 R256). -/

/-- One issued write is performed at its home: bytes, or the update of a status word (02 R56): OVF_TILES raised, FALLBACK
set, and the tile counted for R61. -/
def applyWr (s : State) (w : PWr) : State :=
  let s := { s with writes := s.writes.filter (·.id != w.id) }
  if w.qsw then
    let v := rdLe (paByte s) w.pa 8
    modJob (paPut s w.pa (leBytes 8 (setFld (setFld v 31 16 (satAdd 16 (fld v 31 16) 1)) 0 0 1))) w.job fun x =>
      { x with ovfTiles := tmod 0 x.ovfTiles w.va (· + 1) }
  else paPut s w.pa w.data

/-- The bytes of an update: a status word is read and written back. -/
def wrLen (w : PWr) : Nat := if w.qsw then 8 else w.data.length

/-- Why an issued write cannot be performed in its window, or in the unit of a protected one that it covers in part (16 R371, 17 R392). -/
def wrBad (s : State) (w : PWr) : Option AccBad := if paKind w.pa = .window then winBad s w.pa (wrLen w) true else none

/-- REQUEST_ERROR of a job's handle (09 R229). -/
def reqErrRec (s : State) (h status pa : Nat) : State := evrAdd s 0x0530 2 0 [status, h, fld pa 47 16, fld pa 15 0 * 65536]

/-- An issued write performed as its request ends; one that fails is dropped, logged and merged into that end (09 R231). -/
def performWr (s : State) (w : PWr) : State :=
  match wrBad s w with
  | some (.err st pa) =>
    reqErrRec (modJob { s with writes := s.writes.filter (·.id != w.id) } w.job fun x => ctrAdd x .reqErrorsMerged 1) (jobHandle s w.job) st pa
  | _ => applyWr s w

/-- Every issued write of a job is performed, in issue order. -/
def performAll (s : State) (j : Nat) : State := (s.writes.filter (·.job == j)).foldl performWr s

/-- A dome semaphore of a job was raised: an ADV or REL of one of its rings takes as many requests of the assist (06 R166, R168). -/
def ringSig (s : State) (j pa v : Nat) : State :=
  modJob s j fun x =>
    let hit := fun (va : Nat) => (xlate s x va).any fun e => e.2 = pa
    { x with rings := x.plan.rings.zipIdx.foldl (fun t r =>
        if hit r.1.ctl then tmod {} t r.2 fun y => { y with adv := y.adv + v }
        else if hit (r.1.ctl + 12) then tmod {} t r.2 fun y => { y with rel := y.rel + v } else t) x.rings }

/-- A SIG applied at its home (04 R122). -/
def sigApply (s : State) (g : Sig) : State :=
  let s := { s with sigs := s.sigs.filter (·.id != g.id) }
  if g.scope = 0 then { s with csem := tmod 0 s.csem (g.home * 256 + g.key) fun v => (v + g.val) % 2 ^ 32 }
  else ringSig (noteWrite (paPut s g.key (leBytes 4 ((rdLe (paByte s) g.key 4 + g.val) % 2 ^ 32))) g.job g.key 4) g.job g.key g.val

/-- A job's cupola semaphores set to zero (04 R122, 07 R181). -/
def zeroSems (s : State) (x : Job) : State :=
  (x.cups.mapIdx fun c ph => (ph, nth x.semBase c, nth x.plan.sems c)).foldl (fun s r =>
    (List.range r.2.2).foldl (fun s i => { s with csem := tdel s.csem (r.1 * 256 + r.2.1 + i) }) s) s

/-! Rings and prefixes at a request's end (07 R181 step 3; 06 R173). -/

/-- Every ring of a job returned to empty. -/
def resetRings (s : State) (j : Nat) : State :=
  match jobOf s j with
  | none => s
  | some x =>
    let s := x.plan.rings.foldl (fun s r => vaPut (vaPut s j r.ctl (List.replicate 16 0)) j (r.ctl + 16) (List.replicate 12 0)) s
    let vpns := x.rings.flatMap fun r => if r.2.pool.isEmpty then [] else (x.plan.rings[r.1]?.map (·.vpns)).getD []
    modJob s j fun x =>
      { x with rings := [], ringPool := x.ringPool ++ (x.rings.flatMap fun r => r.2.pool)
               pt := x.pt.filter fun e => !vpns.contains e.1 }

/-- A prefix page entry's fields: PAGE, LIVE, PIN, REF, COPIES (06 Table ATN-5). -/
structure PfxEnt where
  page : Nat
  live : Bool
  pin : Nat
  ref : Nat
  copies : Nat
deriving DecidableEq, Repr

/-- A prefix page entry read from memory. -/
def pfxGet (s : State) (x : Job) (va : Nat) : PfxEnt :=
  let w := ofLe ((List.range 16).map fun i => vaByte s x (va + i))
  { page := fld w 27 0, live := bitOf w 28, pin := fld w 47 32, ref := fld w 63 48, copies := fld w 95 64 }

/-- A prefix page entry written. -/
def pfxSet (s : State) (j va : Nat) (e : PfxEnt) : State :=
  vaPut s j va (leBytes 16 (e.page % 2 ^ 28 + b2n e.live * 2 ^ 28 + e.pin % 65536 * 2 ^ 32 + e.ref % 65536 * 2 ^ 48
    + e.copies % 2 ^ 32 * 2 ^ 64))

/-- An entry after an operation: with REF and PIN zero its LIVE is 0 and its page goes to the job's pool (06 R173). -/
def pfxPut (s : State) (j va : Nat) (e : PfxEnt) : State :=
  pfxSet s j va (if e.ref = 0 && e.pin = 0 then { e with live := false } else e)

/-- PIN or UNPIN of a list of prefix entries (06 R173). -/
def pfxPin (s : State) (j : Nat) (es : List Nat) (up : Bool) : State :=
  es.foldl (fun s e =>
    match jobOf s j with
    | some y =>
      let w := pfxGet s y e
      pfxPut s j e { w with pin := if up then w.pin + 1 else w.pin - 1 }
    | none => s) s

/-- FREE of every prefix mapping of a job's request: REF − 1 and the mapping removed; true when an entry had REF = 0 (06 R173:
PREFIX_PROTOCOL). FREE is raised at the request's end alone (DESIGN CHOICE, log 52: nothing says what ends a sequence before). -/
def prefixFree (s : State) (j : Nat) : State × Bool :=
  match jobOf s j with
  | none => (s, false)
  | some x =>
    x.plan.prefixes.foldl (fun a p =>
      p.vpns.foldl (fun a v =>
        match jobOf a.1 j with
        | none => a
        | some x =>
          match tfind x.pt v with
          | some e =>
            if !e.shr then (modJob a.1 j fun x => { x with pt := tdel x.pt v }, a.2)
            else
              let w := pfxGet a.1 x p.entry
              let s' := modJob a.1 j fun x => { x with pt := tdel x.pt v }
              if w.ref = 0 then (s', true) else (pfxPut s' j p.entry { w with ref := w.ref - 1 }, a.2)
          | none => a) a) (s, false)

/-! Video at a job's end (15 R349). -/

/-- The record field of a frame's stream job. -/
def streamJob (s : State) (st : Nat) : Option Nat := (tfind s.video.streams st).map (·.job)

/-- A range of job memory whose bytes become undefined (07 R181, 15 R348). -/
def freeVa (s : State) (j va len : Nat) : State :=
  (pieces 4096 va len).foldl (fun s p =>
    match jobOf s j with
    | some x =>
      match xlate s x p.1 with
      | some (_, pa) => freeMem s pa p.2
      | none => s
    | none => s) s

/-- What a frame that ends without success may have written is undefined: the buffer that it took and, once it ran, DST (15 R348). -/
def frUndef (s : State) (t : Stream) (f : VFrame) (buf : Option Nat) (ran : Bool) : State :=
  let s := match buf with
    | some i => freeVa s t.job (poolAddr t.recd i) (streamFsz t.recd)
    | none => s
  if ran then freeVa s t.job (frAddr t (recFld f.recd 0x18 8)) (recFld f.recd 0x20 8) else s

/-- The frame that an engine runs may have written (R348). -/
def engUndef (s : State) (e : Engine) : State :=
  match e.run with
  | none => s
  | some f =>
    match tfind s.video.streams f.stream with
    | some t => frUndef s t f e.buf true
    | none => s

/-! The queue of a stream (15 R345, R347, R349). -/

/-- Streams changed. -/
def setVideo (s : State) (f : Video → Video) : State := { s with video := f s.video }

/-- Is a frame of the stream running? -/
def strRunning (s : State) (c : Nat) : Bool := s.video.engines.any fun e => e.2.run.any fun f => f.stream == c

/-- The frames of a closed stream end with CODEC_NO_STREAM. -/
def endStream (s : State) (c : Nat) : State :=
  let fs := s.video.queue.filter (·.stream == c)
  let s := setVideo s fun v => { v with streams := tdel v.streams c, queue := v.queue.filter (·.stream != c) }
  fs.foldl (fun s f => complete s ⟨f.fn, f.qp, f.cmd⟩ 0x0707 0 0) s

/-- A RELEASE at the head of its queue (15 R347). -/
def applyRelease (s : State) (f : VFrame) (b : Nat) : State :=
  match tfind s.video.streams f.stream with
  | none => complete s ⟨f.fn, f.qp, f.cmd⟩ 0x0707 0 0
  | some t =>
    let e := tget {} t.pool b
    if e.marks / 8 % 2 = 0 then complete s ⟨f.fn, f.qp, f.cmd⟩ 0x0706 0 0
    else
      let t := { t with pool := tset t.pool b { e with marks := e.marks - 8, listed := false } }
      complete (setVideo s fun v => { v with streams := tset v.streams f.stream t }) ⟨f.fn, f.qp, f.cmd⟩ 0 0 0

/-- RELEASE and CLOSE commands that head a stream's queue apply. Fuel bounds the queue. -/
def vAdvance : Nat → State → Nat → State
  | 0, s, _ => s
  | fuel + 1, s, c =>
    if strRunning s c then s
    else
      match s.video.queue.find? (·.stream == c) with
      | none => s
      | some f =>
        let pop := setVideo s fun v => { v with queue := v.queue.erase f }
        match f.rel, f.close with
        | some b, _ => vAdvance fuel (applyRelease pop f b) c
        | none, true => endStream (complete pop ⟨f.fn, f.qp, f.cmd⟩ 0 0 0) c
        | none, false => s

/-- Frames of a job's streams, running and queued, end with CODEC_ABORTED, and their contexts and marks go back (15 R348); a RELEASE or a CLOSE
that was queued behind them applies in its turn; then the streams close, or stay open (Table VID-8). -/
def videoAbort (s : State) (j : Nat) (close : Bool) : State :=
  let mine := fun (f : VFrame) => streamJob s f.stream == some j
  let running := (s.video.engines.filterMap fun e => e.2.run).filter mine
  let queued := s.video.queue.filter fun f => mine f && f.rel.isNone && !f.close
  let cs := (s.video.streams.filter fun t => t.2.job = j).map (·.1)
  let s := (s.video.engines.filter fun e => e.2.run.any mine).foldl (fun s e => engUndef s e.2) s
  let s := { s with video := { s.video with
    queue := s.video.queue.filter fun f => !queued.contains f
    engines := s.video.engines.map fun e =>
      match e.2.run with
      | some f => if mine f then (e.1, { e.2 with run := none, buf := none, st := 0, frames := satAdd 32 e.2.frames 1 }) else e
      | none => e
    streams := s.video.streams.map fun t =>
      if t.2.job = j then (t.1, { t.2 with st := if t.2.st = 1 then 0 else t.2.st, pool := t.2.pool.map fun b => if b.2.marks = 1 then (b.1, { b.2 with marks := 0 }) else b })
      else t } }
  let s := (running ++ queued).foldl (fun s f => complete s ⟨f.fn, f.qp, f.cmd⟩ 0x0708 0 0) s
  let s := cs.foldl (fun s c => vAdvance s.video.queue.length s c) s
  if close then setVideo s fun v => { v with streams := v.streams.filter fun t => t.2.job != j } else s

/-! Models and the pool. -/

/-- The cached copy of a model. -/
def cachedOf (s : State) (h : Nat) : Option (Nat × PUnit) := s.pool.find? fun u => u.2.kind = 0 && u.2.owner = h

/-- The cached copy pinned while it is read or filled (R226 item 2). -/
def cachePin (s : State) (h : Nat) (up : Bool) : State :=
  match cachedOf s h with
  | none => s
  | some u =>
    if up then { s with pool := tset s.pool u.1 { u.2 with pins := u.2.pins + 1 } }
    else { s with poolSeq := s.poolSeq + 1, pool := tset s.pool u.1 { u.2 with pins := u.2.pins - 1, age := s.poolSeq + 1 } }

/-- The models of a job, each once: it holds one pin or one use of each (13 R301). -/
def jobModels (x : Job) : List Nat := x.models.eraseDups

/-- A use ends (13 R301, R302): at zero the entry takes the next age. -/
def modelUnuse (s : State) (h : Nat) : State :=
  match tfind s.models h with
  | none => s
  | some m =>
    let m := { m with uses := m.uses - 1 }
    if m.uses = 0 then
      { s with hotSeq := s.hotSeq + 1, models := tset s.models h { m with age := s.hotSeq + 1 } }
    else { s with models := tset s.models h m }

/-- A pin ends (13 R301, Table SCH-5). -/
def modelUnpin1 (s : State) (h : Nat) : State :=
  match tfind s.models h with
  | none => s
  | some m =>
    let m := { m with pins := m.pins - 1 }
    if m.pins = 0 then
      { s with hotSeq := s.hotSeq + 1
               models := tset s.models h { m with age := s.hotSeq + 1, st := if m.st = .pinned then .resident else m.st } }
    else { s with models := tset s.models h m }

/-- Units of a job's overflow sets lose their pin at the end of a request (09 R226: each unpin takes the next age). -/
def ovfUnpin (s : State) (j : Nat) : State :=
  s.pool.foldl (fun s u =>
    if u.2.kind = 1 && u.2.owner = j && 0 < u.2.pins then
      { s with poolSeq := s.poolSeq + 1, pool := tset s.pool u.1 { u.2 with pins := u.2.pins - 1, age := s.poolSeq + 1 } }
    else s) s

/-- What a running request holds is let go: pins of overflow sets, prefix mappings, and, unless a FREE met REF = 0, which ends the job,
uses of BE models. -/
def requestLetGo (s : State) (j : Nat) : State × Bool :=
  match jobOf s j with
  | none => (s, false)
  | some x =>
    match prefixFree (ovfUnpin s j) j with
    | (s, true) => (s, true)
    | (s, false) => (if x.lc || x.saved then s else (jobModels x).foldl modelUnuse s, false)

/-! The service accounts of a group (13 R293, R305). -/

/-- The group of a job. -/
def groupOf (s : State) (j : Nat) : Option (Nat × CoGrp) := s.groups.find? fun g => g.2.jobs.contains j

/-- Has a job a request: waiting, or running? -/
def hasReq (x : Job) : Bool := x.running.isSome || !x.queue.isEmpty

/-- The BE job of a group with a request that has the lowest V, then the lowest handle (R293). -/
def beChoice (s : State) (g : CoGrp) : Option Nat :=
  let js := (g.jobs.filterMap fun j => (jobOf s j).map fun x => (j, x)).filter fun k => hasReq k.2 && !k.2.lc
  (js.foldl (fun (b : Option (Nat × Job)) k => match b with
    | some a => if k.2.v < a.2.v || (k.2.v = a.2.v && k.2.handle < a.2.handle) then some k else some a
    | none => some k) none).map (·.1)

/-- Does a BE job's running request hold a group on its spires? -/
def beRuns (s : State) (g : CoGrp) : Bool := (g.holder.bind (jobOf s)).any fun x => x.running.isSome && !x.lc && !x.saved

/-- The service account of the holder brought up to now (R293). -/
def chargeHolder (s : State) (gi : Nat) : State :=
  match tfind s.groups gi with
  | none => s
  | some g =>
    let s := { s with groups := tset s.groups gi { g with since := s.now } }
    match g.holder with
    | none => s
    | some j => modJob s j fun x =>
        let t := (s.now - g.since) * 1600 * 256 + x.vRem
        { x with v := x.v + t / x.weight, vRem := t % x.weight }

/-- The holder's service brought up to now in a job's group. -/
def chargeJob (s : State) (j : Nat) : State :=
  match groupOf s j with
  | some (gi, _) => chargeHolder s gi
  | none => s

/-- A scheduling point of a group (R293): the BE job of lowest V has the turn, also from a holder that runs; a written quantum takes effect
(R305). -/
def schedPoint (s : State) (gi : Nat) : State :=
  let s := chargeHolder s gi
  match tfind s.groups gi with
  | some g =>
    let k := beChoice s g
    { s with groups := tset s.groups gi { g with quantum := s.quantum, turn := k, next := if beRuns s g && k != g.holder then k else none } }
  | none => s

/-- A scheduling point of a job's group. -/
def schedPointJ (s : State) (j : Nat) : State :=
  match groupOf s j with
  | some (gi, _) => schedPoint s gi
  | none => s

/-- A request of a job has ended: a scheduling point where the job held the group and runs nothing more, or where it was the last of the LC queue
(R293). -/
def endPoint (s : State) (j : Nat) : State :=
  match groupOf s j, jobOf s j with
  | some (gi, g), some x => if (g.holder = some j && x.running.isNone) || (x.lc && !hasReq x) then schedPoint s gi else s
  | _, _ => s

/-- The counters summed over the member devices of a job: those of 12 R279, 13 R304 and 14 R334. -/
def ctrSummed (c : Ctr) : Bool := ctrIdx .orderChoices ≤ ctrIdx c

/-- What the other member devices of a job have counted, which no message carries here: a free value, but that DET_STRICT lets none make an order
choice (00 R6; log 19). `key` tells one reading from another. -/
def otherCount (s : State) (x : Job) (c : Ctr) : Nat :=
  if x.m ≤ 1 || !ctrSummed c || (x.strict && [Ctr.orderChoices, .ordContests, .ordSwredArr, .reqOrderChoices].contains c) then 0
  else Config.memberCount x.fabId (ctrIdx c) s.now

/-- The increase of ORDER_CHOICES during a request, on every member device. -/
def reqOrder (s : State) (j : Nat) (x : Job) (r : RunReq) : Nat := ordSum s j x - r.ordBase + otherCount s x .reqOrderChoices

/-- The request's own increase of ORDER_CHOICES recorded at its completion (12 R279). -/
def noteOrder (s : State) (j : Nat) (r : RunReq) : State :=
  modJob s j fun x => { x with ctrs := tset x.ctrs (ctrIdx .reqOrderChoices) (reqOrder s j x r) }

/-! Stopping a job's work on the device. -/

/-- The prefix pages that an instruction in flight on a spire pins are let go as it completes (06 R174). -/
def unpinAll (s : State) (j p : Nat) : State := (spOf s p).infl.foldl (fun s f => pfxPin s j f.pins false) s

/-- A job's spires stop (07 R181 steps 1 to 3): instructions in flight complete, so that their issued writes and SIGs are performed and
their pins let go; waits are abandoned; the spires are cleared. -/
def stopSpires (s : State) (j : Nat) : State :=
  let s := performAll s j
  let s := (s.sigs.filter (·.job == j)).foldl sigApply s
  match jobOf s j with
  | none => s
  | some x =>
    let s := arbKillNet ((jobSpires x).foldl (fun s p => if (spOf s p).job = some j then arbKillSpire s p else s) s) x.handle
    (jobSpires x).foldl (fun s p => if (spOf s p).job = some j then doClear (unpinAll s j p) p else s) s

/-- Steps 1 to 3 of R181 on this device: the spires stop, what the request wrote is undefined, semaphores and rings are zeroed, FREE is
raised; a saved job's spill entries are discarded (13 Table SCH-4). True when a FREE met REF = 0. -/
def stopRequest (s : State) (j : Nat) : State × Bool :=
  let s := stopSpires s j
  match jobOf s j with
  | none => (s, false)
  | some x =>
    let s := x.dirty.foldl (fun s r => freeMem s (placePa x r.1) r.2) s
    let s := resetRings (zeroSems s x) j
    let r := requestLetGo s j
    let s := { r.1 with landings := r.1.landings.filter (·.job != j) }
    let s := match x.running with
      | some q => claimsRelease s j q.req.num
      | none => s
    (modJob s j fun x => { x with dirty := [], spill := [], saved := false, sent := [], redParts := [] }, r.2)

/-- The end of request `num` noted for the first-pass test (08 R200): of an LC job, whose requests run by deadline, the one that ended last
(DEDUCED, log 51). -/
def noteEnd (x : Job) (num pass : Nat) (ok : Bool) : Job :=
  { x with ends := if x.lc then [(num, pass, ok)] else tset x.ends num (pass, ok) }

/-- The end of the request before request `num` of a job: the one before in submission order, or the one that ended last (DEDUCED,
log 51). -/
def prevEnd (x : Job) (num : Nat) : Option (Nat × Bool) :=
  ((x.ends.filter fun e => x.lc || e.1 < num).getLast?).map (·.2)

/-- A job of which a request has ended without success: the next one is a first pass (R181, 08 R200). -/
def reqOver (x : Job) (r : Req) : Job :=
  { noteEnd x r.num r.pass false with
    goGot := tdel x.goGot r.num, readyFrom := x.readyFrom.filter fun e => e.2 != r.num }

/-- A job whose running request has ended without success. -/
def reqGone (x : Job) (r : Req) : Job := { reqOver x r with running := none }

/-- A job whose request has ended in its queue, so that it made no order choice (12 R279). -/
def queueGone (x : Job) (q : Req) : Job :=
  { reqOver x q with queue := x.queue.erase q, ctrs := tset x.ctrs (ctrIdx .reqOrderChoices) 0 }

/-- Is a status one of a failure of 09 Table MEM-6 that ends a request? -/
def memStatus (st : Nat) : Bool := 0x0403 ≤ st && st ≤ 0x040A

/-- A request ended by such a failure is counted (09 R232). -/
def memCount (s : State) (j st : Nat) : State := if memStatus st then modJob s j fun x => ctrAdd x .reqErrors 1 else s

/-- The completion of a request that ends without success, its status that of member `who`. With several members it is held until the next
microsecond, and a REQ_END of a member of lower index that comes before then gives it its status (09 R231; DESIGN CHOICE, log 36). -/
def reqAnswer (s : State) (j : Nat) (x : Job) (who num : Nat) (ref : CmdRef) (status param : Nat) : State :=
  if x.m ≤ 1 then complete s ref status param 0
  else modJob s j fun y => { y with enders := y.enders ++ [{ ref := ref, num := num, who := who, status := status, param := param }] }

/-- The completions that a job holds are written, each with its own status, or with the cause of a job fault, which prevails (09 R231). -/
def endersEnd (cause : Option Nat) (s : State) (j : Nat) : State :=
  match jobOf s j with
  | none => s
  | some x =>
    if x.enders.isEmpty then s
    else x.enders.foldl (fun s e => complete s e.ref (cause.getD e.status) (if cause.isSome then 0 else e.param) 0)
      (modJob s j fun y => { y with enders := [] })

/-- A request that has not been dispatched ends without success: its claims are released, the members told, the completion written. -/
def queuedEnd (s : State) (j : Nat) (x : Job) (q : Req) (status param : Nat) : State :=
  let s := claimsRelease (memCount s j status) j q.num
  let s := if x.m ≤ 1 then s else ctlAll s x 4 status q.num
  endPoint (modJob (reqAnswer s j x x.l q.num q.ref status param) j fun y => queueGone y q) j

/-! Release (17 R394, 09 R222). -/

/-- Zeros over an interleave frame. -/
def zeroFrame (s : State) (q : Nat) : State :=
  match ilvSet s with
  | some (b, n) => (List.range n).foldl (fun s i => zeroMem s ((b + i) * 2 ^ 32 + q * 2 ^ 21) (2 ^ 21)) s
  | none => s

/-- The partition registers of a handle disabled (R222). -/
def partsOff (s : State) (h : Nat) : State := { s with dsPart := s.dsPart.filter fun r => fld r.2 47 32 != h }

/-- Do the requests that a job leaving its group still has make its end a scheduling point (13 R293): the holder's, or the LC queue? -/
def leavePoint (s : State) (j : Nat) (g : CoGrp) : Bool :=
  g.jobs.contains j && (jobOf s j).any fun x => (g.holder = some j && x.running.isSome) || (x.lc && hasReq x)

/-- The job leaves its co-tenant group (13 R287). -/
def leaveGroup (s : State) (j : Nat) : State :=
  let mine := (s.groups.filter fun g => leavePoint s j g.2).map (·.1)
  let gs := s.groups.map fun g =>
    (g.1, { g.2 with jobs := g.2.jobs.erase j, holder := if g.2.holder = some j then none else g.2.holder
                     turn := if g.2.turn = some j then none else g.2.turn, next := if g.2.next = some j then none else g.2.next
                     outJob := if g.2.outJob = some j then none else g.2.outJob })
  mine.foldl schedPoint { s with groups := gs.filter fun g => !g.2.jobs.isEmpty }

/-- Do jobs reserve a physical spire? -/
def spReserved (s : State) (p : Nat) : Bool := s.jobs.any fun k => k.2.cups.contains (p / 8)

/-- A write of PWR_GATEn.EN (19 R420). -/
def gateEn (g : Gate) (en : Bool) : Gate :=
  if g.st = 0 || g.st = 2 then (if en = (g.st == 2) then g else { g with en := en, st := if en then 1 else 3 })
  else if !g.pend then (if en = (g.st == 1) then g else { g with en := en, pend := true })
  else if en = (g.st == 1) then { g with refused := satAdd 16 g.refused 1 }
  else g

/-- A gate's EN written. -/
def gateWrite (s : State) (n : Nat) (en : Bool) : State := { s with gates := tset s.gates n (gateEn (gateOf s n) en) }

/-- Cupolas that no job reserves any more are gated (19 R419). -/
def gateOff (s : State) (cups : List Nat) : State :=
  cups.foldl (fun s c => if s.jobs.any fun k => k.2.cups.contains c then s else gateWrite s c false) s

/-- The steps of R394: spires cleared, scratch pages that are not away and vault pages zeroised, semaphores zeroed, keys erased with the
far pages made unreadable, JOB_CTRL.VALID cleared; then every reservation is returned. -/
def releaseJob (s : State) (j : Nat) : State :=
  match jobOf s j with
  | none => s
  | some x =>
    let s := claimsEnd (videoAbort s j true) j
    let s := (s.writes.filter fun w => w.job == j && w.host).foldl performWr s
    let s := { s with writes := s.writes.filter (·.job != j), sigs := s.sigs.filter (·.job != j)
                      landings := s.landings.filter (·.job != j) }
    let s := (jobSpires x).foldl (fun s p => if (spOf s p).job = some j then modSp (doClear s p) p fun y => { y with job := none } else s) s
    let s := (x.dsp.filter fun n => !x.away.contains n).foldl (fun s n => zeroMem s (scratchPa (n / 4) (n % 4)) (2 ^ 21)) s
    let s := x.vpages.foldl (fun s n => zeroMem s (vaultPa n) (2 ^ 21)) s
    let s := x.frames.foldl zeroFrame s
    let s := zeroSems s x
    let s := x.far.foldl (farNewOwner bootKeySlot) s
    let s := x.ovf.foldl (fun s o => o.2.foldl (farNewOwner bootKeySlot) s) s
    let s := { s with pool := s.pool.filter fun u => !(u.2.kind = 1 && u.2.owner = j), farKeys := tdel s.farKeys j }
    let s := if x.lc then (jobModels x).foldl modelUnpin1 s
      else if x.running.isSome && !x.saved then (jobModels x).foldl modelUnuse s else s
    let s := { s with wins := s.wins.filter fun w => w.2.job != j }
    let s := partsOff (leaveGroup s j) (jobHandle s j)
    let s := { s with jobs := tdel s.jobs j, jobRegs := tdel s.jobRegs j }
    gateOff ((jobSpires x).foldl (fun s p => if spReserved s p then s else modSp s p fun y => { y with st := .off }) s) x.cups

/-- Commands that wait on a model's load end with a status: its own load commands, and admissions that name it, whose reservations
are returned (13 Tables SCH-5, SCH-6). -/
def modelWaitsEnd (s : State) (h st : Nat) : State :=
  let ws := ((tfind s.models h).map (·.waits)).getD []
  let s := ws.foldl (fun s c => complete s c st 0 0) s
  let s := (s.jobs.filter fun k => k.2.admCmd.isSome && k.2.models.contains h).foldl (fun s k =>
    releaseJob (match k.2.admCmd with
      | some c => complete s c st 0 0
      | none => s) k.1) s
  { s with models := s.models.map fun m => if m.1 = h then (m.1, { m.2 with waits := [] }) else m }

/-- A load ends without success: the cached copy that it read is pinned no more, one that it was filling is given up (09 R226). -/
def loadUnhold (s : State) (h : Nat) : State :=
  match tfind s.models h with
  | none => s
  | some m =>
    if m.st != .loading then s
    else if m.src = 0 then cachePin s h false
    else if m.cache && !m.reload then { s with pool := s.pool.filter fun u => !(u.2.kind = 0 && u.2.owner = h) }
    else s

/-- A load fails: the entry is gone, its frames zeroised (Table SCH-5). -/
def modelFail (s : State) (h st : Nat) : State :=
  let s := loadUnhold (modelWaitsEnd s h st) h
  let fr := ((tfind s.models h).map (·.frames)).getD []
  fr.foldl zeroFrame { s with models := tdel s.models h }

/-! Faults. -/

/-- The command of a fetched entry. -/
def fetchedRef (x : Fetched) : CmdRef := ⟨x.fn, x.qp, x.tok * 65536 + fld x.e.toNat 31 16⟩

/-- Commands with these opcodes that the lantern has read for a job, and has not carried out, end with a status (16 R374, Table HST-13). -/
def fetchedEnd (s : State) (fn h : Nat) (opcs : List Nat) (status : Nat) : State :=
  let mine := fun (x : Fetched) =>
    x.fn == fn && x.qp != 0 && fld x.e.toNat 63 48 == h && opcs.contains (fld x.e.toNat 7 0)
  (s.fetched.filter mine).foldl (fun s x => complete s (fetchedRef x) status 0 0) { s with fetched := s.fetched.filter fun x => !mine x }

/-- A job fault (19 R428, 16 R374): recovery mode, spires stopped with their writes performed, unless the job is saved; members told,
completions, events, release; then the mode is 0, or 2 while a MARGIN runs (11 R267). `idx` is the logical index that detected it, `addr` a failing address or 0. -/
def jobFaultX (s : State) (j cause idx addr : Nat) (tell : Bool) : State :=
  match jobOf s j with
  | none => s
  | some x =>
    let s := { s with netMode := 3 }
    let s := videoAbort (if x.saved then s else stopSpires s j) j true
    let s := if x.m ≤ 1 || !tell then s else ctlAll s x 5 cause x.l
    let s := match x.running with
      | some r => complete s r.req.ref cause 0 0
      | none => s
    let s := x.queue.foldl (fun s q => complete s q.ref 0x0402 0 0) (endersEnd (some cause) s j)
    let s := fetchedEnd s x.fn (jobHandle s j) [0x40, 0x41] 0x0402
    let s := match x.admCmd with
      | some c => complete s c cause 0 0
      | none => s
    let s := asyncEvent s x.fn 1 (jobHandle s j) cause
    let s := evrAdd s 0x0540 2 0 [jobHandle s j, cause, idx, fld addr 47 16]
    { releaseJob s j with netMode := if s.glb.margin.isSome then 2 else 0 }

/-- A job fault that this device detected. -/
def jobFault (s : State) (j cause idx addr : Nat) : State := jobFaultX s j cause idx addr true

/-! The end of a request without success. -/

/-- A running request ends without success (R181, R229): stopped, members told, completion written, then what is recorded. A FREE on an
entry with REF = 0 ends the job instead (06 R173). `src` is the member whose REQ_END ended it, none where this device did. -/
def stopEnd (s : State) (j : Nat) (x : Job) (r : RunReq) (status param : Nat) (note : State → State) (src : Option Nat) : State :=
  match stopRequest s j with
  | (s, true) => jobFault s j 0x0507 0 0
  | (s, false) =>
    let s := noteOrder (chargeJob s j) j r
    let s := if x.m ≤ 1 || src.isSome then s else ctlAll s x 4 status r.req.num
    let s := note (videoAbort (reqAnswer s j x (src.getD x.l) r.req.num r.req.ref status param) j false)
    endPoint (modJob s j fun x => reqGone x r.req) j

/-- A request of a job ends without success (R181): completion with the host-window mark, event recorded. The next request is a first
pass. -/
def endRequest (s : State) (j status param code sev : Nat) (ps : List Nat) : State :=
  match jobOf s j with
  | none => s
  | some x =>
    match x.running with
    | none => s
    | some r => stopEnd s j x r status (param % 2 ^ 31 + b2n r.host * 2 ^ 31) (fun s => evrAdd s code sev 0 ps) none

/-- The page that a far-memory failure touched is undefined, where it is one of the job (R229). -/
def farTouched (s : State) (j pa : Nat) : State :=
  if paKind pa = .far && (jobOf s j).any (fun x => x.far.contains (pa / 2 ^ 21) || x.ovf.any fun o => o.2.contains (pa / 2 ^ 21)) then
    freeMem s (pa / 2 ^ 21 * 2 ^ 21) (2 ^ 21)
  else s

/-- A request error (09 R229): REQUEST_ERROR with status, handle and address. The count REQ_ERRORS rises; an error that meets no
running request is logged and merged (R231). -/
def requestError (s : State) (j status pa : Nat) : State :=
  match jobOf s j with
  | none => s
  | some x =>
    match x.running with
    | none => reqErrRec (farTouched (modJob s j fun x => ctrAdd x .reqErrorsMerged 1) j pa) x.handle status pa
    | some r =>
      stopEnd (modJob s j fun x => ctrAdd x .reqErrors 1) j x r status (fld pa 47 16)
        (fun s => reqErrRec (farTouched s j pa) x.handle status pa) none

/-- The requests of a job end with JOB_RELEASED and the job is released (16 Table HST-13, 17 R394). -/
def endByRelease (s : State) (j : Nat) : State :=
  match jobOf s j with
  | none => s
  | some x =>
    let s := match x.running with
      | some r => endPoint (complete (noteOrder (modJob (stopRequest s j).1 j fun y => reqGone y r.req) j r) r.req.ref 0x0401 0 0) j
      | none => s
    let s := x.queue.foldl (fun s q => complete s q.ref 0x0401 0 0) (endersEnd none s j)
    let s := fetchedEnd s x.fn (jobHandle s j) [0x40] 0x0401
    let s := match x.admCmd with
      | some c => complete s c 0x0401 0 0
      | none => s
    releaseJob s j

/-- Every job of the device ends with a cause (19 R430, R418); how many ended. -/
def faultJobs (s : State) (cause : Nat) (p : Job → Bool) : State × Nat :=
  let js := (s.jobs.filter fun k => p k.2).map (·.1)
  (js.foldl (fun s j => jobFault s j cause 0 0) s, js.length)

end Sys2Proof.Machine
end

