-- ==== Sys2Proof/Machine/Recorder.lean ====
section
/-! DEFINITION. The event recorder's timers and the persistent store (18). -/
namespace Sys2Proof.Machine

/-- May the host reach the device (19 R417)? -/
def hostUp (s : State) : Bool := fwUp s && s.boot.linkUp

/-- The built-in defaults of a store bank (18 R406). -/
def defaultBoard : List Nat := List.replicate 4 3 ++ List.replicate 60 0

/-- A second failure of a flash operation (18 R404): EVR_FLASH_FAIL with address, erase or program, region of Table EVR-1. -/
def flashFailRec (s : State) (addr op region : Nat) : State := evrAdd s 0x0B13 2 0 [addr, op, region]

/-- Has a store write run in this operating second? Events of one second produce one write (18 R407). -/
def storeAgain (s : State) : Bool := s.boot.storeSec == some (opSecs s)

/-- The next SEQ: the last one plus 1, or the last one where this second's write takes in a further event (18 R407). -/
def nextSeq (s : State) : Nat := if storeAgain s then s.boot.seq else (s.boot.seq + 1) % 2 ^ 32

/-- The working copy of the store as the bank that is written (18 R407). -/
def nextBank (s : State) : Bank :=
  { seq := nextSeq s, secs := opSecs s % 2 ^ 32, pcyc := s.boot.pcyc, board := s.boot.board, repair := s.boot.repair }

/-! The bytes of a store bank (18 Table EVR-4, R405). -/

/-- CRC-32C of bytes (R405). -/
def crc32c (bs : List Nat) : Nat :=
  let step := fun c (_ : Nat) => if c % 2 = 1 then (c / 2) ^^^ 0x82F63B78 else c / 2
  (bs.foldl (fun c b => (List.range 8).foldl step (c ^^^ b)) 0xFFFFFFFF) ^^^ 0xFFFFFFFF

/-- Bytes 0000h to 3FFBh of a store bank (Table EVR-4). -/
def bankBytes (b : Bank) : List Nat :=
  [0x55, 0x42, 0x50, 0x53] ++ leBytes 4 1 ++ leBytes 4 b.seq ++ leBytes 4 b.secs ++ leBytes 4 b.pcyc ++ List.replicate 12 0
    ++ (b.board ++ List.replicate 64 0).take 64
    ++ leBytes 9216 ((b.repair.zipIdx.map fun e => (e.1.1 * 8192 + e.1.2.1 * 128 + e.1.2.2) * 2 ^ (18 * e.2)).foldl (· + ·) 0)
    ++ List.replicate 7068 0

/-- A store bank as it stands in flash, its CRC programmed last. -/
def bankImage (b : Bank) : List Nat := bankBytes b ++ leBytes 4 (crc32c (bankBytes b))

/-- The CRC-32C that a bank holds. -/
def bankCrc (o : Option (List Nat)) : Nat := recFld (o.getD []) 0x3FFC 4

/-- Is a range of a bank zero? -/
def zeroAt (bs : List Nat) (o n : Nat) : Bool := ((bs.drop o).take n).all (· == 0)

/-- Is a bank valid: MAGIC, FORMAT, CRC and reserved bytes (R405)? -/
def bankOk (bs : List Nat) : Bool :=
  bs.length == 16384 && bs.take 4 == [0x55, 0x42, 0x50, 0x53] && recFld bs 4 4 == 1 && recFld bs 0x3FFC 4 == crc32c (bs.take 0x3FFC)
    && zeroAt bs 0x13 13 && zeroAt bs 0x24 60 && zeroAt bs 0x2460 7068

/-- The entries of a repair area up to the first empty one (Table EVR-4). -/
def repairList (area : Nat) : List (Nat × Nat × Nat) :=
  ((List.range 4096).map fun e => area / 2 ^ (18 * e) % 2 ^ 18).takeWhile (fun v => v % 128 != 0) |>.map fun v => (v / 8192, v / 128 % 64, v % 128)

/-- The fields of a valid bank. -/
def bankOf (o : Option (List Nat)) : Option Bank :=
  match o with
  | none => none
  | some bs =>
    if !bankOk bs then none
    else some { seq := recFld bs 8 4, secs := recFld bs 0xC 4, pcyc := recFld bs 0x10 3, board := (bs.drop 0x20).take 64,
                repair := repairList (recFld bs 0x60 9216) }

/-! Calibration sets (18 R409, R410). -/

/-- Bytes of a calibration set with its CRC at 3Ch made to match and ORIGIN set. -/
def calSeal (bs : List Nat) (origin : Nat) : List Nat :=
  let h := (bs.take 8 ++ [origin] ++ (bs.drop 9).take (0x3C - 9))
  let body := bs.drop 0x40
  h ++ leBytes 4 (crc32c (h ++ body)) ++ body

/-- Are MAGIC, FORMAT, BODY_LEN and the CRC correct (R409)? -/
def calOk (bs : List Nat) : Bool :=
  bs.take 4 == [0x55, 0x42, 0x43, 0x53] && ofLe ((bs.drop 4).take 4) == 1 && ofLe ((bs.drop 0xC).take 4) == 622848
    && ofLe ((bs.drop 0x3C).take 4) == crc32c (bs.take 0x3C ++ bs.drop 0x40)

/-! Flash operations (18 R395, R404, R407, R411). -/

/-- The longest that an operation stays under way, in µs (18 R395, R398, R399, R410; DESIGN CHOICE where the spec bounds none, log 56). -/
def flashDur (w : FlashWork) : Nat :=
  match w with
  | .record _ _ => 10000
  | .compact _ => 1200000
  | .store _ _ => 1200000
  | .calib _ => 20000000
  | .slots _ _ _ _ _ => 1000000

/-- An operation begins after those before it (R395). -/
def flashBegin (s : State) (w : FlashWork) : State :=
  let t := max s.now (s.flashOps.foldl (fun m o => max m o.till) 0)
  { s with flashOps := s.flashOps ++ [{ till := t + flashDur w, work := w }] }

/-- Does an operation under way still owe the management pair a reply? -/
def replyDue (s : State) : Bool := s.flashOps.any fun o => o.ends.any fun e => match e with
  | .reply _ => true
  | _ => false

/-- One effect of the end of an operation; a reply takes the place of the busy one of the pair's last flash command. -/
def flashEnd1 (s : State) (e : FlashEnd) : State :=
  match e with
  | .reply bs => if s.boot.mgmt == [1] && !replyDue s then { s with boot := { s.boot with mgmt := bs } } else s
  | .answer r => complete s r 0 0 0
  | .written t crc => evrAdd s 0x0B17 1 0 [t, crc]

/-- What the end of the last operation under way does besides; at once where none is. -/
def flashThen (s : State) (es : List FlashEnd) : State :=
  match s.flashOps.getLast? with
  | none => es.foldl flashEnd1 s
  | some o => { s with flashOps := s.flashOps.dropLast ++ [{ o with ends := o.ends ++ es }] }

/-- The operations that have ended, all of them where `all` says so. -/
def flashTick (all : Bool) (s : State) : State :=
  let done := s.flashOps.filter fun o => all || o.till ≤ s.now
  done.foldl (fun s o => o.ends.foldl flashEnd1 s) { s with flashOps := s.flashOps.filter fun o => !(all || o.till ≤ s.now) }

/-- Does an erase (0) or a program (1) at a flash address fail a second time (R404): by the outcome given, or in a sector that is worn, or with
the flash absent? -/
def flashFails (s : State) (addr op : Nat) (res : FlashRes) : Bool :=
  s.evr.absent || res == (if op = 0 then .erase else .program) || tfind s.fuse.worn (addr / 65536) == some op

/-- A store bank. -/
def bankAt (s : State) (b : Nat) : Option (List Nat) := if b = 0 then s.bankA else s.bankB

/-- A store bank set. -/
def setBank (s : State) (b : Nat) (v : Option (List Nat)) : State := if b = 0 then { s with bankA := v } else { s with bankB := v }

/-- A store write to the bank not used last, or again to this second's (18 R407); it waits for PERST_N deassertion (19 R417). A write that fails twice
ends unfinished and leaves that bank without a valid CRC. -/
def storeWrite (s : State) (res : FlashRes) : State :=
  if !s.boot.perstN then { s with boot := { s.boot with storeDue := true } }
  else
    let b := if storeAgain s then s.lastBank else 1 - s.lastBank
    let addr := 0x01200000 + b * 0x10000
    let v := bankImage (nextBank s)
    let old := bankAt s b
    let t := { s with lastBank := b, boot := { s.boot with seq := nextSeq s, storeSec := some (opSecs s), storeDue := false } }
    if flashFails s addr 0 res then flashFailRec (setBank t b none) addr 0 (3 + b)
    else if flashFails s addr 1 res then flashFailRec (setBank t b none) addr 1 (3 + b)
    else flashBegin (setBank t b (some v)) (.store b old)

/-- A read of EVR_DATA7 by the PF: INDEX advances, up to EVR_COUNT (18 R400). -/
def evrAdvance (s : State) : State :=
  let n := (evrLog s.evr).length
  { s with evr := { s.evr with index := if s.evr.index < n then s.evr.index + 1 else s.evr.index } }

/-- EVR_DATA7_READ (18 R400). -/
def execEvrData7Read (s : State) : Out := guardNext (hostUp s) .notRunning (evrAdvance s)

/-! The flash ring (18 R395, R396, R398, R399). -/

/-- CRC-16 of bytes (18 R396). -/
def crc16 (bs : List Nat) : Nat :=
  let step := fun c (_ : Nat) => if 0x8000 ≤ c then (2 * c % 65536) ^^^ 0x1021 else 2 * c % 65536
  bs.foldl (fun c b => (List.range 8).foldl step (c ^^^ (b * 256))) 0xFFFF

/-- The 32 bytes of a record (Table EVR-2). -/
def recBytes (r : Rec) : List Nat :=
  let b := leBytes 2 r.code ++ [r.sev, r.src] ++ leBytes 4 r.secs ++ leBytes 3 r.pcyc ++ [r.sub % 256] ++ r.ps.flatMap (leBytes 4)
  b ++ leBytes 2 (crc16 b) ++ [0, 0x5A]

/-- Is a stored record valid: byte 31 is 5Ah and the CRC matches (R396)? -/
def recValid (bs : List Nat) : Bool := bs.length == 32 && nth bs 31 == 0x5A && recFld bs 0x1C 2 == crc16 (bs.take 0x1C)

/-- The bytes of a slot of the ring. -/
def slotBytes (x : FRec) : List Nat := x.cut.getD (recBytes x.r)

/-- The boot's scan of the ring: valid records are kept, a slot that holds another is freed with its sector's compaction (R398). A removal
whose compaction had not run is undone (DESIGN CHOICE, log 56). -/
def ringScan (f : List FRec) : List FRec := f.map fun x => { x with dead := !recValid (slotBytes x) }

/-- Slots in use in a sector. -/
def secUsed (f : List FRec) (sec : Nat) : Nat := (f.filter fun x => x.sec == sec).length

/-- The spare sector: an erased one, the highest where there are several (R398). -/
def ringSpare (f : List FRec) : Nat := (((List.range 9).reverse).find? fun i => secUsed f i = 0).getD 8

/-- The slot that is programmed next: the sectors fill in order, the spare one stays erased. -/
def ringSlot (f : List FRec) : Option (Nat × Nat) :=
  ((List.range 9).find? fun i => i != ringSpare f && secUsed f i < 2048).map fun i => (i, secUsed f i)

/-- The flash address of a slot of the ring. -/
def ringAddr (sec slot : Nat) : Nat := 0x01100000 + 0x10000 * sec + 32 * slot

/-- The other records of a sector copied to the spare one, and the sector erased (R399); `n` counts the copies. -/
def ringMove (sec sp : Nat) : Nat → List FRec → List FRec
  | _, [] => []
  | n, x :: t =>
    if x.sec != sec then x :: ringMove sec sp n t
    else if x.dead || x.cut.isSome then ringMove sec sp n t
    else { x with sec := sp, slot := n } :: ringMove sec sp (n + 1) t

/-- A second failure in the flash ring: FLASH_FAIL, and the RAM ring holds the newest 4,096 records (R404). -/
def ringFail (s : State) (addr op : Nat) : State :=
  let l := evrLog s.evr
  flashFailRec { s with evr := { s.evr with flashFail := true, ram := l.drop (l.length - 4096) } } addr op 2

/-- The compaction of a sector (R399). -/
def ringCompact (s : State) (sec : Nat) (res : FlashRes) : State :=
  let f := s.evr.flash
  let sp := ringSpare f
  if (f.any fun x => x.sec == sec && !x.dead && x.cut.isNone) && flashFails s (ringAddr sp 0) 1 res then ringFail s (ringAddr sp 0) 1
  else if flashFails s (ringAddr sec 0) 0 res then ringFail s (ringAddr sec 0) 0
  else flashBegin { s with evr := { s.evr with flash := ringMove sec sp 0 f } } (.compact f)

/-- The oldest waiting record programmed into its slot. -/
def ringWrite (s : State) (r : Rec) (rest : List Rec) (res : FlashRes) : State :=
  match ringSlot s.evr.flash with
  | none => s
  | some q =>
    if flashFails s (ringAddr q.1 q.2) 1 res then ringFail s (ringAddr q.1 q.2) 1
    else flashBegin { s with evr := { s.evr with flash := s.evr.flash ++ [{ sec := q.1, slot := q.2, r := r }], ram := rest } } (.record q.1 q.2)

/-- Has the ring an operation to do, and may flash writes run (R398, 19 R417)? -/
def ringBusy (s : State) : Bool := s.boot.perstN && !ramOnly s.evr && (!s.evr.ram.isEmpty || s.evr.flash.any (·.dead))

/-- EVR_FLUSH's condition: the lantern runs and the ring has an operation to do. -/
def evrFlushOk (s : State) : Bool := fwUp s && ringBusy s

/-- The ring's next operation (R398, R399): the compaction of a sector that a removal waits for, else the oldest record of the RAM ring. -/
def evrFlushOne (s : State) (res : FlashRes) : State :=
  match s.evr.flash.find? (·.dead), s.evr.ram with
  | some x, _ => ringCompact s x.sec res
  | none, r :: rest => ringWrite s r rest res
  | none, [] => s

/-- EVR_FLUSH (18 R398, R399, R404). -/
def execEvrFlush (res : FlashRes) (s : State) : Out := guardNext (evrFlushOk s) .notEnabled (evrFlushOne s res)

/-- The ring's operations up to a number of them. -/
def evrFlushN : Nat → State → State
  | 0, s => s
  | n + 1, s => if ringBusy s then evrFlushN n (evrFlushOne s .done) else s

/-- Every operation of the ring that waits: one for a record, one for each sector with a removal (18 R398). -/
def evrFlushAll (s : State) : State := evrFlushN (s.evr.ram.length + 9) s

/-! Power loss (18 R411, 21 Table PKG-9): what a flash operation under way leaves. -/

/-- An operation that had not begun. -/
def flashUndo (s : State) (w : FlashWork) : State :=
  match w with
  | .record sec slot => { s with evr := { s.evr with flash := s.evr.flash.filter fun x => !(x.sec == sec && x.slot == slot) } }
  | .compact old => { s with evr := { s.evr with flash := old } }
  | .store b old => setBank s b old
  | .calib old => { s with calib := old }
  | .slots _ _ _ old cuts => { s with flash := old, flashCuts := cuts }

/-- An operation interrupted (R396, R407, R411): a record without its valid mark, a bank or a set without its last word, a compaction whose records
stand in their sector still, a firmware slot (or two) that is not valid (21 Table PKG-9) with free values where it was being written; an erase leaves
the mark of an earlier program. -/
def flashCut (s : State) (w : FlashWork) : State :=
  let i := freshId s
  match w with
  | .record sec slot =>
    let bs := (List.range 31).map (fun k => (Config.freeByte i.1 k).toNat) ++ [0xFF]
    { i.2 with evr := { s.evr with flash := s.evr.flash.map fun x => if x.sec == sec && x.slot == slot then { x with cut := some bs } else x } }
  | .compact old => { s with evr := { s.evr with flash := old } }
  | .store b _ => setBank s b none
  | .calib _ => { s with calib := none }
  | .slots a n prog _ cuts =>
    { i.2 with flash := Memory.put (fun _ => some 255) s.flash a ((List.range n).map fun k => (Config.freeByte i.1 (a + k)).toNat)
               flashCuts := if prog then tset (tset cuts a i.1) (a + n - 1) i.1 else cuts }

/-- PWRGD falls: of the flash operations that may be under way, one after another, a free number have ended, the next is interrupted, and the
others had not begun (log 56). -/
def flashLoss (s : State) : State :=
  let ops := s.flashOps.filter fun o => s.now < o.till
  if ops.isEmpty then { s with flashOps := [] }
  else
    let v := freshVal s 16
    let k := v.1 % (ops.length + 1)
    let t := ((ops.drop (k + 1)).reverse).foldl (fun s o => flashUndo s o.work) { v.2 with flashOps := [] }
    match ops[k]? with
    | some o => flashCut t o.work
    | none => t

/-- EVR_FREEZE_LIMIT: 10 s after the latest EVR_FREEZE (18 R401). -/
def execEvrFreezeLimit (s : State) : Out :=
  guardNext (fwUp s && s.evr.frozen && s.evr.freezeAt + 10000000 ≤ s.now) .notEnabled (evrThaw s)

/-- STORE_HOURLY_WRITE: a whole hour of operating time (18 R407). -/
def execStoreHourlyWrite (res : FlashRes) (s : State) : Out :=
  guardNext (fwUp s && opSecs s % 3600 = 0 && 0 < opSecs s) .notEnabled (storeWrite s res)

/-- A physical lane or a channel marked for the next cold boot (10 R241): sorted by vault, channel and LANE1, at most two lane
marks per channel; a third makes the channel's one entry LANE1 = 75. -/
def repairMark (l : List (Nat × Nat × Nat)) (v c lane : Nat) : List (Nat × Nat × Nat) :=
  let mine := l.filter fun r => r.1 = v && r.2.1 = c
  if mine.any (fun r => r.2.2 = 75 || r.2.2 = lane + 1) then l
  else
    let rest := l.filter fun r => !(r.1 = v && r.2.1 = c)
    let new := if 2 ≤ mine.length then [(v, c, 75)] else (mine ++ [(v, c, lane + 1)]).mergeSort fun a b => a.2.2 ≤ b.2.2
    (rest.filter fun r => r.1 * 64 + r.2.1 < v * 64 + c) ++ new ++ rest.filter fun r => v * 64 + c < r.1 * 64 + r.2.1

/-- The physical lane that carries a logical lane of a channel (10 R237). -/
def physLane (x : VChan) (i : Nat) : Nat :=
  match x.f0, x.f1 with
  | some a, some b => if i < a then i else if i + 1 < b then i + 1 else i + 2
  | some a, none => if i < a then i else i + 1
  | _, _ => i

/-- A corrected vault read on a logical lane (10 R241): counts by the physical lane, and the mark past 1,024 errors of a lane with a store
write. A disabled channel is never read. -/
def vaultCe (s : State) (v c i : Nat) : State :=
  let x := vchOf s v c
  if x.dis then s else
  let lane := physLane x i
  let n := tget 0 x.lanes lane + 1
  let s := modVch s v c fun x => { x with ce := satAdd 24 x.ce 1, lanes := tset x.lanes lane n }
  if n = 1025 then
    let r := repairMark s.boot.repair v c lane
    if r = s.boot.repair then s else storeWrite { s with boot := { s.boot with repair := r } } .done
  else s

/-- Does VLT_UE or DS_UE hold an error: VALID (20 R443)? -/
def ueValid (reg : Nat) : Bool := bitOf reg 63

/-- VALID cleared: by the lantern once it has written the record, or by a write of 1. -/
def ueClear (reg : Nat) : Nat := reg % 2 ^ 63

/-- An uncorrectable error of a vault is counted and, when VLT_UE holds none, captured and recorded (20 R443), on the channel that carries the
line (10 R240). `kind` is VLT_UE.KIND. The lantern clears VALID at the next microsecond (DESIGN CHOICE, log 54). -/
def vaultUeRec (s : State) (pa kind : Nat) : State :=
  let v := pa / 2 ^ 32
  let c := (vaultPhys s v (pa % 2 ^ 32)).1
  let s := modVch s v c fun x => { x with ue := satAdd 16 x.ue 1 }
  if ueValid (tget {} s.vaults v).ueReg then s
  else
    let reg := 2 ^ 63 + kind * 2 ^ 60 + c * 2 ^ 54 + pa / 256 * 256
    let s := { s with vaults := tmod {} s.vaults v fun x => { x with ueReg := reg } }
    evrAdd s 0x0630 2 (0x10 + v) [1, kind, fld pa 47 16, fld pa 15 8 + c * 256]

/-- An uncorrectable error of a dome-store slice: counted, and captured and recorded when DS_UE holds none (20 R443). `kind` is DS_UE.KIND. -/
def domeUeRec (s : State) (pa kind : Nat) : State :=
  let sl := (homeSlice pa).getD 0
  let held := ueValid (tget {} s.slices sl).ueReg
  let s := { s with slices := tmod {} s.slices sl fun x =>
    { x with ueClean := if kind = 2 then satAdd 16 x.ueClean 1 else x.ueClean
             ueCount := if kind = 2 then x.ueCount else satAdd 16 x.ueCount 1
             ueReg := if held then x.ueReg else 2 ^ 63 + kind * 2 ^ 60 + pa / 256 * 256 } }
  if held then s else evrAdd s 0x0630 2 (0x10 + sl) [0, kind, fld pa 47 16, fld pa 15 8]

end Sys2Proof.Machine
end

