-- ==== Sys2Proof/Machine/Rail.lean ====
section
/-! DEFINITION. The spire clocks and the core rail (19 R413, R423, R425; 21 R451). -/
namespace Sys2Proof.Machine

/-- The level in force: the slower of the old and the new one while a change is under way (19 R425). -/
def effLevel (t : Therm) : Nat := max t.run (t.pend.getD t.run)

/-- The spire clock of a cupola, in MHz (19 R423). -/
def cupMhz (s : State) (c : Nat) : Nat := 2100 - 100 * effLevel (thermOf s c)

/-- The spire clock of a set of cupolas. -/
def setMhz (s : State) (cups : List Nat) : Nat := max 1 ((cups.map (cupMhz s)).foldl min 2100)

/-! Voltage (19 R413, R425; 21 R451). -/

/-- The calibrated points of a spire island: MHz and mV (18 Table EVR-5). -/
def vfPoints (c : List Nat) (p : Nat) : List (Nat × Nat) :=
  (List.range 8).map fun i => (recFld c (0x2C0 + 32 * p + 4 * i + 2) 2, recFld c (0x2C0 + 32 * p + 4 * i) 2)

/-- The voltage between two points, rounded up; at the nearest point outside their range. -/
def vfBetween (lo hi : Option (Nat × Nat)) (mhz : Nat) : Nat :=
  match lo, hi with
  | some a, some b =>
    if b.1 = a.1 then b.2
    else if a.2 ≤ b.2 then a.2 + cdiv ((b.2 - a.2) * (mhz - a.1)) (b.1 - a.1)
    else b.2 + cdiv ((a.2 - b.2) * (b.1 - mhz)) (b.1 - a.1)
  | some a, none => a.2
  | none, some b => b.2
  | none, none => 750

/-- The point nearest below, and above, a frequency. -/
def vfPick (ps : List (Nat × Nat)) (better : Nat → Nat → Bool) : Option (Nat × Nat) :=
  ps.foldl (fun b p => match b with
    | some q => if better p.1 q.1 then some p else b
    | none => some p) none

/-- The voltage in mV that a spire island needs at a frequency; 0.75 V without a calibration set. -/
def islandMv (s : State) (p mhz : Nat) : Nat :=
  match s.boot.cal with
  | none => 750
  | some c =>
    let ps := vfPoints c p
    vfBetween (vfPick (ps.filter fun q => q.1 ≤ mhz) fun a b => b < a) (vfPick (ps.filter fun q => mhz ≤ q.1) fun a b => a < b) mhz

/-- VDD_CORE as R413 requests it: the running islands at their clocks, the uncores of the cupolas in service at 2,100 MHz. -/
def vddNeed (s : State) : Nat :=
  let cups := List.range 32
  let run := (cups.filter fun c => (gateOf s c).st = 2).flatMap fun c => (enabledIn s c).map fun p => islandMv s p (cupMhz s c)
  let floor := (cups.filter (cupUp s)).flatMap fun c => (List.range 8).map fun m => islandMv s (c * 8 + m) 2100
  min 750 (max 500 (maxN (run ++ floor)))

/-- The setpoints of a change of the rail: each moves it by at most 25 mV (21 R451). Fuel bounds the writes: 500 to 750 mV are ten. -/
def vddSteps : Nat → Nat → Nat → List Nat
  | 0, _, _ => []
  | n + 1, a, b =>
    if a = b then []
    else
      let c := if a < b then min b (a + 25) else max b (a - 25)
      c :: vddSteps n c b

/-- Setpoints written over AVSBus, while firmware runs (21 R451). -/
def avsWrite (s : State) (l : List Nat) : State :=
  if fwUp s then { s with power := { s.power with avs := s.power.avs ++ l, vddMv := l.getLastD s.power.vddMv } } else s

/-- The rail brought to what the islands need. -/
def setVdd (s : State) : State := avsWrite s (vddSteps 10 s.power.vddMv (vddNeed s))

/-- The firmware's start: at a warm boot the setpoint that was left is rewritten before any spire island starts; then the rail is brought to the need
(21 R451). -/
def bootVdd (s : State) : State := setVdd (if s.boot.warm then avsWrite s [s.power.vddMv] else s)

end Sys2Proof.Machine
end

