-- ==== Sys2Proof/Machine/VaultFar.lean ====
section
/-! DEFINITION. Vault refresh, temperature, write turns, what a margin run holds; far-memory fencing (10). -/
namespace Sys2Proof.Machine

/-- The state of DRAM layer L of vault v. -/
def layerOf (s : State) (v l : Nat) : Layer := tget {} s.layers (v * 4 + l)

/-- Is the refresh of a bank due: 3.9 µs, or 1.95 µs in the hot band that was in force at its last refresh (R242)? -/
def refreshDue (s : State) (v c bank : Nat) : Bool :=
  match tfind (vchOf s v c).refr bank with
  | none => true
  | some (t, hot) => (if hot then 1950 else 3900) ≤ s.now * 1000 - t

/-- VAULT_REFRESH (10 R242): one bank refreshes; a change of the layer's band takes effect here. -/
def execVaultRefresh (v c bank : Nat) (s : State) : Out :=
  if 32 ≤ v || 64 ≤ c || 32 ≤ bank then .refused .illFormed
  else guardNext (clocksOn s && s.boot.trained && !(vchOf s v c).dis && refreshDue s v c bank) .notEnabled
    (modVch s v c fun x => { x with refr := tset x.refr bank (s.now * 1000, (layerOf s v (c / 16)).hot) })

/-- A layer after one sample, in 0.125 °C (10 R242): hot above 85 °C; normal after 32 samples in a row at or below it. -/
def layerSample (l : Layer) (t : Int) : Layer :=
  if 680 < t then { hot := true, cool := 0, temp := t }
  else { hot := l.hot && l.cool + 1 < 32, cool := min (l.cool + 1) 32, temp := t }

/-- VAULT_TEMP_SAMPLE (10 R242). -/
def execVaultTempSample (v layer : Nat) (temp : Int) (s : State) : Out :=
  if 32 ≤ v || 4 ≤ layer then .refused .illFormed
  else guardNext (clocksOn s) .notRunning
    { s with layers := tset s.layers (v * 4 + layer) (layerSample (layerOf s v layer) temp) }

/-- The channel that carries a line of a vault. -/
def lineChan (s : State) (l : Nat) : Nat := (vaultPhys s (l / 2 ^ 24) (l % 2 ^ 24 * 256)).1

/-- The lines of a bulk write that wait in the queue of channel `c` of vault `v` (10 R243). -/
def bulkWaits (s : State) (v c : Nat) (b : WBulk) : Nat :=
  if b.line / 2 ^ 24 = v && !b.done.contains c then ((List.range b.n).filter fun i => lineChan s (b.line + i) = c).length else 0

/-- The bulk writes after channel `c` of vault `v` has turned to writes: one whose channels have all turned is over. -/
def bulkTurn (s : State) (v c : Nat) : List WBulk :=
  (s.wbulk.map fun b => if b.line / 2 ^ 24 = v && !b.done.contains c then { b with done := b.done ++ [c] } else b).filter fun b =>
    (List.range b.n).any fun i => !b.done.contains (lineChan s (b.line + i))

/-- May channel `c` of vault `v` turn to writes: 32 queued, or one has waited 2 µs (10 R243)? -/
def writeTurnDue (s : State) (v c : Nat) : Bool :=
  let x := vchOf s v c
  let bulk := s.wbulk.filter fun b => 0 < bulkWaits s v c b
  32 ≤ x.wq.length + sumN (bulk.map (bulkWaits s v c)) || (!x.wq.isEmpty && x.wqSince + 2 ≤ s.now) || bulk.any fun b => b.since + 2 ≤ s.now

/-- Does a MARGIN hold the traffic to a channel (10 R251 item 5): kind 0 channel `c` of vault `v`, kind 1 far channel `c`? -/
def marginChan (s : State) (far : Bool) (v c : Nat) : Bool :=
  s.glb.margin.any fun m => bitOf m.par 0 == far && fld m.par 22 17 = c && (far || fld m.par 16 12 = v)

/-- Does a MARGIN hold the traffic to a run of device addresses? -/
def marginHolds (s : State) (pa n : Nat) : Bool :=
  s.glb.margin.isSome && (List.range ((pa + n + 255) / 256 - pa / 256)).any fun i =>
    let l := (pa / 256 + i) * 256
    match paKind l with
    | .vault => marginChan s false (l / 2 ^ 32) (vaultPhys s (l / 2 ^ 32) (l % 2 ^ 32)).1
    | .far => marginChan s true 0 (farChan s l)
    | _ => false

/-- Does a MARGIN hold the traffic to interleave frames? -/
def marginFrames (s : State) (frames : List Nat) : Bool :=
  s.glb.margin.isSome && frames.any fun q => (ilvSet s).any fun b => (List.range b.2).any fun i =>
    marginHolds s ((b.1 + i) * 2 ^ 32 + q * 2 ^ 21) (2 ^ 21)

/-- Does a MARGIN hold the traffic to a range of a job's memory? -/
def marginVa (s : State) (x : Job) (va n : Nat) : Bool :=
  s.glb.margin.isSome && (List.range ((va + n + 255) / 256 - va / 256)).any fun i =>
    (xlate s x ((va / 256 + i) * 256)).any fun t => marginHolds s t.2 1

/-- VAULT_WRITE_TURN (10 R243): the queued writes are issued. -/
def execVaultWriteTurn (v c : Nat) (s : State) : Out :=
  if 32 ≤ v || 64 ≤ c then .refused .illFormed
  else guardNext (clocksOn s && s.boot.trained && writeTurnDue s v c && !marginChan s false v c) .notEnabled
    (modVch { s with wbulk := bulkTurn s v c } v c fun x => { x with wq := [] })

/-- Functions whose admin queue pair is enabled (16 R374). -/
def enabledFns (s : State) : List Nat := (List.range 17).filter fun f => (fnOf s f).en

/-- Every model-cache unit of the pool evicted (10 R249). -/
def evictCache (s : State) : State := { s with pool := s.pool.filter fun u => u.2.kind != 0 }

/-- Loads from the model cache end with MODEL_LOAD_FAILED (13 Table SCH-6, 09 R231). -/
def failCacheLoads (s : State) : State :=
  ((s.models.filter fun m => m.2.st = .loading && m.2.src = 0).map (·.1)).foldl (fun s h => modelFail s h 0x0600) s

/-- A channel is fenced in operation (10 R249): event, ALERT_N, asynchronous events, eviction of the model cache, later
admissions and loads refused. -/
def fenceChan (s : State) (c cause : Nat) : State :=
  let w := (fchOf s c).win
  let s := { s with fchans := tset s.fchans c { fchOf s c with st := 4 }, farFenced := true
                    power := { s.power with alert := s.power.alert ||| 1 } }
  let s := evrAdd s 0x0621 2 3 [c, cause, w, 0]
  let s := (enabledFns s).foldl (fun s f => asyncEvent s f 3 c cause) s
  evictCache (failCacheLoads s)

/-- The accesses outstanding on a far-memory channel: job and address. -/
def farOut (s : State) (c : Nat) : List (Nat × Nat) :=
  (s.writes.filter fun w => paKind w.pa = .far && farChan s w.pa = c).map fun w => (w.job, w.pa)

/-- Every access outstanding on a channel as it is fenced ends its request with FAR_FENCED (R249); `first` is the failure that fenced
it: of job `keep` (64: none), with its own status. -/
def fenceOut (s : State) (out : List (Nat × Nat)) (first : State → State) : State :=
  out.foldl (fun s e => requestError s e.1 0x0405 e.2) (first s)

/-- A far-memory access without a response: its channel is fenced (10 R249), then `own` is what the access itself ends. -/
def farTimeoutFence (s : State) (pa : Nat) (own : State → State) : State :=
  let c := farChan s pa
  if (fchOf s c).st = 2 then fenceOut (fenceChan s c 0) (farOut s c) own else own s

/-- FAR_ACCESS_TIMEOUT (10 R249, 09 Table MEM-6). -/
def execFarAccessTimeout (c j pa : Nat) (s : State) : Out :=
  if 64 ≤ c then .refused .illFormed
  else if paKind pa = .reserved then .fault .reservedAddress
  else guardNext (fwUp s && (fchOf s c).st = 2 && paKind pa = .far && farChan s pa = c
      && ((jobOf s j).any fun x => x.running.isSome)) .notEnabled
    (farTimeoutFence s pa fun s => requestError s j 0x0404 pa)

/-- The window of R249 that holds now: consecutive 1 s windows from the training that started the count (11 R271). -/
def farRoll (now : Nat) (x : FChan) : FChan :=
  if x.winAt + 1000000 ≤ now then { x with win := 0, winAt := now - (now - x.winAt) % 1000000 } else x

/-- An uncorrectable far-memory read counted, with the fence at UE_FENCE in one window (10 R249), then what the access itself ends. -/
def farUeFence (s : State) (pa : Nat) (own : State → State) : State :=
  let c := farChan s pa
  let x := farRoll s.now (fchOf s c)
  let s := { s with fchans := tset s.fchans c { x with ue := satAdd 16 x.ue 1, win := x.win + 1 } }
  if s.ueFence ≤ x.win + 1 && x.st = 2 then fenceOut (fenceChan s c 1) (farOut s c) own else own s

/-- An uncorrectable far-memory read ends the request (09 Table MEM-6). -/
def farUeErr (s : State) (j pa : Nat) : State := farUeFence s pa fun s => requestError s j 0x0403 pa

/-- A corrected far-memory read counted (10 Table VLT-9). -/
def farCe (s : State) (pa : Nat) : State :=
  { s with fchans := tmod {} s.fchans (farChan s pa) fun x => { x with ce := satAdd 24 x.ce 1 } }

/-- FAR_UE_WINDOW_END: the 1 s window of R249 ends (11 R271). -/
def execFarUeWindowEnd (c : Nat) (s : State) : Out :=
  if 64 ≤ c then .refused .illFormed
  else
    guardNext (fwUp s && (fchOf s c).winAt + 1000000 ≤ s.now) .notEnabled
      { s with fchans := tset s.fchans c (farRoll s.now (fchOf s c)) }

/-- FAR_REFRESH_READ (10 R250): the package's indication sets the refresh band of its four channels. -/
def execFarRefreshRead (pkg : Nat) (hot : Bool) (s : State) : Out :=
  if 16 ≤ pkg then .refused .illFormed
  else guardNext (fwUp s && s.boot.admitReady && (fchOf s (4 * pkg)).st != 0) .notEnabled
    ((List.range 4).foldl (fun s i => { s with fchans := tmod {} s.fchans (4 * pkg + i) fun x => { x with hot := hot } }) s)

/-- A far-memory failure on a page of a model-cache unit (09 R231): the unit is evicted, and a load from it fails. -/
def farCacheFail (s : State) (u : PUnit) : State :=
  let s := { s with pool := s.pool.filter fun v => v.2 != u }
  if (tfind s.models u.owner).any fun m => m.st = .loading && m.src = 0 then modelFail s u.owner 0x0600 else s

/-- A far-memory write of job `j` is lost: the page of a model-cache unit, or a job's. -/
def farLost (s : State) (j pa : Nat) : State :=
  match s.pool.find? fun u => u.2.kind = 0 && u.2.pages.contains (pa / 2 ^ 21) with
  | some u => farCacheFail (reqErrRec s 0 0x0406 pa) u.2
  | none =>
    match jobOf s j with
    | some x => if x.running.isSome then requestError s j 0x0406 pa else setJob (farTouched s j pa) j { x with farLost := some pa }
    | none => reqErrRec s 0 0x0406 pa

/-- FAR_WRITE_LOST (09 R230): the running request ends; with none running the next dispatch is refused; a released job is only
logged. -/
def execFarWriteLost (c j pa : Nat) (s : State) : Out :=
  if 64 ≤ c then .refused .illFormed
  else if paKind pa = .reserved then .fault .reservedAddress
  else
    guardNext (fwUp s && paKind pa = .far && (fchOf s c).st != 0) .notEnabled (farLost s j pa)

/-- HOST_COMPLETION_TIMEOUT (09 Table MEM-6, R229): the request ends with HOST_ERROR. -/
def execHostCompletionTimeout (j pa : Nat) (s : State) : Out :=
  if paKind pa = .reserved then .fault .reservedAddress
  else guardNext (fwUp s && paKind pa = .window && ((jobOf s j).any fun x => x.running.isSome)) .notEnabled
    (requestError s j 0x0407 pa)

end Sys2Proof.Machine
end

