-- ==== Sys2Proof/Machine/Boot.lean ====
section
/-! DEFINITION. Resets and boot (19 R415 to R417; 17 R378 to R383; 18 R405, R406; 10 R238, R239, R245, R248), and the device
fault (19 R430). -/
namespace Sys2Proof.Machine

/-! Firmware slots (17 Table SEC-2, R379, R380). -/

/-- Bytes of a string. -/
def strBytes (x : String) : List Nat := x.toList.map Char.toNat

/-- A byte of the board's flash (log 13: an unwritten byte is erased, and an absent flash reads so). -/
def flashByte (s : State) (a : Nat) : Nat := if s.evr.absent then 0xFF else ((cellAt s.flash a).getD 0xFF).toNat

/-- A firmware slot as the ROM sees it: the result of R379 (0 valid, 1 to 5 the first failing check, 6 empty) and its fields. -/
structure Slot where
  res : Nat
  version : Nat
  svn : Nat
  advance : Bool
  digest : List Nat
  header : List Nat
deriving DecidableEq, Repr

/-- R379, checks 1 to 5 in their order; a BODY_LEN out of its range fails check 4 (log 13). -/
def slotRes (fz : Fuses) (rd : Nat → Nat) : Nat :=
  let len := rdLe rd 0xC 4
  if (rdBytes rd 0 64).all (· == 0xFF) then 6
  else if rdLe rd 0 4 != 1 || 2 ≤ rd 9 || rdLe rd 0xA 2 != 0 then 1
  else if Config.shake256 (rdBytes rd 0x10 64) 64 != fz.fwkeyHash then 2
  else if !Config.slhVerify .shake256s (rdBytes rd 0x10 64) ([0, 0] ++ rdBytes rd 0 0x90) (rdBytes rd 0x90 29792) then 3
  else if len = 0 || 8355840 < len || Config.shake256 (rdBytes rd 0x8000 len) 64 != rdBytes rd 0x50 64 then 4
  else if rd 8 < fz.rollback then 5
  else 0

/-- A slot read and checked; its header is that of Table SEC-2. -/
def slotAt (fz : Fuses) (rd : Nat → Nat) : Slot :=
  { res := slotRes fz rd, version := rdLe rd 4 4, svn := rd 8, advance := rd 9 % 2 = 1, digest := rdBytes rd 0x50 64,
    header := rdBytes rd 0 0x74F0 }

/-- Slot `n` of the flash. One in which a FLASH_PROGRAM was interrupted by a power loss is invalid until that sector is erased (21 Table PKG-9); which check
fails is free. -/
def flashSlot (s : State) (n : Nat) : Slot :=
  let x := slotAt s.fuse fun i => flashByte s (n * 0x800000 + i)
  match s.flashCuts.find? fun c => n * 0x800000 ≤ c.1 && c.1 < (n + 1) * 0x800000 with
  | some c => { x with res := 1 + Config.freeNat c.2 % 5 }
  | none => x

/-- The slot that a strap selects (R380, R381): none where the ROM goes to recovery. -/
def bootSlot (strap : Nat) (a b : Slot) : Option Nat :=
  match strap with
  | 0 =>
    if a.res = 0 && b.res = 0 then (if a.version < b.version then some 1 else some 0)
    else if a.res = 0 then some 0 else if b.res = 0 then some 1 else none
  | 1 => if a.res = 0 then some 0 else none
  | 2 => if b.res = 0 then some 1 else none
  | _ => none

/-- The events of Table SEC-3, in normal boot. -/
def slotEvents (s : State) (a b : Slot) : State :=
  if s.boot.strap != 0 then s
  else if a.res = 0 && b.res = 0 then
    if a.version = b.version && a.header != b.header then
      evrAdd s 0x0A10 1 1 [a.version, b.version, ofLe (a.digest.take 4), ofLe (b.digest.take 4)]
    else s
  else if a.res = 0 && b.res != 6 then evrAdd s 0x0A11 2 1 [1, b.res]
  else if b.res = 0 && a.res != 6 then evrAdd s 0x0A11 2 1 [0, a.res]
  else s

/-! The store (18 R406). -/

/-- R406: the bank used (0 A, 1 B, 2 defaults) and whether STORE_BANK_DIFFER is written. -/
def bankChoice (a b : Option (List Nat)) : Nat × Bool :=
  match bankOf a, bankOf b with
  | some x, some y =>
    let d := (x.seq + 2 ^ 32 - y.seq) % 2 ^ 32
    if d = 0 then (0, (a.getD []).take 0x3FFC != (b.getD []).take 0x3FFC)
    else if d = 2 ^ 31 then (0, true) else if d < 2 ^ 31 then (0, false) else (1, false)
  | some _, none => (0, false)
  | none, some _ => (1, false)
  | none, none => (2, false)

/-- The fields of the bank that R406 selects. -/
def chosenBank (s : State) : Option Bank :=
  let k := (bankChoice s.bankA s.bankB).1
  if k = 2 then none else bankOf (bankAt s k)

/-- The store taken at a warm boot from the flash copies (19 R417 step 5); the power-cycle count and the operating time carry on (R408). -/
def warmStore (s : State) : State :=
  match chosenBank s with
  | some b => { s with lastBank := (bankChoice s.bankA s.bankB).1
                       boot := { s.boot with storeBank := (bankChoice s.bankA s.bankB).1, seq := b.seq, board := b.board, repair := b.repair } }
  | none => s

/-- The store taken at a cold boot (R406, R407): the working copy, the raised power-cycle count; a store write is due. -/
def loadStore (s : State) : State :=
  let k := bankChoice s.bankA s.bankB
  match chosenBank s with
  | some b => { s with lastBank := k.1, boot := { s.boot with storeBank := k.1, seq := b.seq, opBase := b.secs, board := b.board
                                                              repair := b.repair, pcyc := min (b.pcyc + 1) 0xFFFFFF } }
  | none => { s with lastBank := 1, boot := { s.boot with storeBank := 2, seq := 0, opBase := 0, board := defaultBoard
                                                          repair := [], pcyc := 1 } }

/-- The events of R406, of the banks that a cold boot found. -/
def storeEvents (a b : Option (List Nat)) (s : State) : State :=
  let k := bankChoice a b
  if k.1 = 2 then evrAdd s 0x0B15 2 0 []
  else if k.2 then
    let q := fun (o : Option (List Nat)) => recFld (o.getD []) 8 4
    evrAdd s 0x0B14 1 0 [q a, q b, bankCrc a, bankCrc b]
  else s

/-! Vault training (10 R237 to R239). -/

/-- A channel after training with failing physical lanes; lane 74 fails the channel. More than two failing lanes disable it. -/
def trainChan (lanes : List Nat) : VChan :=
  let l := (lanes.eraseDups).mergeSort (· ≤ ·)
  if 2 < l.length || l.any (74 ≤ ·) then { dis := true } else { f0 := l[0]?, f1 := l[1]? }

/-- Lanes a channel was steered around, or 74 where it is disabled: what a warm boot keeps. -/
def trainedLanes (x : VChan) : List Nat := if x.dis then [74] else x.f0.toList ++ x.f1.toList

/-- All channels trained: a cold boot fails the lanes of the repair list, a warm boot keeps the steering (R238). -/
def trainVaults (old : Tbl VChan) (repair : List (Nat × Nat × Nat)) (cold : Bool) (fails : List (Nat × Nat)) : Tbl VChan :=
  let kept := if cold then repair.map fun r => (r.1 * 64 + r.2.1, r.2.2 - 1)
    else old.flatMap fun c => (trainedLanes c.2).map fun l => (c.1, l)
  let all := kept ++ fails
  (all.map (·.1)).eraseDups.foldl (fun t c => tset t c (trainChan ((all.filter (·.1 == c)).map (·.2)))) []

/-- VAULT_OFFLINE for each vault out of service, and ALERT_CAUSE bit 4 (R239, 19 Table PWR-9). -/
def vaultEvents (s : State) : State :=
  (List.range 32).foldl (fun s v =>
    if 8 < vaultK s v then
      evrAdd { s with power := { s.power with alert := s.power.alert ||| 16 } } 0x0610 2 (0x10 + v) [v, vaultK s v]
    else s) s

/-! Resets. -/

/-- Power-cycle fields kept through a warm reset: the store's working copy and operating time (R408). -/
def warmBoot (s : State) : Boot :=
  { opBase := opSecs s, pcyc := s.boot.pcyc, seq := s.boot.seq, board := s.boot.board, repair := s.boot.repair,
    storeDue := s.boot.storeDue, storeBank := s.boot.storeBank, cal := s.boot.cal, calNew := s.boot.calNew, lastFault := s.boot.lastFault,
    jtagIr := s.boot.jtagIr, jtagDr := s.boot.jtagDr, jtagTdo := s.boot.jtagTdo, jtagOn := s.boot.jtagOn, wdogAt := s.boot.wdogAt, coldDue := s.boot.coldDue, warm := true }

/-- A spire's counters since cold reset (03 Table SPI-10). -/
def spCounts (x : Spire) : Spire := { cycles := x.cycles, eccBank := x.eccBank, eccSrc := x.eccSrc, eccCnt := x.eccCnt }

/-- Everything that a reset clears is at its reset value; a warm reset keeps the counts that only a cold reset clears (log 17). -/
def resetState (s : State) (warm : Bool) : State :=
  let b : Boot := if warm then warmBoot s else {}
  let s0 : State :=
    { pending := s.pending, now := s.now, freeCtr := s.freeCtr, ids := s.ids, fuse := s.fuse, hmem := s.hmem
      msixOut := s.msixOut, fabOut := s.fabOut, bankA := s.bankA, bankB := s.bankB, lastBank := s.lastBank, calib := s.calib
      flash := s.flash, flashCuts := s.flashCuts, flashOps := s.flashOps.map fun o => { o with ends := [] }, vchans := s.vchans
      evr := { absent := s.evr.absent, flash := s.evr.flash }
      power := { vddMv := s.power.vddMv, avs := s.power.avs, ioOut := warm && s.power.ioOut }
      boot := { b with stage := .rom, pwrgd := s.boot.pwrgd, perstN := s.boot.perstN, strap := s.boot.strap
                       uart := [Config.bootCode 0], faultN := s.boot.faultN, draws := s.boot.draws, farBoot := s.boot.farBoot, resetAt := s.now } }
  if !warm then s0
  else
    { s0 with
      evr := { s0.evr with full := s.evr.full, flashFail := s.evr.flashFail, stampSec := s.evr.stampSec, stampSub := s.evr.stampSub }
      spires := s.spires.map fun x => (x.1, spCounts x.2)
      slices := s.slices.map fun x => (x.1, { ce := x.2.ce, ueClean := x.2.ueClean, ueCount := x.2.ueCount })
      arbs := s.arbs.map fun x => (x.1, { dead := x.2.dead, pqFull := x.2.pqFull, grants := x.2.grants })
      ports := s.ports.map fun x =>
        (x.1, { media := x.2.media, retries := x.2.retries, fcsErr := x.2.fcsErr, stray := x.2.stray, linkDowns := x.2.linkDowns
                swRefused := x.2.swRefused, swGranted := x.2.swGranted })
      video := { engines := s.video.engines.map (fun e => (e.1, { frames := e.2.frames, switches := e.2.switches })), lost := s.video.lost }
      gates := s.gates.map fun x => (x.1, { gateReset x.1 with refused := x.2.refused })
      therms := s.therms.map fun x => (x.1, { throtMs := x.2.throtMs })
      power := { s0.power with clampUs := s.power.clampUs }
      glb := { badAccess := s.glb.badAccess } }

/-- Keys of the boot (17 R383): the identity key signs the alias certificate; the alias key stays. -/
def deriveKeys (s : State) (i : Slot) : State :=
  let id := Config.slhKeygen .shake256s (Config.shake256 (s.fuse.uds ++ strBytes "ubh identity") 96)
  let rnd := Config.entropy s.boot.draws 32
  let al := Config.slhKeygen .shake256f (Config.shake256 (s.fuse.uds ++ strBytes ("ubh ali" ++ "as") ++ i.digest ++ rnd) 96)
  { s with boot := { s.boot with
      aliasKey := al.1, aliasPub := al.2, udsLocked := true, draws := s.boot.draws + 1
      cert := Config.aliasCert id.1 al.2 i.version i.svn s.fuse.rollback i.digest } }

/-- MEDIA of the ports from the board configuration in effect (18 R406). -/
def loadMedia (s : State) : State :=
  (List.range 4).foldl (fun s p => modPort s p fun x => { x with media := nth s.boot.board p % 4 }) s

/-- The calibration set in effect after a boot: the stored one where it is valid (18 R409); one that CALIB_WRITE has stored takes effect at
the next cold boot (18 R410). -/
def bootCal (s : State) (cold : Bool) : Option (List Nat) := if cold || !s.boot.calNew then s.calib.filter calOk else s.boot.cal

/-- The lantern scans the flash ring (18 R398). With FLASH_FAIL still set the RAM ring takes the newest 4,096 of its records (DESIGN CHOICE, log 56). -/
def scanLog (e : Evr) : Evr :=
  let e := { e with flash := ringScan e.flash }
  if e.flashFail then
    let l := recSort (evrLive e)
    { e with ram := l.drop (l.length - 4096) }
  else e

/-- The boot key K_B of far memory is drawn (17 R390). -/
def drawBootKey (s : State) : State :=
  { s with farKeys := tset s.farKeys bootKeySlot s.boot.draws, boot := { s.boot with draws := s.boot.draws + 1 } }

/-- The corrected symbols that the march test met count (10 R238 step 7), in the channels that went through it: every one at a cold boot, at a
warm boot those that failed verification. -/
def marchCounts (cold : Bool) (fails : Met (List (Nat × Nat))) (s : State) : State :=
  fails.ev.foldl (fun s e => match e with
    | .vaultCe v c i => if cold || fails.val.any (·.1 == v * 64 + c) then vaultCe s v c i else s
    | _ => s) s

/-- The firmware starts (R417 steps 3 to 6; 17 R382): store, calibration, vault training, records, link. `slot` is 0, 1 or 2. -/
def fwStart (s : State) (slot : Nat) (i : Slot) (evs : State → State) (fails : Met (List (Nat × Nat))) : State :=
  let cold := s.boot.coldDue
  let banks := (s.bankA, s.bankB)
  let s := drawBootKey (deriveKeys s i)
  let s := if cold then loadStore s else warmStore s
  let cal := bootCal s cold
  let old := s.fuse.rollback
  let adv := i.advance && old < i.svn
  let wd := s.boot.wdogAt
  let s := { s with
    fuse := { s.fuse with rollback := if adv then min i.svn 64 else old }
    vchans := trainVaults s.vchans s.boot.repair cold fails.val
    mem := {}
    evr := scanLog s.evr
    boot := { s.boot with
      uart := s.boot.uart ++ [Config.bootCode 2], stage := .firmware, faultN := true, slot := slot, svn := i.svn, version := i.version, body := i.digest, opSince := s.now
      cal := cal, calValid := cal.isSome, calUser := cal.any fun c => nth c 8 == 1, trained := true
      calNew := s.boot.calNew && !cold, linkUp := s.boot.perstN, wdogAt := none, coldDue := false, recImg := [] } }
  let s := marchCounts cold fails s
  let s := bootVdd (if cold then loadMedia s else s)
  let s := if cold || s.boot.storeDue then storeWrite s .done else s
  let s := evrAdd s 0x0B10 0 0 [b2n s.boot.warm, slot, s.boot.storeBank, (cal.map fun c => nth c 8).getD 2]
  let s := if cold then storeEvents banks.1 banks.2 s else s
  let s := if (s.calib.filter calOk).isNone then evrAdd s 0x0B16 2 0 [] else s
  let s := evs s
  let s := if slot = 2 then evrAdd s 0x0A13 1 1 [] else s
  let s := if adv then evrAdd s 0x0A12 1 1 [old, min i.svn 64] else s
  let s := match wd with
    | some t => evrAdd s 0x0C14 3 9 [t]
    | none => s
  vaultEvents s

/-- The ROM runs (R417 step 2, 17 R380, R381): it starts a slot or waits in recovery. -/
def romRun (s : State) (fails : Met (List (Nat × Nat))) : State :=
  let a := flashSlot s 0
  let b := flashSlot s 1
  match bootSlot s.boot.strap a b with
  | some n => fwStart s n (if n = 0 then a else b) (fun s => slotEvents s a b) fails
  | none => { s with boot := { s.boot with uart := s.boot.uart ++ [Config.bootCode 1], stage := .recovery, faultN := s.boot.faultN && s.boot.strap = 3 } }

/-- A cold or warm reset from its starting edge. -/
def doBoot (s : State) (warm : Bool) (fails : Met (List (Nat × Nat))) : State := romRun (resetState s warm) fails

/-- The straps sampled at the starting edge of a reset that the device starts itself (21 R447): the board may have changed them, so what is
sampled is a free value (log 11). -/
def freeStrap (s : State) : State :=
  let v := freshVal s 2
  { v.2 with boot := { s.boot with strap := v.1 } }

/-- A warm reset that the device starts itself; it waits in recovery after a recurring device fault (R430). -/
def selfReset (s : State) (recover : Bool) : State :=
  if recover then
    let s := resetState (freeStrap s) true
    { s with boot := { s.boot with uart := s.boot.uart ++ [Config.bootCode 1], stage := .recovery, faultN := false } }
  else doBoot (freeStrap s) true { val := [] }

/-- The last steps of a device fault (R430): DEVICE_FAULT is flushed and the warm reset starts, or recovery when the fault recurs within 10 s. They
run at the next microsecond, so that a trip or a fall of PERST_N can come before them (Table PWR-6; log 57). -/
def faultReset (s : State) : State := selfReset (evrFlushAll s) s.boot.recur

/-- A device fault (R430): FAULT_N low, every job ended, DEVICE_FAULT recorded; the host finds the link down from then on (R431). -/
def deviceFault (s : State) (cause src addr : Nat) : State :=
  if !fwUp s then s
  else
    let s := { s with boot := { s.boot with faultN := false } }
    let r := faultJobs s cause fun _ => true
    let s := evrAdd r.1 0x0541 3 0 [cause, src, fld addr 47 16, r.2]
    let again := s.boot.lastFault.any fun t => s.now < t + 10000000
    { s with boot := { s.boot with stage := .fault, linkUp := false, recur := again, lastFault := some s.now } }

/-- May failing lanes be named? -/
def failsOk (fails : Met (List (Nat × Nat))) : Bool :=
  (fails.val.all fun f => f.1 < 2048 && f.2 ≤ 74) && fails.ev.all fun e => match e with
    | .vaultCe v c i => v < 32 && c < 64 && i < 72
    | _ => false

/-- COLD_RESET (R416, R417): PWRGD rises. The regulator starts VDD_CORE at 0.75 V, whatever it held while PWRGD was low (21 R451; DESIGN CHOICE,
log 42: the spec does not say that it has lost its power). -/
def execColdReset (strap : Nat) (fails : Met (List (Nat × Nat))) (s : State) : Out :=
  if 4 ≤ strap || !failsOk fails then .refused .illFormed
  else guardNext (!s.boot.pwrgd) .notEnabled
    (doBoot { s with boot := { s.boot with pwrgd := true, strap := strap, faultN := true }, power := { s.power with vddMv := 750 } } false fails)

/-- PWRGD_FALL (R415, R426): held in cold reset; every output is high-impedance; what no power needs stays, but for what a flash
operation under way leaves (18 R411, 21 Table PKG-9). -/
def powerOff (s : State) : State :=
  let r := resetState (flashLoss s) false
  { r with boot := { r.boot with stage := .off, pwrgd := false, perstN := false, faultN := true, thermtripN := true, uart := [] }, mem := {}, far := {} }

/-- PWRGD_FALL. -/
def execPwrgdFall (s : State) : Out := guardNext s.boot.pwrgd .notEnabled (powerOff s)

/-- WARM_RESET (R416, R417): PERST_N falls while PWRGD is high. A device stopped by a trip returns only by a cold reset (R426). -/
def execWarmReset (strap : Nat) (fails : Met (List (Nat × Nat))) (s : State) : Out :=
  if 4 ≤ strap || !failsOk fails then .refused .illFormed
  else guardNext (s.boot.pwrgd && s.boot.perstN && s.boot.stage != .stopped) .notEnabled
    (doBoot { s with boot := { s.boot with perstN := false, strap := strap } } true fails)

/-- Milliseconds since the starting edge of the reset. -/
def sinceReset (s : State) : Nat := (s.now - s.boot.resetAt) / 1000

/-! The flash commands of the management pair (21 R449). -/

/-- The status bytes that the next read returns. -/
def mgmtReply (s : State) (bs : List Nat) : State := { s with boot := { s.boot with mgmt := bs } }

/-- The reply to a flash command of the pair, once the operations before it and its own have ended: 01h, busy, until then (R395). -/
def flashReply (s : State) (bs : List Nat) : State :=
  if s.flashOps.isEmpty then mgmtReply s bs else flashThen (mgmtReply s [1]) [.reply bs]

/-- A sector erased; a second failure ends it unfinished: its bytes are free values drawn one by one (18 R404). -/
def flashErased (s : State) (a : Nat) (ok : Bool) : State :=
  let f := s.flash
  if ok && !flashFails s a 0 .done then
    flashReply (flashBegin { s with flash := Memory.drop f a 65536, flashCuts := s.flashCuts.filter fun c => c.1 < a || a + 65536 ≤ c.1 }
      (.slots a 65536 false f s.flashCuts)) [0]
  else
    let i := freshId s
    let bs := (List.range 65536).map fun k => (Config.freeByte i.1 (a + k)).toNat
    flashReply (flashFailRec { i.2 with flash := Memory.put (fun _ => some 255) f a bs } a 0 0) [3]

/-- Bytes programmed: flash bits go from 1 to 0; after a second failure the bytes are free values (18 R404). -/
def flashProgrammed (s : State) (a : Nat) (bs : List Nat) (ok : Bool) : State :=
  let put := fun (s : State) bs => { s with flash := Memory.put (fun _ => some 255) s.flash a bs }
  if ok && !flashFails s a 1 .done then
    flashReply (flashBegin (put s (bs.mapIdx fun i b => flashByte s (a + i) &&& b)) (.slots a bs.length true s.flash s.flashCuts)) [0]
  else
    let i := freshId s
    flashReply (flashFailRec (put i.2 (bs.mapIdx fun k _ => (Config.freeByte i.1 (a + k)).toNat)) a 1 0) [3]

/-- A flash command of the pair carried out. -/
def flashDo (s : State) (c : FlashCmd) : State :=
  match c with
  | .read a n => flashReply s (0 :: rdBytes (flashByte s) a n)
  | .erase a ok => flashErased s a ok
  | .program a bs ok => flashProgrammed s a bs ok

/-- PERST_N deasserted (R417 steps 5 and 6): link training, PERST_EARLY, the flash writes that waited. -/
def perstUp (s : State) : State :=
  let s := { s with boot := { s.boot with perstN := true, linkUp := fwUp s } }
  if !fwUp s then s
  else
    let early := sinceReset s < (if s.boot.warm then 290 else 500)
    let s := if early then evrAdd s 0x0C15 1 9 [sinceReset s] else s
    let s := if s.boot.storeDue then storeWrite s .done else s
    s.boot.mgmtQ.foldl flashDo { s with boot := { s.boot with mgmtQ := [] } }

/-- PERST_N_DEASSERT (R417). -/
def execPerstNDeassert (s : State) : Out :=
  guardNext (s.boot.pwrgd && !s.boot.perstN && s.boot.stage != .stopped) .notEnabled (perstUp s)

/-! Far-memory training (10 R245 to R248). -/

/-- The attachments of the eight-package population. -/
def eightSet : List Nat := [0, 2, 4, 6, 9, 11, 13, 15]

/-- Density code of the package of an attachment; 3 absent or not accepted. A package is listed by its density, or 3 where it is
not accepted. -/
def pkgDensity (s : State) (a : Nat) : Nat :=
  match s.fuse.far.getD a none with
  | some d => min d 3
  | none => 3

/-- Is a package present? -/
def pkgThere (s : State) (a : Nat) : Bool := (s.fuse.far.getD a none).isSome
/-- Is a package in the population and accepted (R245)? -/
def pkgUsed (s : State) (a : Nat) : Bool :=
  ((List.range 16).all (pkgThere s) || eightSet.contains a) && pkgDensity s a < 3

/-- The smallest density code in use. -/
def minDensity (s : State) : Nat := (((List.range 16).filter (pkgUsed s)).map (pkgDensity s)).foldl min 2

/-- The state of a channel after training. -/
def trainedFar (s : State) (fails : List Nat) (c : Nat) : FChan :=
  let a := c / 4
  { density := pkgDensity s a, winAt := s.now
    st := if !pkgThere s a then 0 else if !pkgUsed s a then 1 else if fails.contains c then 3 else 2 }

/-- FAR_POPULATION for a package left untrained or of a density above the smallest in use (R245). -/
def farEvents (s : State) : State :=
  (List.range 16).foldl (fun s a =>
    if !pkgThere s a then s
    else if pkgDensity s a = 3 then evrAdd s 0x0620 1 3 [a, 3, 1]
    else if !pkgUsed s a then evrAdd s 0x0620 1 3 [a, pkgDensity s a, 0]
    else if minDensity s < pkgDensity s a then evrAdd s 0x0620 1 3 [a, pkgDensity s a, 2]
    else s) s

/-- FAR_MEMORY_TRAINING (R248, R417): after link training has started; boot completes and the arbiter mode returns to 0 (11 R267). -/
def execFarMemoryTraining (fails : List Nat) (s : State) : Out :=
  if fails.any (64 ≤ ·) then .refused .illFormed
  else guardNext (hostUp s && !s.boot.admitReady) .notEnabled
    (let s := { s with fchans := (List.range 64).map fun c => (c, trainedFar s fails c), far := {}, farEpoch := []
                       farTags := [], gates := (List.range 64).foldl (fun g c =>
                         if (trainedFar s fails c).st = 2 then tset g (40 + c) { tget {} g (40 + c) with en := true, st := 2 } else g) s.gates }
     let s := farEvents s
     { s with boot := { s.boot with admitReady := true, farBoot := s.boot.farBoot + 1 }, netMode := 0 })

/-- LANTERN_WATCHDOG_EXPIRY (19 R432): FAULT_N low and a warm reset, without ending the jobs. -/
def execLanternWatchdogExpiry (s : State) : Out :=
  guardNext (fwUp s) .notRunning
    (doBoot (freeStrap { s with boot := { s.boot with faultN := false, wdogAt := some (opSecs s) } }) true { val := [] })

/-- MGMT_RECOVERY_BOOT (21 R449, 17 R381): the image in the buffer is verified and booted, or the status is 03h. -/
def recoveryBoot (s : State) (len : Nat) (fails : Met (List (Nat × Nat))) : State :=
  let rd := fun i => if i < len then ((cellAt s.boot.recImg i).getD 0).toNat else 0xFF
  let i := slotAt s.fuse rd
  if s.boot.stage != .recovery then { s with boot := { s.boot with mgmt := [2] } }
  else if i.res = 0 && 0x8000 + rdLe rd 0xC 4 ≤ len then
    let s := fwStart s 2 i id fails
    { s with boot := { s.boot with mgmt := [0] } }
  else { s with boot := { s.boot with mgmt := [3] } }

/-- MGMT_RECOVERY_BOOT. -/
def execMgmtRecoveryBoot (len : Nat) (fails : Met (List (Nat × Nat))) (s : State) : Out :=
  if 2 ^ 32 ≤ len || !failsOk fails then .refused .illFormed
  else guardNext (s.boot.pwrgd && s.boot.stage != .stopped) .notRunning (recoveryBoot s len fails)

end Sys2Proof.Machine
end

