-- ==== Sys2Proof/Machine/Events.lean ====
section
/-! DEFINITION. What the errors that an instruction's accesses meet do (03 R85; 09 R228, R233; 10 R241; 13 Table SCH-6). -/
namespace Sys2Proof.Machine

/-- The job that owns a vault or dome-store address; a frame's pages lie in the vaults of the interleave set (09 R218). -/
def ownerOf (s : State) (pa : Nat) : Option Nat :=
  let q := (pa % 2 ^ 32) / 2 ^ 21
  let v := pa / 2 ^ 32
  (s.jobs.find? fun k => match paKind pa with
    | .vault => k.2.vpages.contains (v * 2048 + q) || (inIlv s v && k.2.frames.contains q)
    | .dome =>
      let n := (pa - 0x004000000000) / 2 ^ 21
      k.2.dsp.contains n && !k.2.away.contains n
    | _ => false).map (·.1)

/-- The hot-set entry that holds the frame of a vault address. -/
def modelOf (s : State) (pa : Nat) : Option Nat :=
  if inIlv s (pa / 2 ^ 32) then (s.models.find? fun m => m.2.frames.contains ((pa % 2 ^ 32) / 2 ^ 21)).map (·.1) else none

/-- The entry returns to LOADING and reloads from its source, a cached copy pinned (13 Table SCH-6; 09 R226 item 2). -/
def modelReload (s : State) (h : Nat) : State :=
  match tfind s.models h with
  | some m =>
    if m.st = .evicting then s
    else
      let s := if m.st != .loading && m.src = 0 then cachePin s h true else s
      { s with models := tset s.models h { m with st := .loading, reload := true } }
  | none => s

/-- A job fault detected at logical spire `l`; the spire is FAULTED until the release clears it. -/
def spireFault (s : State) (p j cause param : Nat) : State :=
  let l := ((spOf s p).run.map (·.lidx)).getD 0
  jobFault (modSp s p fun x => { x with st := .faulted, cause := cause, param := param }) j cause l 0

/-- A corrected error in a spire (03 R85). -/
def spireCorrected (s : State) (p src bank : Nat) : State :=
  modSp s p fun x => { x with eccCnt := satAdd 32 x.eccCnt 1, eccSrc := src % 8, eccBank := bank % 32 }

/-- The cause of an uncorrectable error in a spire by its source (03 R85; Table SPI-10): SCRATCH_UE, ACC_UE, and STATE_UE for vector
registers as for sequencer state (DEDUCED, log 49: R85 names ACC_UE and STATE_UE for the three together). -/
def spireUeCause (src : Nat) : Nat := if src = 0 then 1 else if src = 1 then 2 else 3

/-- An uncorrectable vault error (09 Table MEM-6), met by an access of job `j`, or by the patrol or the lantern; `kind` is VLT_UE.KIND
where it is not that of the page. -/
def vaultUncorrectable (s : State) (j : Option Nat) (pa : Nat) (kind : Option Nat := none) : State :=
  if 2032 ≤ (pa % 2 ^ 32) / 2 ^ 21 then deviceFault (vaultUeRec s pa (kind.getD 2)) 0x0501 (0x10 + pa / 2 ^ 32) pa
  else
    match modelOf s pa with
    | some h =>
      let s := modelReload (vaultUeRec s pa (kind.getD 1)) h
      match j with
      | some j => jobFault s j 0x0502 0 pa
      | none => s
    | none =>
      let s := vaultUeRec s pa (kind.getD 0)
      match (ownerOf s pa).or j with
      | some k => jobFault s k 0x0502 0 pa
      | none => s

/-- Does an address lie in the system area of a vault (09 R217)? -/
def sysArea (pa : Nat) : Bool := paKind pa = .vault && 2032 ≤ (pa % 2 ^ 32) / 2 ^ 21

/-- Is a line's class one that its address can have (Table MEM-6): scratch is a job's, and an error of the system area the device's? -/
def domeClsOk (pa cls : Nat) : Bool := if paKind pa = .dome then cls = 0 else if sysArea pa then cls = 2 else cls < 3

/-- Does an enabled partition claim a way of its slice, as scratch or as cache (Table MEM-4)? -/
def partClaims (v w : Nat) : Bool := bitOf v (12 + w / 4) || (fld v 3 0 ≤ w && w < fld v 3 0 + fld v 8 4)

/-- Can a line of a class stand in the dome store (09 R221): a job's in its partition's cache ways, where it has some; another in the common
partition, where that has ways? `h` is the handle of the job that a far-memory line is a job's of. -/
def lineOk (s : State) (h pa cls : Nat) : Bool :=
  let sl := (homeSlice pa).getD 0
  let parts := ((List.range 8).map fun n => tget 0 s.dsPart (sl * 8 + n)).filter (bitOf · 31)
  if paKind pa = .dome then true
  else if cls = 0 then parts.any fun v => fld v 47 32 = ((ownerOf s pa).map (jobHandle s)).getD h && 0 < fld v 8 4
  else (List.range 16).any fun w => !parts.any (partClaims · w)

/-- An uncorrectable dome-store error (09 Table MEM-6): class 0 a job's line, 1 a clean common line, 2 a dirty or system line, as far as the
address allows (`domeClsOk`, of which `evOk` makes sure). -/
def domeUncorrectable (s : State) (j pa cls : Nat) : State :=
  if cls = 0 then
    jobFault (domeUeRec s pa (if paKind pa = .dome then 0 else 1)) ((ownerOf s pa).getD j) 0x0500 0 pa
  else if cls = 1 then domeUeRec s pa 2
  else
    deviceFault (domeUeRec s pa (if sysArea pa then 4 else 3)) 0x0501 (0x10 + (homeSlice pa).getD 0) pa

/-- A corrected dome-store error counted (20 Table REG-7). -/
def domeCe (s : State) (sl : Nat) : State :=
  { s with slices := tmod {} s.slices sl fun x => { x with ce := satAdd 16 x.ce 1 } }

/-- The port that a bank grants its line (03 R82): of the oldest instruction, then the first in the order activation, weight, output,
vector, mover. -/
def bankWinner (ports : List (Nat × Nat)) : Option (Nat × Nat) :=
  ports.foldl (fun b q => match b with
    | some a => if q.1 < a.1 || (q.1 = a.1 && q.2 < a.2) then some q else some a
    | none => some q) none

/-- A cycle of a scratchpad bank (03 R82): every port of an instruction in flight that is not granted waits. -/
def bankCycle (x : Spire) (ports : List (Nat × Nat)) : Spire :=
  let l := ports.eraseDups.filter fun q => x.infl.any fun f => f.seq = q.1
  { x with stalls := satAdd 64 x.stalls (l.filter fun q => some q != bankWinner l).length }

/-- What an access event does that ends nothing: corrected errors counted, and the waits at a bank. -/
def evMild (s : State) (p : Option Nat) (e : AccEv) : Option State :=
  match e with
  | .bankCycle _ ports => some (match p with | some p => modSp s p fun x => bankCycle x ports | none => s)
  | .spireCe src bank => some (match p with | some p => spireCorrected s p src bank | none => s)
  | .vaultCe v c i => some (vaultCe s v c i)
  | .domeCe sl => some (domeCe s sl)
  | .farCe pa => some (farCe s pa)
  | .domeUe pa cls => if cls = 1 then some (domeUeRec s pa 2) else none
  | .spireUe _ _ | .vaultUe _ | .farUe _ | .farTimeout _ | .farLost _ | .hostErr _ _ => none

/-- A further fault of a job that has ended is logged only (19 R428): its handle, cause, logical index and address. -/
def faultLog (s : State) (h cause idx addr : Nat) : State := evrAdd s 0x0540 2 0 [h, cause, idx, fld addr 47 16]

/-- An access event of an instruction of job `j` on spire `p` that faults the job or the device. -/
def evFault (s : State) (p j : Nat) (e : AccEv) : State :=
  match e with
  | .spireUe src at_ => if (spOf s p).job = some j then spireFault s p j (spireUeCause src) at_ else s
  | .vaultUe pa => vaultUncorrectable s (some j) pa
  | .domeUe pa cls => domeUncorrectable s j pa cls
  | _ => s

/-- The same once the job of handle `h` has ended: a fault that is its own is logged only. -/
def evFaultLate (s : State) (h l j : Nat) (e : AccEv) : State :=
  match e with
  | .spireUe src _ => faultLog s h (spireUeCause src) l 0
  | .vaultUe pa =>
    let t := vaultUncorrectable s none pa
    if 2032 ≤ (pa % 2 ^ 32) / 2 ^ 21 || (ownerOf s pa).isSome then t else faultLog t h 0x0502 0 pa
  | .domeUe pa cls =>
    if cls = 0 && (ownerOf s pa).isNone then faultLog (domeUeRec s pa (if paKind pa = .dome then 0 else 1)) h 0x0500 0 pa
    else domeUncorrectable s j pa cls
  | _ => s

/-- The faults of a list of events, of job `j` with handle `h` and its logical spire `l` on spire `p`: the first ends the job. -/
def evFaults (s : State) (p j h l : Nat) (ev : List AccEv) : State :=
  ev.foldl (fun s e => if jobHandle s j = h then evFault s p j e else evFaultLate s h l j e) s

/-- An access event of job `j` that ends its request; one that comes after the job's end is only logged (09 R231). -/
def evErr (s : State) (h j : Nat) (e : AccEv) : State :=
  let log := fun (st pa : Nat) => fun (s : State) =>
    if jobHandle s j = h then requestError s j st pa else reqErrRec s h st pa
  match e with
  | .farUe pa => farUeFence s pa (log 0x0403 pa)
  | .farTimeout pa => farTimeoutFence s pa (log 0x0404 pa)
  | .farLost pa => log 0x0406 pa s
  | .hostErr status pa => log status pa s
  | _ => s

/-- Does an event fault a job or the device? -/
def evFatal (e : AccEv) : Bool :=
  match e with
  | .spireUe _ _ | .vaultUe _ => true
  | .domeUe _ cls => cls != 1
  | _ => false

/-- The faults of a list of events, the one that its job ends with first: of several in one spire, the lowest cause (03 R92). -/
def evWorst (ev : List AccEv) : List AccEv :=
  let ue := fun c => ev.filter fun e => match e with
    | .spireUe src _ => spireUeCause src = c
    | _ => false
  ue 1 ++ ue 2 ++ ue 3 ++ ev.filter fun e => match e with
    | .spireUe _ _ => false
    | e => evFatal e

/-- The events of an instruction of job `j` on spire `p`: what ends nothing, then the faults, which prevail over request errors, then those
(09 R231). -/
def evAll (s : State) (p j : Nat) (ev : List AccEv) : State :=
  let h := jobHandle s j
  let l := ((spOf s p).run.map (·.lidx)).getD 0
  let s := evFaults (ev.foldl (fun s e => (evMild s (some p) e).getD s) s) p j h l (evWorst ev)
  ev.foldl (fun s e => evErr s h j e) s

/-- Are an instruction's events in the ranges of their units? -/
def evOk (e : AccEv) : Bool :=
  match e with
  | .bankCycle bank ports => bank < 32 && ports.all fun q => q.2 < 5
  | .spireCe src bank => src < 4 && bank < 32
  | .spireUe src at_ => src < 4 && at_ < (if src = 0 then 0x300000 else 2 ^ 32)
  | .vaultCe v c i => v < 32 && c < 64 && i < 72
  | .domeCe sl => sl < 32
  | .vaultUe pa => paKind pa == .vault
  | .domeUe pa cls => (homeSlice pa).isSome && domeClsOk pa cls
  | .farCe pa | .farUe pa | .farTimeout pa | .farLost pa => paKind pa == .far
  | .hostErr status pa => 0x0407 ≤ status && status ≤ 0x040A && paKind pa == .window

/-! What the accesses of an agent meet. -/

/-- Do the codewords of 64 B or lines of 256 B (`u`) that a run of device addresses touches hold an address (10 R236, R247)? -/
def runHits (u : Nat) (r : Nat × Nat) (pa : Nat) : Bool := r.1 / u ≤ pa / u && pa / u ≤ (r.1 + r.2 - 1) / u

/-- Does a written run cover such a unit in part only, so that its merge reads it? -/
def runMerges (u : Nat) (r : Nat × Nat) (pa : Nat) : Bool := runHits u r pa && (pa / u * u < r.1 || r.1 + r.2 < pa / u * u + u)

/-- The device addresses of a run of job memory. -/
def vaRuns (s : State) (x : Job) (r : Nat × Nat) : List (Nat × Nat) :=
  (pieces 4096 r.1 r.2).filterMap fun p => (xlate s x p.1).map fun t => (t.2, p.2)

/-- Can accesses of an agent to a job's memory meet an event: an error of what it reads or of what the merge of a write reads, a far write that is
lost, a host error in a window, a corrected error? An uncorrectable error of the system area, where the page table stands, is always one. -/
def evTouch (s : State) (x : Job) (rds wrs : List (Nat × Nat)) (e : AccEv) : Bool :=
  let rd := rds.flatMap (vaRuns s x)
  let wr := wrs.flatMap (vaRuns s x)
  let hit := fun (u pa : Nat) => rd.any (runHits u · pa) || wr.any (runMerges u · pa)
  evOk e && match e with
  | .vaultUe pa => sysArea pa || hit 64 pa
  | .domeUe pa cls => (sysArea pa || hit 256 pa) && lineOk s x.handle pa cls
  | .farUe pa | .farTimeout pa => hit 256 pa
  | .farLost pa => wr.any (runHits 256 · pa)
  | .hostErr _ pa => rd.any (runHits 256 · pa) || wr.any (runHits 256 · pa)
  | .vaultCe _ _ _ | .domeCe _ | .farCe _ => true
  | .bankCycle _ _ | .spireCe _ _ | .spireUe _ _ => false

/-- Does an event end an instruction, a request or a job, or only add to a count? -/
def evEnds (e : AccEv) : Bool :=
  match e with
  | .farUe _ | .farTimeout _ | .farLost _ | .hostErr _ _ => true
  | e => evFatal e

/-- The accesses of an assist, a landing or a write at its home, for job `j`, with the events that they meet: what ends nothing is done; with no
other event the access goes, else it is dropped and the faults come first, then the request's end (09 R231). -/
def agentEv (s : State) (j : Nat) (ev : List AccEv) (go drop : State → State) : State :=
  let h := jobHandle s j
  let t := ev.foldl (fun s e => (evMild s none e).getD s) s
  if ev.all fun e => (evMild s none e).isSome then go t
  else ev.foldl (fun s e => evErr s h j e) (evFaults (drop t) 0 j h 0 (ev.filter evFatal))

/-- May a DMA meet an event? -/
def evDma (e : AccEv) : Bool :=
  match e with
  | .bankCycle _ _ | .spireCe _ _ | .spireUe _ _ => false
  | .hostErr status _ => 0x0407 ≤ status && status ≤ 0x040A
  | e => evOk e

/-- May a model load meet an event? -/
def evLoad (e : AccEv) : Bool :=
  match e with
  | .farLost _ => false
  | .domeUe _ cls => evOk e && cls != 0
  | e => evDma e

/-- One access event of a DMA of job `j` (16 R372): a failure of far or host memory ends the DMA with its status and parameter, a host
error with a free parameter (log 39); an uncorrectable vault or dome-store error acts as for an instruction. -/
def dmaEv (s : State) (j : Nat) (e : AccEv) : State × Option (Nat × Nat) :=
  match evMild s none e with
  | some s => (s, none)
  | none =>
    match e with
    | .vaultUe pa => (vaultUncorrectable s (some j) pa, none)
    | .domeUe pa cls => (domeUncorrectable s j pa cls, none)
    | .farUe pa => (farUeFence s pa id, some (0x0403, fld pa 47 16))
    | .farTimeout pa => (farTimeoutFence s pa id, some (0x0404, fld pa 47 16))
    | .farLost pa => (s, some (0x0406, fld pa 47 16))
    | .hostErr status _ => ((freshVal s 32).2, some (status, (freshVal s 32).1))
    | _ => (s, none)

/-- The events of a DMA up to the first that ends it or its job. -/
def dmaEvs (j : Nat) : State → List AccEv → State × Option (Nat × Nat)
  | s, [] => (s, none)
  | s, e :: es =>
    match dmaEv s j e with
    | (s, some b) => (s, some b)
    | (s, none) => if (jobOf s j).isSome then dmaEvs j s es else (s, some (0x0402, 0))

/-! Patrol (10 R241). -/

/-- The next line the patrol visits: in-service lines in order, once around (10 R241). -/
def patrolNext (s : State) (v n : Nat) : Nat :=
  let lo := 32 * vaultK s v * 8192
  if n + 1 < 2 ^ 24 then max (n + 1) lo else lo

/-- The patrol of one line: a corrected error on a logical lane is counted and repaired; an uncorrectable one is recorded, and ends nothing until
an access meets the line (20 Table REG-7). -/
def patrolLine (s : State) (v n : Nat) (lane : Option Nat) (ue : Bool) : State :=
  let s := { s with vaults := tmod {} s.vaults v fun x => { x with patrol := patrolNext s v n } }
  let s := match lane with
    | some i => vaultCe s v (vaultPhys s v (n * 256)).1 i
    | none => s
  if ue then vaultUeRec s (v * 2 ^ 32 + n * 256) 3 else s

/-- VAULT_PATROL (10 R241): one line is read. -/
def execVaultPatrol (v : Nat) (lane : Option Nat) (ue : Bool) (s : State) : Out :=
  if 32 ≤ v || (lane.any fun l => 72 ≤ l) then .refused .illFormed
  else
    let n := max (tget {} s.vaults v).patrol (32 * vaultK s v * 8192)
    guardNext (fwUp s && vaultUp s v && !marginChan s false v (vaultPhys s v (n * 256)).1) .notEnabled (patrolLine s v n lane ue)

end Sys2Proof.Machine
end

