-- ==== Sys2Proof/Machine/HostOps.lean ====
section
/-! DEFINITION. The host queue machinery (16 R357 to R367, R375): doorbells, fetching, admin queue pairs, function-level reset,
and the frame that every host command shares (R362, R368). -/
namespace Sys2Proof.Machine

/-- Is there such a host function, and is it enabled (R357, R361)? -/
def fnUp (s : State) (f : Nat) : Bool := f < 17 && (fnOf s f).enabled

/-- MSI-X vectors of a function (Table HST-1). -/
def fnVectors (f : Nat) : Nat := if f = 0 then 1024 else 64

/-- A queue pair changed, where it exists. -/
def modQp (s : State) (f qi : Nat) (g : QPair → QPair) : State :=
  match tfind (fnOf s f).qps qi with
  | some q => modFn s f fun x => { x with qps := tset x.qps qi (g q) }
  | none => s

/-! Allotments (R361). -/

/-- Queue pairs allotted to a function; the PF has what the VFs leave. -/
def allotOf (s : State) (f : Nat) : Nat :=
  if f = 0 then 1024 - sumN ((List.range 16).map fun v => (fnOf s (v + 1)).allot) else (fnOf s f).allot

/-- The admin queue pair comes up once EN is 1, boot has completed and ALLOT is at least 1 (R360). -/
def adminUp (s : State) (f : Nat) : State :=
  let x := fnOf s f
  if x.en && !x.rdy && fwUp s && 1 ≤ allotOf s f then
    setFn s f { x with rdy := true
                       qps := tset x.qps 0 { sqBase := x.asq, cqBase := x.acq, sqLog := x.asqLog, cqLog := x.acqLog } }
  else s

/-- EN written to 1. -/
def adminEnable (s : State) (f : Nat) : State :=
  if (fnOf s f).en then s else adminUp (modFn s f fun x => { x with en := true }) f

/-- EN written to 0: every queue pair is deleted, RDY and ERR read 0 (R360). -/
def adminDisable (s : State) (f : Nat) : State := modFn s f fun x => { x with en := false, rdy := false, err := false, qps := [] }

/-- ADMIN_QUEUE_ENABLE (R360). -/
def execAdminQueueEnable (f : Nat) (s : State) : Out :=
  if 17 ≤ f then .refused .illFormed else guardNext (hostUp s && fnUp s f) .notRunning (adminEnable s f)

/-- ADMIN_QUEUE_DISABLE (R360). -/
def execAdminQueueDisable (f : Nat) (s : State) : Out :=
  if 17 ≤ f then .refused .illFormed else guardNext (hostUp s && fnUp s f) .notRunning (adminDisable s f)

/-! Doorbells (R365). -/

/-- A discarded doorbell write. -/
def dbDrop (s : State) (f : Nat) : State := modFn s f fun x => { x with dbDropped := satAdd 32 x.dbDropped 1 }

/-- A new wait for a message; with COAL_US = 0 the message goes at once (R367). -/
def newWait (s : State) (f qi : Nat) (q : QPair) : State :=
  if q.coalUs = 0 && q.ien then msix (modQp s f qi fun q => { q with unsent := 0, waiting := false }) f q.iv
  else modQp s f qi fun q => { q with waiting := true, since := s.now }

/-- An SQ tail doorbell of a live queue pair. -/
def sqTail (s : State) (f qi v : Nat) (q : QPair) : State :=
  if 2 ^ q.sqLog ≤ v then queueError s f qi 0 else modQp s f qi fun q => { q with sqTail := v }

/-- A CQ head doorbell of a live queue pair. -/
def cqHeadDb (s : State) (f qi v : Nat) (q : QPair) : State :=
  let n := 2 ^ q.cqLog
  if n ≤ v || (q.cqTail + n - q.cqHead) % n < (v + n - q.cqHead) % n then queueError s f qi 0
  else
    let s := modQp s f qi fun q => { q with cqHead := v }
    let s := if v = q.cqTail then s else newWait s f qi q
    cqDrain q.waitq.length s f qi

/-- A doorbell write as the device takes it: discarded in D3hot; discarded and counted at another size or offset, or for a queue
pair that does not exist or is in ERROR. -/
def doorbell (s : State) (f qi off size v : Nat) : State :=
  if (fnOf s f).d3hot then s
  else
    match tfind (fnOf s f).qps qi with
    | none => dbDrop s f
    | some q =>
      if q.err || size != 4 then dbDrop s f
      else if off = 0 then sqTail s f qi v q
      else if off = 4 then cqHeadDb s f qi v q
      else dbDrop s f

/-- The size of a function's BAR2: a page for each queue pair that it can have (Table HST-2). -/
def bar2Size (f : Nat) : Nat := if f = 0 then 0x400000 else 0x40000

/-- SQ_TAIL_DOORBELL (R365): a write to a doorbell page elsewhere than the CQ head doorbell. -/
def execSqTailDoorbell (f q off size v : Nat) (s : State) : Out :=
  if 17 ≤ f || bar2Size f ≤ 4096 * q || off = 4 || 4096 ≤ off || 2 ^ (8 * size) ≤ v then .refused .illFormed
  else guardNext (hostUp s && fnUp s f) .notRunning (doorbell s f q off size v)

/-- CQ_HEAD_DOORBELL (R365): a write to a doorbell page elsewhere than the SQ tail doorbell. -/
def execCqHeadDoorbell (f q off size v : Nat) (s : State) : Out :=
  if 17 ≤ f || bar2Size f ≤ 4096 * q || off = 0 || 4096 ≤ off || 2 ^ (8 * size) ≤ v then .refused .illFormed
  else guardNext (hostUp s && fnUp s f) .notRunning (doorbell s f q off size v)

/-- MSIX_COALESCE_TIMEOUT (R367): a completion has waited COAL_US without a message. -/
def execMsixCoalesceTimeout (f q : Nat) (s : State) : Out :=
  match tfind (fnOf s f).qps q with
  | none => .refused .notEnabled
  | some x =>
    guardNext (fwUp s && x.ien && x.waiting && x.since + x.coalUs ≤ s.now) .notEnabled
      (msix (modQp s f q fun x => { x with unsent := 0, waiting := false }) f x.iv)

/-! Fetching (R364, R366). -/

/-- The opcodes of Table HST-7. -/
def opcodes : List Nat :=
  [0x01, 0x02, 0x03, 0x05, 0x06, 0x08, 0x09, 0x0A, 0x0B, 0x0C, 0x0D, 0x10, 0x11, 0x18, 0x1C, 0x20, 0x21, 0x22, 0x28, 0x29, 0x2A,
   0x40, 0x41, 0x48, 0x49, 0x4A, 0x4B]

/-- May the device read an entry of a queue pair: the commands accepted whose entries are not yet written number fewer than the completion ring's
size minus one (R364)? -/
def canFetch (q : QPair) : Bool := !q.err && q.sqHead != q.sqTail && q.opened.length + q.waitq.length < 2 ^ q.cqLog - 1

/-- The instance of the lantern's request mailbox (20 R438), whose requesters 0 to 16 are the functions (11 Table NET-3). -/
def reqMailbox : Nat := 2401

/-- Has a function an entry to read, which it presents to the request mailbox as a 64 B message? -/
def hasEntry (s : State) (f : Nat) : Bool := f < 17 && (fnOf s f).qps.any fun q => canFetch q.2

/-- The functions whose entry is a live request at the request mailbox: those that have none there yet. -/
def fetchLive (s : State) : List Nat :=
  let x := arbOf s reqMailbox
  (List.range 17).filter fun f => hasEntry s f && x.owner != some f && tget 0 x.parked f = 0

/-- The function whose entry is read next (R366): the owner of the grant that runs at the request mailbox, else the requester that its arbiter
grants (11 R265); none while that is not a function with an entry. -/
def fetchNext (s : State) : Option Nat :=
  let x := arbOf s reqMailbox
  let g := match x.owner with
    | some o => some o
    | none => arbNext 24 x.ptr fun r => 0 < tget 0 x.parked r || (fetchLive s).contains r
  g.filter (hasEntry s)

/-- A function's message passes the request mailbox: one cycle of its arbiter, in which the grant ends. -/
def fetchTurn (s : State) : State :=
  { s with arbs := tset s.arbs reqMailbox (arbCycle s.netMode 24 (arbRoll (arbOf s reqMailbox)) (fetchLive s) .drops) }

/-- The record that an entry of a codec command names (15 R342, R344): 64 bytes of a stream, 80 bytes of a frame. -/
def codecRec (s : State) (w : Nat) : List Nat :=
  if fld w 7 0 = 0x48 then hostRead s (fld w 511 448) 64 else if fld w 7 0 = 0x4A then hostRead s (fld w 511 448) 80 else []

/-- The next entry read from its ring: it waits in the lantern's mailbox, or ends with INVALID_OPCODE. -/
def fetchEntry (s : State) (f qi : Nat) (q : QPair) : State :=
  let e := BitVec.ofNat 512 (ofLe (hostRead s (q.sqBase + 64 * q.sqHead) 64))
  let i := freshId s
  let tok := i.1
  let cmd := tok * 65536 + fld e.toNat 31 16
  let s := modQp (fetchTurn i.2) f qi fun q => { q with sqHead := (q.sqHead + 1) % 2 ^ q.sqLog, opened := q.opened ++ [cmd] }
  if opcodes.contains (fld e.toNat 7 0) then { s with fetched := s.fetched ++ [{ fn := f, qp := qi, tok := tok, e := e, at_ := s.now, recd := codecRec s e.toNat }] }
  else complete s ⟨f, qi, cmd⟩ 0x0800 0 0

/-- SQ_ENTRY_FETCH (R366). -/
def execSqEntryFetch (f q : Nat) (s : State) : Out :=
  match tfind (fnOf s f).qps q with
  | none => .refused .notEnabled
  | some x => guardNext (hostUp s && canFetch x && fetchNext s = some f) .notEnabled (fetchEntry s f q x)

/-! The frame of a host command. -/

/-- The fetched command that a host-command step carries out: the first of its function, queue pair and entry. -/
def fetchedOf (s : State) (f q : Nat) (e : Entry) : Option Fetched :=
  s.fetched.find? fun x => x.fn == f && x.qp == q && x.e == e

/-- The job a command's header names. -/
def hdrJob (e : Entry) : Nat := fld e.toNat 63 48

/-- Does a load name the model cache, as source or to fill it (19 R417)? -/
def loadCache (w : Nat) : Bool := bitOf w 8 || bitOf w 9

/-- An admission, or a load that names the model cache, that waits until far memory is trained (19 R417): others pass it. -/
def adminWaits (s : State) (x : Fetched) : Bool :=
  !s.boot.admitReady && (fld x.e.toNat 7 0 = 0x08 || (fld x.e.toNat 7 0 = 0x0A && loadCache x.e.toNat))

/-- Commands are taken in the order the lantern read them: those of admin queues one at a time (09 R225, 16 R376), those of I/O queues that name
one job (R366). -/
def inOrder (s : State) (x : Fetched) : Bool :=
  (s.fetched.takeWhile (· != x)).all fun y =>
    if x.qp = 0 then y.qp != 0 || adminWaits s y else y.qp = 0 || hdrJob y.e != hdrJob x.e

/-- May a host command be taken now? -/
def hostReady (s : State) (f q : Nat) (e : Entry) : Bool :=
  fwUp s && (fetchedOf s f q e).any (inOrder s)

/-- The frame of every host command (R362, R368, 19 R427): it leaves the mailbox; a shutdown, the wrong queue or function, or a
reserved field that is not zero ends it; else its body runs. `queue`: 0 admin, 1 I/O, 2 either. -/
def hostCmd (s : State) (f q : Nat) (e : Entry) (queue : Nat) (pfOnly : Bool) (resv : Nat → Nat)
    (body : State → CmdRef → Nat → State) : State :=
  match fetchedOf s f q e with
  | none => s
  | some x =>
    let w := e.toNat
    let r : CmdRef := ⟨f, q, x.tok * 65536 + fld w 31 16⟩
    let s := { s with fetched := s.fetched.erase x }
    let opc := fld w 7 0
    if s.power.shutdown && opc != 0x18 && opc != 0x1C then complete s r 0x0802 0 0
    else if (queue = 0 && q != 0) || (queue = 1 && q = 0) || (pfOnly && f != 0) then complete s r 0x0802 0 0
    else if fld w 47 32 != 0 || resv w != 0 then complete s r 0x0801 0 0
    else body s r w

/-- A host command: the step of an entry with this opcode. -/
def hostExec (opc : Nat) (s : State) (f q : Nat) (e : Entry) (ok : Bool) (queue : Nat) (pfOnly : Bool) (resv : Nat → Nat)
    (body : State → CmdRef → Nat → State) : Out :=
  if fld e.toNat 7 0 != opc then .refused .illFormed
  else guardNext (hostReady s f q e && ok) .notFetched (hostCmd s f q e queue pfOnly resv body)

/-- The job of a handle for a function: NO_SUCH_HANDLE, NOT_OWNER, or the body (R368). -/
def withJob (s : State) (r : CmdRef) (h : Nat) (body : Nat → Job → State) : State :=
  match slotOf s h with
  | none => complete s r 0x0804 0 0
  | some j =>
    match jobOf s j with
    | none => complete s r 0x0804 0 0
    | some x => if x.fn != r.fn then complete s r 0x0803 0 0 else body j x

/-! Queue pairs (R361, Table HST-4). -/

/-- Bits [hi:lo] of an entry that must be zero. -/
def noResv (_ : Nat) : Nat := 0

/-- QP_CREATE's body. -/
def qpCreateBody (s : State) (r : CmdRef) (w : Nat) : State :=
  let qid := fld w 383 374
  let sl := fld w 373 369
  let cl := fld w 368 364
  let x := fnOf s r.fn
  if qid = 0 || allotOf s r.fn ≤ qid || (tfind x.qps qid).isSome then complete s r 0x0805 0 0
  else if sl < 6 || 16 < sl || cl < 6 || 16 < cl || fnVectors r.fn ≤ fld w 363 354 || fld w 511 448 % 4096 != 0
      || fld w 447 384 % 4096 != 0 then complete s r 0x0801 0 0
  else
    let q : QPair := { sqBase := fld w 511 448, cqBase := fld w 447 384, sqLog := sl, cqLog := cl, iv := fld w 363 354
                       coalN := fld w 353 346, coalUs := fld w 345 338, ien := bitOf w 337 }
    complete (modFn s r.fn fun x => { x with qps := tset x.qps qid q }) r 0 0 0

/-- QP_CREATE (R361). -/
def execQpCreate (f q : Nat) (e : Entry) (s : State) : Out :=
  hostExec 0x01 s f q e true 0 false (fun w => fld w 336 64) qpCreateBody

/-- QP_DELETE's body: fetching stops at once; RESULT is the number of completions that will be discarded. -/
def qpDeleteBody (s : State) (r : CmdRef) (w : Nat) : State :=
  let qid := fld w 383 374
  match tfind (fnOf s r.fn).qps qid with
  | none => complete s r 0x0801 0 0
  | some q =>
    if qid = r.qp then complete s r 0x0801 0 0
    else complete (modFn s r.fn fun x => { x with qps := tdel x.qps qid }) r 0 0 (q.opened.length + q.waitq.length)

/-- QP_DELETE (R361, R376). -/
def execQpDelete (f q : Nat) (e : Entry) (s : State) : Out := hostExec 0x02 s f q e true 0 false noResv qpDeleteBody

/-- The smallest allotment a function's queue pairs need. -/
def allotNeed (s : State) (f : Nat) : Nat := maxN ((fnOf s f).qps.map fun q => q.1 + 1)

/-- QP_ALLOT's body. -/
def qpAllotBody (s : State) (r : CmdRef) (w : Nat) : State :=
  let v := fld w 383 368
  let n := fld w 367 352
  if v = 0 || 16 < v || 64 < n || !fnUp s v then complete s r 0x0801 0 0
  else
    let t := modFn s v fun x => { x with allot := n }
    let sum := sumN ((List.range 16).map fun i => (fnOf t (i + 1)).allot)
    if n < allotNeed s v || 1024 < sum + allotNeed s 0 then complete s r 0x0805 0 0
    else complete (adminUp t v) r 0 0 0

/-- QP_ALLOT (R361). -/
def execQpAllot (f q : Nat) (e : Entry) (s : State) : Out := hostExec 0x03 s f q e true 0 true noResv qpAllotBody

/-! Images of a function, models: what a function-level reset ends (R375). -/

/-- An interleave frame no longer held by an entry: zeroised. -/
def zeroFrames (s : State) (l : List Nat) : State := l.foldl zeroFrame s

/-- A hot-set entry gone at once, its frames zeroised, a load of it abandoned. -/
def dropModel (s : State) (h : Nat) : State :=
  let s := loadUnhold s h
  match tfind s.models h with
  | some m => zeroFrames { s with models := tdel s.models h } m.frames
  | none => s

/-- A job of a function in reset ends: members told FUNCTION_RESET, released. -/
def resetJob (s : State) (j : Nat) : State :=
  match jobOf s j with
  | some x => releaseJob (if x.m ≤ 1 then s else ctlAll s x 5 0x050E x.l) j
  | none => s

/-- The effects of R375 on one function. -/
def fnReset1 (s : State) (f : Nat) : State :=
  let s := modFn s f fun x => { x with qps := [], asyncOut := [], asyncWait := [] }
  let s := arbForget { s with fetched := s.fetched.filter (·.fn != f) } reqMailbox f
  let s := ((s.jobs.filter fun k => k.2.fn == f).map (·.1)).foldl resetJob s
  let s := { s with images := s.images.filter fun i => i.2.fn != f }
  let s := ((s.models.filter fun m => m.2.fn == f).map (·.1)).foldl dropModel s
  let s := { s with video := { s.video with streams := s.video.streams.filter fun t => t.2.fn != f } }
  let x := fnOf s f
  let s := setFn s f { fnReset f with enabled := x.enabled, allot := if f = 0 then 1024 else x.allot }
  if s.glb.margin.any fun m => m.ref.fn == f then
    { s with glb := { s.glb with margin := none }, netMode := if s.boot.admitReady then 0 else 1 } else s

/-- Enabled virtual functions. -/
def enabledVfs (s : State) : List Nat := (List.range 17).filter fun f => f != 0 && (fnOf s f).enabled

/-- A reset of the PF, which also clears VF Enable (R375), and ends a freeze of the log (18 R401). -/
def pfReset (s : State) : State :=
  let s := (enabledVfs s).foldl (fun s v => setFn (fnReset1 s v) v (fnReset v)) s
  evrThaw (fnReset1 s 0)

/-- A function-level reset (R375). -/
def doFlr (s : State) (f : Nat) : State := if f = 0 then pfReset s else fnReset1 s f

/-- FUNCTION_LEVEL_RESET (R375, R357: also a return from D3hot). -/
def execFunctionLevelReset (f : Nat) (s : State) : Out :=
  if 17 ≤ f then .refused .illFormed else guardNext (hostUp s && fnUp s f) .notRunning (doFlr s f)

/-- HOT_RESET (19 R416): as a function-level reset of the PF, with its effects on every VF. -/
def execHotReset (s : State) : Out := guardNext (hostUp s) .notRunning (pfReset s)

/-- PM_D3HOT_ENTRY (R357). -/
def execPmD3hotEntry (f : Nat) (s : State) : Out :=
  if 17 ≤ f then .refused .illFormed else guardNext (hostUp s && fnUp s f) .notRunning (modFn s f fun x => { x with d3hot := true })

/-- VF_ENABLE (R361): virtual functions 1 to n are enabled with an allotment of 0. -/
def execVfEnable (n : Nat) (s : State) : Out :=
  if n = 0 || 16 < n then .refused .illFormed
  else guardNext (hostUp s && (enabledVfs s).isEmpty) .notEnabled
    ((List.range n).foldl (fun s i => setFn s (i + 1) { fnReset (i + 1) with enabled := true }) s)

/-! BAR4 (R359). -/

/-- The job that BAR4 translates through, where HST_BAR4 names one that the PF holds. -/
def bar4Job (s : State) : Option Nat :=
  let v := (fnOf s 0).bar4
  if !bitOf v 0 then none
  else (slotOf s (fld v 63 48)).filter fun j => (jobOf s j).any fun x => x.fn == 0

/-- The entry that a BAR4 address translates to. -/
def bar4Pte (s : State) (off : Nat) : Option (Nat × Nat × Pte × Nat) :=
  (bar4Job s).bind fun j => (jobOf s j).bind fun x =>
    let va := fld (fnOf s 0).bar4 47 21 * 2 ^ 21 + off
    (xlate s x va).bind fun t => if t.1.tier = 3 then none else some (j, va, t)

/-- A missed BAR4 access. -/
def bar4Miss (s : State) : State := modFn s 0 fun x => { x with bar4Miss := satAdd 16 x.bar4Miss 1 }

/-- Does a BAR4 access reach a fenced far channel (10 R249)? -/
def bar4Fenced (s : State) (off n : Nat) : Bool :=
  (pieces 256 off n).any fun p => (bar4Pte s p.1).any fun t => paKind t.2.2.2 = .far && (fchOf s (farChan s t.2.2.2)).st = 4

/-- The answer of a read: free bytes where an error leaves none (DESIGN CHOICE, log 53). -/
def bar4Answer (s : State) (n : Nat) (bs : Option (List Nat)) : State :=
  match bs with
  | some l => { s with bar4Rd := l }
  | none => { (freshVal s (8 * n)).2 with bar4Rd := leBytes n (freshVal s (8 * n)).1 }

/-- A BAR4 access: a read returns the bytes, zeros for a miss; a write is performed at its home. An error that it meets, which is no request's,
ends the job where Table MEM-6 says so, else it leaves a read without its bytes and a write without effect (log 53). -/
def bar4Do (s : State) (write : Bool) (off : Nat) (bs : List Nat) (ev : List AccEv) : State :=
  match bar4Pte s off, bar4Pte s (off + bs.length - 1) with
  | some (j, va, e, _), some (_, _, e2, _) =>
    if write && (e.wp || e2.wp) then bar4Miss s
    else
      match dmaEvs j s ev, bar4Fenced s off bs.length with
      | (s, none), false =>
        if write then vaPut s j va bs else bar4Answer s bs.length ((jobOf s j).map fun x => rdBytes (vaByte s x) va bs.length)
      | (s, _), _ => if write then s else bar4Answer s bs.length none
  | _, _ => bar4Miss (if write then s else { s with bar4Rd := List.replicate bs.length 0 })

/-- Can a BAR4 access meet an event? -/
def bar4Meets (s : State) (write : Bool) (off n : Nat) (e : AccEv) : Bool :=
  (bar4Pte s off).any fun t => (jobOf s t.1).any fun x =>
    if write then evTouch s x [] [(t.2.1, n)] e else evTouch s x [(t.2.1, n)] [] e

/-- Does a MARGIN hold a BAR4 access (10 R251)? -/
def bar4Held (s : State) (off n : Nat) : Bool :=
  (bar4Pte s off).any fun t => (jobOf s t.1).any fun x => marginVa s x t.2.1 n

/-- BAR4_ACCESS (R359); the PF alone has BAR4. -/
def execBar4Access (write : Bool) (off : Nat) (d : Payload) (s : State) : Out :=
  let n := d.bytes.length
  if n = 0 || 4096 < n || bar4Size s < off + n then .refused .illFormed
  else if hostUp s && (bar4Held s off n || !d.ev.all (bar4Meets s write off n)) then .refused .notEnabled
  else guardNext (hostUp s) .notRunning (bar4Do s write off (d.bytes.map BitVec.toNat) d.ev)

/-! Asynchronous events (R374). -/

/-- ASYNC_EVENT's body: outstanding until an event occurs, at most 4; EV_LOST follows events that were dropped (log 20). -/
def asyncBody (s : State) (r : CmdRef) (_ : Nat) : State :=
  let x := fnOf s r.fn
  match x.asyncWait with
  | (k, h, c) :: rest =>
    let wait := if x.evLost = 0 then rest else rest ++ [(4, 0, x.evLost)]
    complete (setFn s r.fn { x with asyncWait := wait, evLost := 0 }) r 0 0 (k * 2 ^ 112 + h * 2 ^ 96 + c * 2 ^ 80)
  | [] =>
    if 4 ≤ x.asyncOut.length then complete s r 0x0801 0 0
    else setFn s r.fn { x with asyncOut := x.asyncOut ++ [r.cmd] }

/-- ASYNC_EVENT (R374). -/
def execAsyncEvent (f q : Nat) (e : Entry) (s : State) : Out := hostExec 0x1C s f q e true 0 false noResv asyncBody

/-! Recorder commands (18 R401, R402). -/

/-- EVR_FREEZE's body: RESULT[15:0] is EVR_COUNT. -/
def evrFreezeBody (s : State) (r : CmdRef) (_ : Nat) : State :=
  complete { s with evr := { s.evr with frozen := true, freezeAt := s.now } } r 0 0 (evrLog s.evr).length

/-- EVR_FREEZE. -/
def execEvrFreeze (f q : Nat) (e : Entry) (s : State) : Out := hostExec 0x28 s f q e true 0 true noResv evrFreezeBody

/-- EVR_UNFREEZE's body. -/
def evrUnfreezeBody (s : State) (r : CmdRef) (_ : Nat) : State := complete (evrThaw s) r 0 0 0

/-- EVR_UNFREEZE. -/
def execEvrUnfreeze (f q : Nat) (e : Entry) (s : State) : Out := hostExec 0x29 s f q e true 0 true noResv evrUnfreezeBody

/-- A sector that an EVR_CLEAR must erase (R402). -/
def clearSec (s : State) (sec : Nat) : State := if s.evr.absent then s else ringCompact s sec .done

/-- A record that a sector still holds after its erase has failed is programmed to zero, so that no scan finds it again (R402; DESIGN CHOICE,
log 56). -/
def clearRec (keep : Rec → Bool) (x : FRec) : FRec :=
  if keep x.r || x.cut.isSome then x else { x with dead := true, cut := some (List.replicate 32 0) }

/-- Removal of the selected severities, with the erasures that it needs; EVR_CLEARED enters the log at once (R402). -/
def evrClear (s : State) (mask : Nat) : State :=
  let keep := fun (r : Rec) => !bitOf mask r.sev
  let n := fun v => if bitOf mask v then ((evrLog s.evr).filter fun r => r.sev == v).length else 0
  let r := mkRec s 0x0B12 1 0 [n 0, n 1, n 2, n 3]
  let secs := (List.range 9).filter fun i => s.evr.flash.any fun x => x.sec == i && !x.dead && x.cut.isNone && !keep x.r
  let t := { s with evr := { s.evr with flash := s.evr.flash.map fun x => { x with dead := x.dead || !keep x.r }
                                        ram := s.evr.ram.filter keep, index := 0, stampSec := r.secs, stampSub := r.sub + 1 } }
  let t := secs.foldl clearSec t
  { t with evr := evrEnter { t.evr with flash := t.evr.flash.map (clearRec keep) } r }

/-- EVR_CLEAR's body; it completes once its erases have ended. -/
def evrClearBody (s : State) (r : CmdRef) (w : Nat) : State :=
  if fld w 383 380 = 0 then complete s r 0x0801 0 0 else flashThen (evrClear s (fld w 383 380)) [.answer r]

/-- EVR_CLEAR. -/
def execEvrClear (f q : Nat) (e : Entry) (s : State) : Out := hostExec 0x2A s f q e true 0 true noResv evrClearBody

/-! Calibration (18 R409, R410). -/

/-- The built-in defaults (R410): 0.75 V points are the only stated value (19 R413); the rest is free, and the same at every read (log 11). -/
def calDefault : List Nat :=
  calSeal ([0x55, 0x42, 0x43, 0x53] ++ leBytes 4 1 ++ [2, 0, 0, 0] ++ leBytes 4 622848 ++ List.replicate 48 0
    ++ (List.range 622848).map fun i =>
      if 0x280 ≤ i && i < 0x2280 && i % 4 < 2 then nth (leBytes 2 750) (i % 4) else (Config.calByte i).toNat) 2

/-- CALIB_READ's body. Where no valid bank stores a board configuration, its default is returned, with RESULT[0] as for the set (DEDUCED, log 56). -/
def calibReadBody (s : State) (r : CmdRef) (w : Nat) : State :=
  let buf := fld w 511 448
  let n := fld w 447 416
  if bitOf w 8 then
    if n != 64 then complete s r 0x0801 0 0
    else
      match chosenBank s with
      | some b => complete (hostPut s buf b.board) r 0 0 0
      | none => complete (hostPut s buf defaultBoard) r 0 0 1
  else if n != 622912 then complete s r 0x0801 0 0
  else
    match s.calib.filter calOk with
    | some c => complete (hostPut s buf c) r 0 0 0
    | none => complete (hostPut s buf calDefault) r 0 0 1

/-- CALIB_READ. -/
def execCalibRead (f q : Nat) (e : Entry) (s : State) : Out := hostExec 0x21 s f q e true 0 true noResv calibReadBody

/-- The first failure of a write of the calibration set, as flash address and operation: its 16 sectors are erased, then programmed (R404, R410). -/
def calFail (s : State) : Option (Nat × Nat) :=
  let as := (List.range 16).map fun i => 0x01300000 + 0x10000 * i
  ((as.map fun a => (a, 0)) ++ as.map fun a => (a, 1)).find? fun q => flashFails s q.1 q.2 .done

/-- A CALIB_WRITE whose flash write ended unfinished completes with a status that the spec does not give: a free value (log 56). -/
def calUnfinished (s : State) (r : CmdRef) : State :=
  let v := freshVal s 16
  complete v.2 r v.1 0 0

/-- CALIB_WRITE of the board configuration: a store write (R407); its bytes from 4 on are zero in the bank (Table EVR-4; log 56). -/
def calBoard (s : State) (r : CmdRef) (bs : List Nat) : State :=
  let s := storeWrite { s with boot := { s.boot with board := bs.take 4 ++ List.replicate 60 0 } } .done
  let v := if s.boot.perstN then bankAt s s.lastBank else some (bankImage (nextBank s))
  match v with
  | some _ => flashThen s [.written 1 (bankCrc v), .answer r]
  | none => calUnfinished s r

/-- CALIB_WRITE of the set: the body, then the header; a write that fails leaves no valid set (R404, R411). -/
def calSet (s : State) (r : CmdRef) (c : List Nat) : State :=
  match calFail s with
  | some q => calUnfinished (flashFailRec { s with calib := none, boot := { s.boot with calNew := true } } q.1 q.2 5) r
  | none =>
    let t := flashBegin { s with calib := some c, boot := { s.boot with calNew := true } } (.calib s.calib)
    flashThen t [.written 0 (recFld c 0x3C 4), .answer r]

/-- CALIB_WRITE's body; CALIB_WRITTEN carries the target and the new CRC-32C. -/
def calibWriteBody (s : State) (r : CmdRef) (w : Nat) : State :=
  let n := fld w 447 416
  let bs := hostRead s (fld w 511 448) n
  if bitOf w 8 then
    if n != 64 then complete s r 0x0801 0 0
    else calBoard s r bs
  else if n != 622912 || !calOk bs then complete s r 0x0801 0 0
  else calSet s r (calSeal bs 1)

/-- CALIB_WRITE. -/
def execCalibWrite (f q : Nat) (e : Entry) (s : State) : Out := hostExec 0x22 s f q e true 0 true noResv calibWriteBody

end Sys2Proof.Machine
end

