-- ==== Sys2Proof/Machine/Access.lean ====
section
/-! DEFINITION. Checks of an agent's access to job memory (09 R219, R228; 10 R249; 16 R371; 17 R392). -/
namespace Sys2Proof.Machine

/-- A far-memory access meets a fenced channel (10 R249). -/
def farBad (s : State) (pa len : Nat) : Option AccBad :=
  ((pieces 256 pa len).find? fun p => (fchOf s (farChan s p.1)).st = 4).map fun p => .err 0x0405 p.1

/-- An access within one page of a job. -/
def pageBad (s : State) (x : Job) (wr : Bool) (va len : Nat) : Option AccBad :=
  match xlate s x va with
  | none => some (.fault 0x0503 va)
  | some (e, pa) =>
    if wr && e.wp then some (.fault 0x0504 va)
    else
      match paKind pa with
      | .window => winBad s pa len wr
      | .far => farBad s pa len
      | .reserved => some (.fault 0x0503 va)
      | _ => none

/-- The first failure of an access to a range of job virtual addresses. -/
def accBad (s : State) (x : Job) (wr : Bool) (va len : Nat) : Option AccBad :=
  ((pieces (2 ^ 21) va len).filterMap fun p => pageBad s x wr p.1 p.2).head?

/-- The first failure of a list of accesses, the reads before the writes. -/
def accAll (s : State) (x : Job) (rds wrs : List (Nat × Nat)) : Option AccBad :=
  ((rds.filterMap fun r => accBad s x false r.1 r.2) ++ (wrs.filterMap fun r => accBad s x true r.1 r.2)).head?

/-- The first piece of a range whose page lies in a tier that its operand must not have (09 R219 item 2). -/
def tierBad (x : Job) (tiers : List Nat) (va len : Nat) : Option AccBad :=
  ((pieces (2 ^ 21) va len).find? fun p => (tfind x.pt (p.1 / 2 ^ 21)).any fun e => !tiers.contains e.tier).map fun p => .fault 0x503 p.1

/-- The first failure of the accesses to an operand that must lie in given tiers. -/
def accTier (s : State) (x : Job) (tiers : List Nat) (rds wrs : List (Nat × Nat)) : Option AccBad :=
  (accAll s x rds wrs).or ((rds ++ wrs).filterMap fun r => tierBad x tiers r.1 r.2).head?

/-- A failed access of an assist or of a landing for job `j` (09 R219, R228). `idx` is the logical index that detects it. -/
def badEnd (s : State) (j idx : Nat) (b : AccBad) : State :=
  match b with
  | .fault cause va => jobFault s j cause idx va
  | .err status pa => requestError s j status pa

/-- Is a dome semaphore address one of the job (04 R122)? -/
def domeSemOk (x : Job) (va : Nat) : Bool :=
  va % 4 = 0 && (tfind x.pt (va / 2 ^ 21)).any fun e => e.tier == 1

/-- The value of a 32-bit word of job memory. -/
def va32 (s : State) (x : Job) (va : Nat) : Nat := rdLe (vaByte s x) va 4

/-- A semaphore has reached a target, the difference read as a signed 32-bit number (04 R122). -/
def semReached (v t : Nat) : Bool := (v % 2 ^ 32 + 2 ^ 32 - t % 2 ^ 32) % 2 ^ 32 < 2 ^ 31

end Sys2Proof.Machine
end

