-- ==== Sys2Proof/Machine/Quant.lean ====
section
/-! DEFINITION. Re-quantisation (02 R48 to R65, 04 R115): outlier marks, block scale, codes, outlier records, tile
overflow into the A16 shadow, error-feedback residues. -/
namespace Sys2Proof.Machine

/-- The bound B of step 3 for a destination format (R48, R49). -/
def qBound (fmt : Nat) : Nat := if fmt = 6 then 448 else if fmt = 7 then 57344 else 127

/-- Case 1 of R50: NaN or infinite. -/
def qCase1 (v : Fp) : Bool := !fpIsFin v

/-- Case 2 of R50: magnitude above B × 122,880. -/
def qCase2 (fmt : Nat) (v : Fp) : Bool := fpLt (fpOfNat (qBound fmt * 122880) 0) (fpAbs v)

/-- The mean magnitude a of R50: the FP32 sum over elements not marked by cases 1 and 2, divided by 32. -/
def qMean (fmt : Nat) (vs : List Fp) : Fp :=
  fpScale (f32 (vs.foldl (fun s v => if qCase1 v || qCase2 fmt v then s else r32 (fpAdd (f32 s) (fpAbs v))) 0)) (-5)

/-- The outlier marks of R50 with clipping ratio code RHO (Table NUM-5). -/
def qMarks (fmt rho : Nat) (vs : List Fp) : List Bool :=
  let a := qMean fmt vs
  let lim := fpScale a (rho + 1)
  vs.map fun v => qCase1 v || qCase2 fmt v || (rho != 7 && !fpIsZero a && fpLt lim (fpAbs v))

/-- R115 item 2: the value an element takes part with where OUT_EN = 0. NaN gives none. -/
def qClamp (fmt : Nat) (v : Fp) : Fp :=
  match v with
  | .nan => .nan
  | .inf n => .fin n (qBound fmt * 122880) 0
  | x => if qCase2 fmt x then .fin (fpNeg x) (qBound fmt * 122880) 0 else x

/-- Step 3 of R48: the smallest code s in 01h to FFh with B × s ≥ m, 00h for m = 0. -/
def qScale (fmt : Nat) (m : Fp) : Nat :=
  if fpIsZero m then 0
  else ((List.range 255).find? fun i => fpLe m (fpMul (fpOfNat (qBound fmt) 0) (ue5m3 (i + 1)))).elim 255 (· + 1)

/-- Step 4 of R48 and R49: the stored code of an unmarked element under scale code `s`, and its integer for A8. -/
def qCode (fmt s : Nat) (v : Fp) : Nat × Int :=
  match v, ue5m3 s with
  | .fin n m e, .fin _ sm se =>
    if s = 0 || m = 0 || sm = 0 then (0, 0)
    else if fmt = 5 then
      let sh := e - se
      let q := rneDiv (m <<< sh.toNat) (sm <<< (-sh).toNat)
      let i := sgnInt n q
      ((i % 256).toNat, i)
    else
      let c := if fmt = 6 then encE4m3 n m sm (e - se) else encE5m2 n m sm (e - se)
      ((if c % 128 = 0 then 0 else c), 0)
  | _, _ => (0, 0)

/-- R64: the residue of an element with integer code q: nearest to 16 (v − q s) / s, clamped from +8 to +7 (second
component: whether it was clamped). -/
def qResid (s : Nat) (q : Int) (v : Fp) : Int × Bool :=
  match fpAdd v (fpNegate (fpMul (fpOfInt q) (ue5m3 s))), ue5m3 s with
  | .fin n m e, .fin _ sm se =>
    if s = 0 || sm = 0 then (0, false)
    else
      let sh := e + 4 - se
      let r := sgnInt n (rneDiv (m <<< sh.toNat) (sm <<< (-sh).toNat))
      (max (-8) (min 7 r), decide (7 < r))
  | _, _ => (0, false)

/-- One quantised block. -/
structure QBlk where
  scale : Nat
  codes : List Nat
  outs : List (Nat × Nat)
  resid : List Nat
  nonfin : Nat
  clamps : Nat
  bf : List Nat
deriving DecidableEq, Repr

/-- One block under R48, R49, R50, R64 and R115. `vs` are the valid elements v_i of the block. -/
def quantBlk (fmt rho : Nat) (outEn : Bool) (vs : List Fp) : QBlk :=
  let marks := if outEn then qMarks fmt rho vs else vs.map fun v => fpIsNan v
  let xs := if outEn then vs else vs.map (qClamp fmt)
  let m := (xs.zip marks).foldl (fun (a : Fp) p => if p.2 then a else if fpLt a (fpAbs p.1) then fpAbs p.1 else a) fpZero
  let s := qScale fmt m
  let cq := (xs.zip marks).map fun p => if p.2 then (0, (0 : Int)) else qCode fmt s p.1
  let rs := (vs.zip (marks.zip cq)).map fun p =>
    if p.2.1 || qCase1 p.1 || qCase2 fmt p.1 then ((0 : Int), false) else qResid s p.2.2.2 p.1
  { scale := s
    codes := cq.map (·.1)
    outs := if outEn then
        (List.range vs.length).filterMap fun i =>
          if marks.getD i false then some (i, rbf16 (vs.getD i fpZero)) else none
      else []
    resid := rs.map fun p => (p.1 % 16).toNat
    nonfin := (vs.filter fun v => qCase1 v || (!outEn && qCase2 fmt v)).length
    clamps := (rs.filter (·.2)).length
    bf := vs.map rbf16 }

/-- The values v_i of one block: the scaling step with reciprocal `q`, and with FB_EN the feedback of R65, whose residue is zero in a first
pass. `ys` are the FP32 inputs of the valid positions. -/
def quantVals (rd : Nat → Nat → Nat) (t : Td) (first : Bool) (q r b : Nat) (ys : List Nat) : List Fp :=
  let vs := ys.map fun y => f32 (mul32 y q)
  if t.fbEn then
    let s := ue5m3 (rd t.space (scaleAddr t r b) % 256)
    vs.mapIdx fun i v =>
      let nib := if first then 0 else sext 4 (rd 1 (fbAddr t r b + i / 2) >>> (4 * (i % 2)))
      f32 (r32 (fpAdd v (fpScale (fpMul (fpOfInt nib) s) (-4))))
  else vs

/-- Sixteen bytes of FB4 codes from up to 32 residues, the rest 0 (R63, R64). -/
def fbBytes (rs : List Nat) : List Nat := (List.range 16).map fun i => nth rs (2 * i) + 16 * nth rs (2 * i + 1)

/-- The quantised blocks of one outlier tile: rows r0 ..< r1, columns c0 ..< c1, row `r` valid below column `ce r`; each
with its row and block index. A block wholly beyond the extent is none of them, so neither a scale nor the residue 0 of R64 is
written there (DEDUCED from R98 and 07 R183, log 49). -/
def quantTileBlks (rd : Nat → Nat → Nat) (t : Td) (rho : Nat) (first : Bool) (q : Nat) (y : Nat → Nat → Nat)
    (ce : Nat → Nat) (r0 r1 c0 c1 : Nat) : List (Nat × Nat × QBlk) :=
  (List.range (r1 - r0)).flatMap fun i =>
    (List.range (cdiv (min c1 (ce (r0 + i)) - c0) 32)).map fun j =>
      let r := r0 + i
      let b := c0 / 32 + j
      let ys := (List.range (min 32 (min c1 (ce r) - b * 32))).map fun k => y r (b * 32 + k)
      (r, b, quantBlk t.fmt rho t.outEn (quantVals rd t first q r b ys))

/-- One outlier tile written (R53, R55, R56, R64, R67). The bytes of its record's entries beyond COUNT, which R53 leaves undefined,
keep what memory held (DESIGN CHOICE, log 49). QNT_TILES counts a tile only where OUT_EN = 1 (DEDUCED, log 49: without OUT_EN there is
no outlier tile to count). A tile without a valid element writes nothing and counts nothing (07 R183). -/
def quantTile (rd : Nat → Nat → Nat) (t : Td) (rho : Nat) (first : Bool) (q : Nat) (y : Nat → Nat → Nat)
    (ce : Nat → Nat) (r0 r1 c0 c1 : Nat) : Eff :=
  let bs := quantTileBlks rd t rho first q y ce r0 r1 c0 c1
  let tile := tileIdx t r0 c0
  let ents := bs.flatMap fun p => p.2.2.outs.map fun o =>
    (o.2 <<< 16) + (p.1 % 128) * 128 + (p.2.1 * 32 + o.1) % 128
  let nonfin := effCnt .qntNonfinite (sumN (bs.map fun p => p.2.2.nonfin))
  let scales := effCat (bs.map fun p => effWr t.space (scaleAddr t p.1 p.2.1) [p.2.2.scale])
  let cap := 16 * t.cap
  if bs.isEmpty then effNone
  else if t.outEn && cap < ents.length then
    let rowAt := fun r => if r < r1 then
        (bs.filter fun p => p.1 == r).flatMap fun p => p.2.2.bf
      else []
    let shadow := (List.range 128).flatMap fun i =>
      let vs := rowAt ((r0 / 128) * 128 + i)
      (List.range 128).flatMap fun c => leBytes 2 (nth vs c)
    effCat [scales, effWr 1 (shadowAddr t tile) shadow, effWr 1 (recAddr t tile) (leBytes 8 (0xFFFF + cap * 65536)),
      ⟨[], [t.auxB * 256], []⟩,
      (if t.fbEn then effCat (bs.map fun p => effWr 1 (fbAddr t p.1 p.2.1) (fbBytes [])) else effNone),
      effCnt .qntTiles 1, nonfin]
  else
    effCat [effCat (bs.map fun p => effWr t.space (rowAddr t p.1 + p.2.1 * 32) p.2.2.codes), scales,
      (if t.outEn then effWr 1 (recAddr t tile) (leBytes 8 (ents.length + cap * 65536) ++ ents.flatMap (leBytes 4))
       else effNone),
      (if t.fbEn then effCat (bs.map fun p => effWr 1 (fbAddr t p.1 p.2.1) (fbBytes p.2.2.resid)) else effNone),
      (if t.outEn then effCnt .qntTiles 1 else effNone), effCnt .qntOutliers ents.length, nonfin,
      (if t.fbEn then effCnt .fbClamps (sumN (bs.map fun p => p.2.2.clamps)) else effNone)]

/-- QNT of rows r0 ..< r1, the first `ce r` of at most `cols` columns of row r, of FP32 values y r c into descriptor `t` (R48 to R65, R115), tile
by tile. `q` is the FP32 reciprocal of the scaling step. `r0` is a multiple of 128. -/
def quantRows (rd : Nat → Nat → Nat) (t : Td) (rho : Nat) (first : Bool) (q : Nat) (y : Nat → Nat → Nat)
    (ce : Nat → Nat) (r0 r1 cols : Nat) : Eff :=
  if t.fmt = 8 then
    effCat ((List.range (r1 - r0)).map fun i =>
      let r := r0 + i
      if min cols (ce r) = 0 then effNone
      else effWr t.space (rowAddr t r) ((List.range (min cols (ce r))).flatMap fun c => leBytes 2 (rbf16 (f32 (mul32 (y r c) q)))))
  else
    effCat ((List.range (cdiv (r1 - r0) 128)).flatMap fun i =>
      (List.range (cdiv cols 128)).map fun j =>
        quantTile rd t rho first q y ce (r0 + 128 * i) (min r1 (r0 + 128 * i + 128)) (128 * j) (min cols (128 * j + 128)))

end Sys2Proof.Machine
end

