-- ==== Sys2Proof/Machine/Matrix.lean ====
section
/-! DEFINITION. The matrix engine's arithmetic: block contributions (02 R40 to R44, R54), accumulation (R45), the output
steps (R46), empty reductions (07 R186), MMA and MMA2 (04 R103 to R107), CDW (03 R77, R78), COMB (07 R191). -/
namespace Sys2Proof.Machine

/-- The binary tree of R42: neighbouring values added, each sum rounded to FP32, `n` levels. -/
def treeAdd : Nat → List Nat → List Nat
  | 0, l => l
  | n + 1, l => treeAdd n (pairs l)
where
  pairs : List Nat → List Nat
    | a :: b :: t => add32 a b :: pairs t
    | l => l

/-- The exact sum S of the 32 products of element values; an integer pair's zero is +0. -/
def blkDot (a w : Blk) : Fp :=
  let s := fpSum ((a.vals.zip w.vals).map fun p => fpMul p.1 p.2)
  if a.kind = .int && w.kind = .int && fpIsZero s then fpZero else s

/-- The code part of c_b (R40 to R43). -/
def codePart (a w : Blk) : Nat :=
  if a.sc = 0 || w.sc = 0 then 0
  else
    let s :=
      if a.kind = .a16 || w.kind = .a16 then
        f32 (nth (treeAdd 5 ((a.vals.zip w.vals).map fun p => r32 (fpMul p.1 p.2))) 0)
      else blkDot a w
    r32 (fpMul s (fpMul (ue5m3 a.sc) (ue5m3 w.sc)))

/-- The full value of element `i` of a block (R54, step 2). -/
def fullVal (b : Blk) (i : Nat) : Fp :=
  match b.outs.find? fun p => p.1 == i with
  | some p => bf16 p.2
  | none =>
    if b.kind = .a16 then b.vals.getD i fpZero
    else if b.sc = 0 then fpZero
    else fpMul (b.vals.getD i fpZero) (ue5m3 b.sc)

/-- The block contribution c_b, outlier terms added in ascending element index (R54). -/
def blockContrib (a w : Blk) : Nat :=
  let pos := (List.range 32).filter fun i => (a.outs.any fun p => p.1 == i) || (w.outs.any fun p => p.1 == i)
  pos.foldl (fun c i => add32 c (r32 (fpMul (fullVal a i) (fullVal w i)))) (codePart a w)

/-- R45: the accumulator after the contributions of two lists of blocks, in ascending block index. -/
def accBlocks (acc : Nat) (as ws : List Blk) : Nat := (as.zip ws).foldl (fun s p => add32 s (blockContrib p.1 p.2)) acc

/-- The blocks of row `r` of an operand below reduction extent `k`. -/
def rowBlks (rd : Nat → Nat → Nat) (t : Td) (r k : Nat) : List Blk := (List.range (cdiv k 32)).map fun b => getBlk rd t r b k

/-- Accumulators of rows m0 ..< m1 by n columns: A rows against W rows over `k`, starting from `acc0 m n`. -/
def mmaAcc (rd : Nat → Nat → Nat) (a w : Td) (m0 m1 n k : Nat) (acc0 : Nat → Nat → Nat) : List (List Nat) :=
  let ws := (List.range n).map fun j => rowBlks rd w j k
  (List.range (m1 - m0)).map fun i =>
    let ab := rowBlks rd a (m0 + i) k
    ws.mapIdx fun j wb => accBlocks (acc0 (m0 + i) j) ab wb

/-- R46, or Table TIL-2 where the whole reduction range is empty (`kTot` = 0). `tw`, `ta` are the tensor scales and `bias`
the bias of the channel, if added; a NaN bias gives the canonical NaN (R35). -/
def outStep (kTot : Nat) (tw ta : Nat) (bias : Option Nat) (acc : Nat) : Nat :=
  if kTot = 0 then r32 (f32 (bias.getD 0))
  else
    let y := mul32 (mul32 acc tw) ta
    match bias with
    | some b => add32 y b
    | none => y

/-- The FP32 bias of channel `n`, if the instruction adds one. -/
def biasAt (rd : Nat → Nat → Nat) (en : Bool) (t : Td) (n : Nat) : Option Nat :=
  if en then some (rdLe (rd t.space) (t.base + 4 * n) 4) else none

/-- The bytes read after a list of writes: the last write that covers an address wins. -/
def rdAfter (rd : Nat → Nat → Nat) (ws : List Wr) (space a : Nat) : Nat :=
  match ws.reverse.find? fun w => w.space == space && w.addr ≤ a && a < w.addr + w.data.length with
  | some w => nth w.data (a - w.addr) % 256
  | none => rd space a

/-- The write of rows m0 ..< m1 of results into an output descriptor: FP32 or A16 (OQ = 0) or quantised (OQ = 1). -/
def outWrite (rd : Nat → Nat → Nat) (o : Td) (oq : Bool) (rho : Nat) (first : Bool) (m0 n : Nat) (ys : List (List Nat)) : Eff :=
  if oq then
    quantRows rd o rho first o.tq (fun r c => nth (ys.getD (r - m0) []) c) (fun _ => n) m0 (m0 + ys.length) n
  else effCat (ys.mapIdx fun i row => dstRow o (m0 + i) row)

/-- What MMA takes beside its operands. -/
structure MmaOpt where
  func : Nat
  bias : Bool
  oq : Bool
  rho : Nat
  compat : Bool
  first : Bool
deriving DecidableEq, Repr

/-- The results of rows of accumulators, after R46 and the row-wise function (R104). -/
def mmaOut (rd : Nat → Nat → Nat) (ut : Tbl UTab) (p : MmaOpt) (a w b : Td) (kTot : Nat) (accs : List (List Nat)) :
    List (List Nat) :=
  accs.map fun row => row.mapIdx fun n acc =>
    rowFunc p.compat ut p.func (outStep kTot (tensorScale rd w n) (tensorScale rd a n) (biasAt rd p.bias b n) acc)

/-- MMA without KEEP over rows m0 ..< m1 (R103 to R105, R46, R104, R186). A WT byte counts as read once by the instruction, however many
rows it has (DESIGN CHOICE, log 52). -/
def mmaRows (rd : Nat → Nat → Nat) (ut : Tbl UTab) (p : MmaOpt) (a w o b : Td) (m0 m1 n k kTot : Nat)
    (acc0 : Nat → Nat → Nat) : Eff :=
  if m1 ≤ m0 || n = 0 then effNone
  else
    effApp (outWrite rd o p.oq p.rho p.first m0 n (mmaOut rd ut p a w b kTot (mmaAcc rd a w m0 m1 n k acc0)))
      (effCnt .wtIllegalBytes (if m0 = 0 then wtBad rd w 0 n k else 0))

/-- The first product of MMA2 into TD_I (R106, R107 item 3). -/
def mma2First (rd : Nat → Nat → Nat) (ut : Tbl UTab) (p : MmaOpt) (b1 : Bool) (a w1 i bias1 : Td) (m n1 k1 : Nat) : Eff :=
  if m = 0 || n1 = 0 then effNone
  else mmaRows rd ut { p with bias := b1, oq := true, rho := 7 } a w1 i bias1 0 m n1 k1 k1 (fun _ _ => 0)

/-- The accumulators of the second product of MMA2, reading TD_I as the first product left it (R107 item 4). -/
def mma2Acc (rd : Nat → Nat → Nat) (e1 : Eff) (i w2 : Td) (m n2 n1 : Nat) (acc0 : Nat → Nat → Nat) : List (List Nat) :=
  mmaAcc (rdAfter rd e1.wr) i w2 0 m n2 n1 acc0

/-- The channel count per position of a channel-blocked layout (R194). -/
def layoutCh (c16 : Bool) : Nat := if c16 then 16 else 32

/-- Kernel of CDW: group size, extents, strides and first-tap displacements in frames, rows and columns. -/
structure CdwK where
  g : Nat
  kt : Nat
  kh : Nat
  kw : Nat
  st : Nat
  sh : Nat
  sw : Nat
  ot : Int
  oh : Int
  ow : Int
deriving DecidableEq, Repr

/-- The code and block scale of an activation of CDW at channel block `cb`, channel `ch`, position (t, h, w); outside the
extent code 0 (R77). -/
def cdwAct (rd : Nat → Nat → Nat) (a : Td) (lc cb ch : Nat) (t h w : Int) : Int × Nat :=
  if t < 0 || h < 0 || w < 0 || (a.d2 : Int) ≤ t || (a.d1 : Int) ≤ h || ((a.d0 / lc : Nat) : Int) ≤ w then (0, 0)
  else
    let r := (cb * a.d2 + t.toNat) * a.d1 + h.toNat
    let c := w.toNat * lc + ch
    (sext 8 (rd a.space (rowAddr a r + c)), rd a.space (scaleAddr a r (c / 32)) % 256)

/-- The channel blocks of one clip as the weights count them: TD_W holds `taps` rows for each block of 32 output channels (R77);
with C16, an odd count of 16-channel blocks per clip where only that divides TD_D's DIM3 (DEDUCED, log 22). -/
def cdwClip (c16 : Bool) (d3 wRows taps : Nat) : Nat :=
  let nb := max 1 (wRows / taps)
  if !c16 then nb else if d3 % (2 * nb) != 0 && d3 % (2 * nb - 1) = 0 then 2 * nb - 1 else 2 * nb

/-- The output channel of element `e` of channel block `cb`: the blocks of a clip start anew (07 R194). -/
def cdwCh (lc clip cb e : Nat) : Nat := cb % clip * lc + e % lc

/-- One output element of CDW before the tensor scales (R78). `oc` is the output channel. Row (oc div 32) × taps + tap of TD_W holds
32 g codes, code (oc mod 32) × g + i for input channel i of the group (DEDUCED for g above 1, log 22: R77 gives 32 codes per row). -/
def cdwAcc (rd : Nat → Nat → Nat) (a w : Td) (k : CdwK) (lc cb ch oc t h x : Nat) : Nat :=
  let taps := k.kt * k.kh * k.kw
  (List.range taps).foldl (fun acc tap =>
    let dt := tap / (k.kh * k.kw)
    let dh := (tap / k.kw) % k.kh
    let dx := tap % k.kw
    let it : Int := t * k.st + dt + k.ot
    let ih : Int := h * k.sh + dh + k.oh
    let ix : Int := x * k.sw + dx + k.ow
    let wr := (oc / 32) * taps + tap
    let sW := rd w.space (w.scaleB * 256 + wr) % 256
    let prods := (List.range k.g).map fun i =>
      let ac := cdwAct rd a lc cb ((ch / k.g) * k.g + i) it ih ix
      (ac.1 * sext 8 (rd w.space (rowAddr w wr + (oc % 32) * k.g + i)), ac.2)
    let p : Int := prods.foldl (fun s q => s + q.1) 0
    let sA := (prods.map (·.2)).headD 0
    let c := if sA = 0 || sW = 0 then 0 else r32 (fpMul (fpOfInt p) (fpMul (ue5m3 sA) (ue5m3 sW)))
    add32 acc c) 0

/-- CDW (R77, R78, R46): every output position below the run-time positions `so` along DIM0, through R46 and FUNC. The weights, scales
and biases of a clip's channels are the same for every clip (DEDUCED from 07 R194, log 22). -/
def cdwEff (rd : Nat → Nat → Nat) (ut : Tbl UTab) (p : MmaOpt) (a w d b : Td) (k : CdwK) (c16 : Bool) (so : Nat) : Eff :=
  let lc := layoutCh c16
  if so = 0 then effNone
  else
    let ys := (List.range (tdRows d)).map fun r =>
      let h := r % d.d1
      let t := (r / d.d1) % d.d2
      let cb := r / (d.d1 * d.d2)
      (List.range (so * lc)).map fun e =>
        let oc := cdwCh lc (cdwClip c16 d.d3 (tdRows w) (k.kt * k.kh * k.kw)) cb e
        rowFunc p.compat ut p.func (outStep 1 (tensorScale rd w oc) (tensorScale rd a oc) (biasAt rd p.bias b oc)
          (cdwAcc rd a w k lc cb (e % lc) oc t h (e / lc)))
    outWrite rd d p.oq p.rho p.first 0 (so * lc) ys

/-- One level of R191: neighbours added, an odd element rises unchanged. -/
def combLevel : List Nat → List Nat
  | a :: b :: t => add32 a b :: combLevel t
  | l => l

/-- The tree of R191 (64 parts need six levels). -/
def combTree (parts : List Nat) : Nat :=
  nth (combLevel (combLevel (combLevel (combLevel (combLevel (combLevel parts)))))) 0

/-- COMB (R118, R191): every element of TD_D below run-time extent `se` along DIM0, over the planned DIM1 and DIM2 that the
two operands share (Table TIS-23). -/
def combEff (rd : Nat → Nat → Nat) (d p b tw ta : Td) (scale bias : Bool) (se : Nat) : Eff :=
  effCat ((List.range (d.d1 * d.d2)).map fun r =>
    dstRow d r ((List.range se).map fun c =>
      let i1 := r % d.d1
      let i2 := r / d.d1
      let parts := (List.range p.d3).map fun j =>
        rdLe (rd p.space) (p.base + i1 * p.s1 + i2 * p.s2 + j * p.s3 + 4 * c) 4
      let y := combTree parts
      let y := if scale then mul32 (mul32 y (tensorScale rd tw c)) ta.tscale else y
      match biasAt rd bias b c with
      | some v => add32 y v
      | none => y))

end Sys2Proof.Machine
end

