-- ==== Sys2Proof/Machine/Attention.lean ====
section
/-! DEFINITION. The data part of ATTN (04 R113, 05 R147 to R149, 06 R161) and of key lists (06 R158, R159). -/
namespace Sys2Proof.Machine

/-- What ATTN takes beside its operands. -/
structure AttnOpt where
  sfmt16 : Bool
  qscale : Nat
  nk : Nat
  oq : Bool
  rho : Nat
  compat : Bool
  first : Bool
deriving DecidableEq, Repr

/-- Entry `i` of the key list: a key row, or nothing for a padding key (R161). -/
def keyAt (rd : Nat → Nat → Nat) (pat k : Td) (i : Nat) : Option Nat :=
  let e := rdLe (rd pat.space) (pat.base + 4 * i) 4
  if e < k.d1 then some e else none

/-- Entries below the key count that are out of range but not FFFF_FFFFh (R161). -/
def keysOut (rd : Nat → Nat → Nat) (pat k : Td) (nk : Nat) : Nat :=
  ((List.range nk).filter fun i =>
    let e := rdLe (rd pat.space) (pat.base + 4 * i) 4
    k.d1 ≤ e && e != 0xFFFFFFFF).length

/-- Block `b` of key or value row `e` (R161: 128 codes and four scales per row, packed). -/
def kvBlk (rd : Nat → Nat → Nat) (t : Td) (e b : Nat) : Blk :=
  { kind := .int
    vals := (List.range 32).map fun i => fpOfInt (sext 8 (rd t.space (t.base + 128 * e + 32 * b + i)))
    sc := rd t.space (t.scaleB * 256 + 4 * e + b) % 256
    outs := [] }

/-- The stored value of a score or exponential: FP32 or BF16 with RNE (R113). -/
def scoreFmt (sfmt16 : Bool) (v : Nat) : Nat := if sfmt16 then r32 (bf16 (rbf16 (f32 v))) else v

/-- The stored score of a query against a key (R113 step 1); a padding key has −∞ (R161). -/
def attnScore (rd : Nat → Nat → Nat) (p : AttnOpt) (k : Td) (tq : Nat) (qb : List Blk) (key : Option Nat) : Nat :=
  match key with
  | none => r32 (.inf true)
  | some e =>
    let acc := accBlocks 0 qb ((List.range 4).map fun b => kvBlk rd k e b)
    scoreFmt p.sfmt16 (mul32 (mul32 (mul32 acc k.tscale) tq) p.qscale)

/-- A query row after the soft maximum: no contributing key, a NaN row, or its quantised probability blocks. -/
inductive PRow where
  | empty
  | nan
  | probs (blks : List QBlk)
deriving DecidableEq, Repr

/-- The soft maximum and its quantisation (R147, R149, R113 steps 2 and 3) over the stored scores of a row. -/
def softRow (p : AttnOpt) (scores : List Nat) : PRow :=
  let mx := match scores with
    | [] => r32 (.inf true)
    | s :: t => t.foldl max32 (r32 (f32 s))
  if fpIsNan (f32 mx) || mx = r32 (.inf false) then .nan
  else if mx = r32 (.inf true) then .empty
  else
    let es := scores.map fun s => fnExp p.compat (f32 (sub32 s mx))
    let sum := es.foldl add32 0
    let r := softRecip p.compat sum
    let vs := es.map fun e => f32 (mul32 (scoreFmt p.sfmt16 e) r)
    .probs ((List.range (cdiv vs.length 32)).map fun b => quantBlk 5 7 false ((vs.drop (32 * b)).take 32))

/-- c_b of PV for one probability block and output channel `c` (R113 step 4). -/
def pvContrib (rd : Nat → Nat → Nat) (v : Td) (keys : List (Option Nat)) (c : Nat) (qb : QBlk) : Nat :=
  if qb.scale = 0 then 0
  else
    let terms := (qb.codes.zip keys).map fun p =>
      match p.2 with
      | none => fpZero
      | some e =>
        let sv := rd v.space (v.scaleB * 256 + 4 * e + c / 32) % 256
        fpMul (fpMul (fpOfInt (sext 8 p.1)) (fpOfInt (sext 8 (rd v.space (v.base + 128 * e + c))))) (ue5m3 sv)
    let s := fpSum terms
    r32 (fpMul (ue5m3 qb.scale) (if fpIsZero s then fpZero else s))

/-- The 128 output values of one query row. -/
def attnRow (rd : Nat → Nat → Nat) (p : AttnOpt) (q k v : Td) (keys : List (Option Nat)) (r : Nat) : List Nat :=
  let qb := rowBlks rd q r 128
  match softRow p (keys.map (attnScore rd p k q.tscale qb)) with
  | .empty => (List.range 128).map fun _ => 0
  | .nan => (List.range 128).map fun _ => nan32
  | .probs bs =>
    (List.range 128).map fun c =>
      let acc := (bs.mapIdx fun b qb => pvContrib rd v ((keys.drop (32 * b)).take 32) c qb).foldl add32 0
      mul32 (mul32 acc v.tscale) one32

/-- ATTN over run-time queries `m` (R113, R161, R186). -/
def attnEff (rd : Nat → Nat → Nat) (p : AttnOpt) (q k v o pat : Td) (m : Nat) : Eff :=
  if m = 0 then effNone
  else
    let keys := (List.range p.nk).map (keyAt rd pat k)
    let ys := (List.range m).map fun r => attnRow rd p q k v keys r
    let nonfin := sumN ((List.range m).map fun r =>
      match softRow p (keys.map (attnScore rd p k q.tscale (rowBlks rd q r 128))) with
      | .probs bs => sumN (bs.map (·.nonfin))
      | _ => 0)
    effCat [outWrite rd o p.oq p.rho p.first 0 128 ys,
      effCnt .keyRange (cdiv m 128 * keysOut rd pat k p.nk), effCnt .qntNonfinite nonfin]

/-- The fields of a pattern record (Table ATN-1). -/
structure Pattern where
  glB : Nat
  klB : Nat
  nf : Nat
  fh : Nat
  fw : Nat
  nkp : Nat
  g : Nat
  klc : Nat
  edge : Nat
  cf : Nat
  ofsW : Int
  ofsH : Int
  bw : Nat
  bh : Nat
  ww : Nat
  wh : Nat
  wt : Nat
  back : Nat
  resv : Nat
deriving DecidableEq, Repr

/-- Table ATN-1: the fields of a 256-bit pattern record. -/
def patDec (w : Nat) : Pattern :=
  { glB := fld w 255 216, klB := fld w 215 176, nf := fld w 175 160, fh := fld w 159 144, fw := fld w 143 128,
    nkp := fld w 127 112, g := fld w 111 101, klc := fld w 100 99, edge := fld w 98 98, cf := fld w 97 90,
    ofsW := sext 8 (fld w 89 82), ofsH := sext 8 (fld w 81 74), bw := fld w 73 66, bh := fld w 65 58,
    ww := fld w 57 51, wh := fld w 50 44, wt := fld w 43 37, back := fld w 36 31, resv := fld w 30 0 }

/-- PATTERN_ILLEGAL of R157. -/
def patIllegal (p : Pattern) : Bool :=
  p.nf = 0 || p.fh = 0 || p.fw = 0 || p.nkp % 128 != 0 || p.nkp = 0 || 1024 < p.g || p.cf = 0 || 64 < p.cf
  || p.bw = 0 || 128 < p.bw || p.bh = 0 || 128 < p.bh || p.ww = 0 || 64 < p.ww || p.wh = 0 || 64 < p.wh
  || p.wt = 0 || 64 < p.wt || p.wt ≤ p.back || p.resv != 0
  || (p.bh * p.bw) % 128 != 0 || 1024 < p.bh * p.bw

/-- PATTERN_TOO_LONG of R157. -/
def patTooLong (p : Pattern) : Bool := p.nkp < p.wt * p.wh * p.ww + p.g || 8192 < p.nkp

/-- Tiles per chunk (R158). -/
def patTpc (p : Pattern) : Nat := p.cf * cdiv p.fh p.bh * cdiv p.fw p.bw

/-- Chunks of the clip. -/
def patChunks (p : Pattern) : Nat := cdiv p.nf p.cf

/-- len(k) of R165. -/
def chunkLen (p : Pattern) (k : Nat) : Nat := min p.cf (p.nf - k * p.cf) * p.fh * p.fw

/-- start(k) of R165. -/
def chunkStart (p : Pattern) (nr : Nat) : Nat → Nat
  | 0 => 0
  | k + 1 => (chunkStart p nr k + chunkLen p k) % nr

/-- The window positions of tile `b` of chunk `c` in list order: (chunk of the key, list entry) (R159). -/
def windowKeys (p : Pattern) (nr pfx c b : Nat) : List (Nat × Nat) :=
  let nbw := cdiv p.fw p.bw
  let nbh := cdiv p.fh p.bh
  let lf := b / (nbh * nbw)
  let br := (b % (nbh * nbw)) / nbw
  let bc := b % nbw
  let f := c * p.cf + lf
  let r0 : Int := br * p.bh + p.ofsH
  let c0 : Int := bc * p.bw + p.ofsW
  let r0 : Int := if p.edge = 0 then max 0 (min r0 ((p.fh : Int) - p.wh)) else r0
  let c0 : Int := if p.edge = 0 then max 0 (min c0 ((p.fw : Int) - p.ww)) else c0
  (List.range p.wt).flatMap fun (i : Nat) =>
    let kf : Int := (f : Int) - p.back + (i : Nat)
    if kf < 0 || (p.nf : Int) ≤ kf then []
    else
      (List.range p.wh).flatMap fun (j : Nat) =>
        (List.range p.ww).filterMap fun (l : Nat) =>
          let kr : Int := r0 + (j : Nat)
          let kc : Int := c0 + (l : Nat)
          if kr < 0 || (p.fh : Int) ≤ kr || kc < 0 || (p.fw : Int) ≤ kc then none
          else
            let k := kf.toNat
            let t := (k % p.cf) * p.fh * p.fw + kr.toNat * p.fw + kc.toNat
            some (k / p.cf, pfx + (chunkStart p nr (k / p.cf) + t) % nr)

/-- The key list of tile `b` of chunk `c` (R159): window, then global positions, then padding up to NKP. -/
def keyList (p : Pattern) (nr pfx c b : Nat) (glist : List Nat) : List Nat :=
  let l := (windowKeys p nr pfx c b).map (·.2) ++ glist.map fun g => if g < pfx then g else 0xFFFFFFFF
  l ++ List.replicate (p.nkp - l.length) 0xFFFFFFFF

/-- Global entries that R159 replaces, counted in KEY_RANGE once per generated list (Table ATN-6). -/
def globalsOut (pfx : Nat) (glist : List Nat) : Nat := (glist.filter fun g => pfx ≤ g).length

end Sys2Proof.Machine
end

