-- ==== Sys2Proof/Machine/Vector.lean ====
section
/-! DEFINITION. The data part of VOP, SFN, RSTAT, QNT and DQT: tensor and scalar operations of 04 Table TIS-9 (R109), SFN
over a tensor (05 R137), row statistics (R150 to R153), quantisation and dequantisation of a region (04 R114, 02 R66). -/
namespace Sys2Proof.Machine

/-- The row of source `s` at the coordinates of row `r` of destination `d` (Table TIS-23: every source covers them). -/
def rowIn (s d : Td) (r : Nat) : Nat :=
  (r % d.d1) + s.d1 * ((r / d.d1) % d.d2) + s.d1 * s.d2 * (r / (d.d1 * d.d2))

/-- A two-source tensor operation on FP32 bits (Table TIS-9, codes 00h to 08h and 0Ah). -/
def vopElem (op a b c : Nat) : Nat :=
  match op with
  | 0x00 => add32 a b
  | 0x01 => sub32 a b
  | 0x02 => mul32 a b
  | 0x03 => fma32 a b c
  | 0x04 => max32 a b
  | 0x05 => min32 a b
  | 0x06 => abs32 a
  | 0x07 => neg32 a
  | 0x08 => relu32 a
  | 0x0A => mul32 a b
  | _ => a

/-- ROTARY on a pair (Table TIS-9, code 0Bh). -/
def rotPair (a0 a1 b c : Nat) : Nat × Nat :=
  (fma32 a0 b (neg32 (mul32 a1 c)), fma32 a1 b (mul32 a0 c))

/-- Does a tensor operation read a second and a third source? -/
def vopUsesB (op : Nat) : Bool := op ≤ 5 || op = 0x0A || op = 0x0B
/-- Does a tensor operation read TD_C? -/
def vopUsesC (op : Nat) : Bool := op = 3 || op = 0x0B
/-- Is the code a tensor operation (Table TIS-9)? -/
def vopLegal (op : Nat) : Bool := op ≤ 0x0B
/-- Is the code a scalar operation (Table TIS-9)? -/
def sopLegal (op : Nat) : Bool := op ≤ 0x0C || (0x10 ≤ op && op ≤ 0x15)

/-- VOP in tensor form over the run-time extent `se` along DIM0 and the planned rows of TD_D. `brow`: one value of b per row;
ROWSCALE takes one value of b per
row whatever BROW says (Table TIS-9; log 21). `imm`: the constant that takes b's place. Elements of a source beyond `se` read as zero (R98). -/
def vopEff (rd : Nat → Nat → Nat) (op : Nat) (d a b c : Td) (brow : Bool) (imm : Option Nat) (se : Nat) : Eff :=
  effCat ((List.range (tdRows d)).map fun r =>
    let av := fun e => if e < se then srcVal rd a (rowIn a d r) e else 0
    let bv := fun e => match imm with
      | some v => v
      | none => srcVal rd b (rowIn b d r) (if brow || op = 0x0A then 0 else e)
    let cv := fun e => srcVal rd c (rowIn c d r) e
    dstRow d r ((List.range se).map fun e =>
      if op = 0x0B then
        let e0 := 2 * (e / 2)
        let p := rotPair (av e0) (av (e0 + 1)) (bv e0) (cv e0)
        if e % 2 = 0 then p.1 else p.2
      else vopElem op (av e) (bv e) (cv e)))

/-- SFN over the run-time extent along DIM0 (R137). -/
def sfnEff (rd : Nat → Nat → Nat) (compat : Bool) (ut : Tbl UTab) (fn : Nat) (d a : Td) (se : Nat) : Eff :=
  effCat ((List.range (tdRows d)).map fun r =>
    dstRow d r ((List.range se).map fun e => sfn compat ut fn (srcVal rd a (rowIn a d r) e)))

/-- Results of a statistic per row. -/
def statWidth (stat : Nat) : Nat := if stat = 3 then 2 else 1

/-- RSTAT over run-time rows and length; result j of the flat sequence is element j of TD_D's view (R111, R150). -/
def rstatEff (rd : Nat → Nat → Nat) (compat : Bool) (stat : Nat) (d a : Td) (rows len : Nat) : Eff :=
  effCat ((List.range rows).map fun r =>
    let vs := rstatRow compat stat ((List.range len).map fun e => srcVal rd a r e)
    effCat (vs.mapIdx fun i v =>
      let j := r * statWidth stat + i
      effWr d.space (rowAddr d (j / d.d0) + 4 * (j % d.d0)) (leBytes 4 v)))

/-- QNT of `rows` × `cols` FP32 values into TD_D, from a source descriptor (R114). -/
def qntEff (rd : Nat → Nat → Nat) (first : Bool) (rho : Nat) (d a : Td) (rows cols : Nat) : Eff :=
  quantRows rd d rho first d.tq (fun r c => srcVal rd a r c) (fun _ => cols) 0 rows cols

/-- The value DQT writes for element (r, c) (R66): exact product rounded once; with TSC a second rounding. A per-channel scale is that of
the row, the output channel of a weight tensor (R37, R39). -/
def dqtVal (rd : Nat → Nat → Nat) (tsc : Bool) (bf : Bool) (a : Td) (r c : Nat) : Nat :=
  let x := deqVal rd a r c
  if tsc then mul32 (r32 x) (tensorScale rd a r) else if bf then r32 (bf16 (rbf16 x)) else r32 x

/-- DQT of `rows` × `cols` elements (R66, R114). -/
def dqtEff (rd : Nat → Nat → Nat) (tsc : Bool) (d a : Td) (rows cols : Nat) : Eff :=
  if cols = 0 then effNone
  else effApp (effCat ((List.range rows).map fun r =>
      dstRow d r ((List.range cols).map fun c => dqtVal rd tsc (d.fmt = 8) a r c)))
    (effCnt .wtIllegalBytes (wtBad rd a 0 rows cols))

/-- A scalar operation on 64-bit values (Table TIS-9, R109); compares are in `scalarCmp`. LI sign-extends its 32-bit IMM, as UIMM does
for a second source (DEDUCED, log 49: Table TIS-9 says only SD = IMM). -/
def scalarOp (op : Nat) (sd a b imm : Nat) : Nat :=
  match op with
  | 0x00 => wrap64 (sext 32 imm)
  | 0x01 => (a + b) % 2 ^ 64
  | 0x02 => wrap64 ((a : Int) - b)
  | 0x03 => (a * b) % 2 ^ 64
  | 0x04 => (a <<< (b % 64)) % 2 ^ 64
  | 0x05 => a >>> (b % 64)
  | 0x06 => wrap64 ((sext 64 a) / ((2 : Int) ^ (b % 64)))
  | 0x07 => a &&& b
  | 0x08 => a ||| b
  | 0x09 => a ^^^ b
  | 0x0A => if sext 64 a ≤ sext 64 b then a else b
  | 0x0B => if sext 64 a ≤ sext 64 b then b else a
  | 0x0C => imm % 2 ^ 32 * 2 ^ 32 + sd % 2 ^ 32
  | _ => sd

end Sys2Proof.Machine
end

