-- ==== Sys2Proof/Machine/Flags.lean ====
section
/-! DEFINITION. The block has no processor flags; its condition bits are the predicates of a spire. This file holds every
rule that computes one: the governing predicate (04 R96), scalar compares (R109), the GATE decision (08 R206, R210). -/
namespace Sys2Proof.Machine

/-- The result of a scalar compare, code 10h to 15h (Table TIS-9). -/
def scalarCmp (op a b : Nat) : Bool :=
  match op with
  | 0x10 => a == b
  | 0x11 => a != b
  | 0x12 => decide (sext 64 a < sext 64 b)
  | 0x13 => decide (sext 64 a ≤ sext 64 b)
  | 0x14 => decide (a < b)
  | _ => decide (a ≤ b)

/-- Is a scalar operation a compare? -/
def isCmp (op : Nat) : Bool := 0x10 ≤ op

/-- Predicate `i` of a predicate byte: bit i; P0 always reads 1 (03 R86). -/
def predBit (preds i : Nat) : Bool := i = 0 || bitOf preds i

/-- The predicate byte with predicate `i` written; a write to P0 is discarded (R86). -/
def predSet (preds i : Nat) (v : Bool) : Nat := if i = 0 then preds else setFld preds i i (b2n v)

/-- R96: does a word with this NEG and PRED execute? -/
def predHolds (preds neg pred : Nat) : Bool := predBit preds pred != (neg == 1)

/-- A GATE decision: whether to compute, and whether the computation was forced (counted in GATE_FORCED). -/
structure GateDec where
  compute : Bool
  forced : Bool
deriving DecidableEq, Repr

/-- Exact mode (R206): reuse only with P7 = 0, a valid previous table of the pass before, and equal entries. -/
def gateExact (p7 validPrev : Bool) (passPrev passCur fpPrev fpCur : Nat) : GateDec :=
  if p7 || !validPrev || (passPrev + 1) % 2 ^ 32 != passCur then ⟨true, true⟩ else ⟨fpPrev != fpCur, false⟩

/-- Threshold mode (R210, R127): reuse only with P7 = 0, a valid table and an entry below the threshold; a NaN computes. -/
def gateThreshold (p7 valid : Bool) (entry thr : Nat) : GateDec :=
  if p7 || !valid then ⟨true, true⟩ else ⟨!fpLt (f32 entry) (f32 thr), false⟩

end Sys2Proof.Machine
end

