-- ==== Sys2Proof/Machine/MoveData.lean ====
section
/-! DEFINITION. The data part of MOVE (04 R117, Table TIS-14): copy and layout conversions (07 R194), quantisation and
dequantisation, fingerprints (08 R204, R205), length buckets (06 R170, R171), gather. -/
namespace Sys2Proof.Machine

/-- Elements of one step of the outermost dimension of a descriptor, the highest of DIM1 to DIM3 above 1, else DIM0. -/
def outerInner (t : Td) : Nat :=
  if 1 < t.d3 then t.d0 * t.d1 * t.d2 else if 1 < t.d2 then t.d0 * t.d1 else if 1 < t.d1 then t.d0 else 1

/-- The planned extent of the outermost dimension. -/
def outerExt (t : Td) : Nat := if 1 < t.d3 then t.d3 else if 1 < t.d2 then t.d2 else if 1 < t.d1 then t.d1 else t.d0

/-- Rows and columns of the element of linear index `e` in a descriptor's view. -/
def rcOf (t : Td) (e : Nat) : Nat × Nat := (e / t.d0, e % t.d0)

/-- The stored code of an element as a number, for formats that pack it into whole or part bytes. An illegal WT byte that cannot be kept
whole (`storedByte`) gives its base-3 digits modulo 3 (DESIGN CHOICE, log 52: the spec is silent). -/
def rawCode (rd : Nat → Nat → Nat) (t : Td) (r c : Nat) : Nat :=
  let a := rowAddr t r
  match t.fmt with
  | 2 => (rd t.space (a + c / 2) >>> (4 * (c % 2))) % 16
  | 9 => (rd t.space (a + c / 2) >>> (4 * (c % 2))) % 16
  | 3 => (rd t.space (a + c / 4) >>> (2 * (c % 4))) % 4
  | 4 => let b := rd t.space (wtByteAddr a c)
         (b / 3 ^ (if c % 32 < 30 then (c % 32) % 5 else c % 32 - 30)) % 3
  | 8 => rdLe (rd t.space) (a + 2 * c) 2
  | 10 => rdLe (rd t.space) (a + 4 * c) 4
  | _ => rd t.space (a + c) % 256

/-- The columns whose codes stand in byte `i` of a row (R30 to R32). -/
def byteCols (fmt i : Nat) : List Nat :=
  match fmt with
  | 2 | 9 => [2 * i, 2 * i + 1]
  | 3 => (List.range 4).map (4 * i + ·)
  | 4 => (List.range (if i % 7 < 6 then 5 else 2)).map (32 * (i / 7) + 5 * (i % 7) + ·)
  | 8 => [i / 2]
  | 10 => [i / 4]
  | _ => [i]

/-- Byte `i` of a row whose element `c` has the code `code c`. -/
def byteOf (fmt i : Nat) (code : Nat → Nat) : Nat :=
  match fmt with
  | 2 | 9 => code (2 * i) + 16 * code (2 * i + 1)
  | 3 => ofBase 4 ((byteCols 3 i).map code)
  | 4 => ofBase 3 ((byteCols 4 i).map code)
  | 8 => (code (i / 2) >>> (8 * (i % 2))) % 256
  | 10 => (code (i / 4) >>> (8 * (i % 4))) % 256
  | _ => code i % 256
where
  /-- The number whose digits, lowest first, are given. -/
  ofBase (b : Nat) : List Nat → Nat
    | [] => 0
    | d :: ds => d + b * ofBase b ds

/-- The bytes of a run of `n` codes from column 0 in the stored packing of a format. -/
def packRow (fmt n : Nat) (code : Nat → Nat) : List Nat :=
  (List.range (rowBytes fmt n)).map fun i => byteOf fmt i fun c => if c < n then code c else 0

/-- Where the elements of a destination row come from: row and column of the source, or nothing for an element that reads as zero. -/
abbrev Src := Nat → Option (Nat × Nat)

/-- Bytes with their places, neighbours joined. -/
def joinBytes : List (Nat × Nat) → List (Nat × List Nat)
  | [] => []
  | (i, b) :: t =>
    match joinBytes t with
    | (j, bs) :: r => if j = i + 1 then (i, b :: bs) :: r else (i, [b]) :: (j, bs) :: r
    | [] => [(i, [b])]

/-- The code of a destination element; WT has no code 0 for the value 0 (R32). -/
def srcCode (rd : Nat → Nat → Nat) (a : Td) (f : Src) (c : Nat) : Nat :=
  match f c with
  | some s => rawCode rd a s.1 s.2
  | none => if a.fmt = 4 then 1 else 0

/-- The illegal WT byte that becomes byte `i` of a destination row of `n` elements undecoded (R33): at least one element of it is written
from the source, and those that are come from one source byte, each at its place there. It is then stored whole, whatever else the
destination byte carries (DESIGN CHOICE, log 52). A legal byte is packed anew from its codes. -/
def storedByte (rd : Nat → Nat → Nat) (a : Td) (f : Src) (ok : Nat → Bool) (n i : Nat) : Option Nat :=
  let cs := byteCols 4 i
  let went := (cs.zip (List.range 5)).filterMap fun c => if c.1 < n && ok c.1 then (f c.1).map fun s => (c.2, s) else none
  match went with
  | [] => none
  | (k, s) :: _ =>
    let b := rd a.space (wtByteAddr (rowAddr a s.1) s.2) % 256
    if a.fmt = 4 && !wtLegal s.2 b && k ≤ s.2 && (s.2 - k) % 32 = cs.headD 0 % 32
        && went.all (fun q => q.2.1 = s.1 && q.2.2 + k = s.2 + q.1) then some b
    else none

/-- The codes of destination row `r` at the columns `ok`; every other element of a byte keeps its code (R98), but beside an illegal WT byte
that is stored whole. -/
def putCodes (rd : Nat → Nat → Nat) (a d : Td) (r : Nat) (f : Src) (ok : Nat → Bool) (code : Nat → Nat) : Eff :=
  let bytes := (List.range (rowBytes d.fmt d.d0)).filterMap fun i =>
    if (byteCols d.fmt i).any ok then
      some (i, (storedByte rd a f ok d.d0 i).getD (byteOf d.fmt i fun c => if ok c then code c else if c < d.d0 then rawCode rd d r c else 0))
    else none
  effCat ((joinBytes bytes).map fun q => effWr d.space (rowAddr d r + q.1) q.2)

/-- Destination row `r` of a copy through an element map (CONV 0, 1, 2, 5 and 7): codes as stored at the columns `ok`, and the scale of
each block that holds one of them. The spec states no result for a block whose elements come from blocks of different scales: `mix` gives
its scale and codes from the codes and scales of its elements (log 21). -/
def copyRow (rd : Nat → Nat → Nat) (mix : List (Nat × Nat) → Nat × List Nat) (a d : Td) (f : Src) (ok : Nat → Bool) (r : Nat) : Eff :=
  let ok := fun c => c < d.d0 && ok c
  if !hasScales d.fmt then putCodes rd a d r f ok (srcCode rd a f)
  else
    let sc := fun c => match f c with
      | some s => rd a.space (scaleAddr a s.1 (s.2 / 32)) % 256
      | none => 0
    let cols := fun b => ((List.range 32).map (32 * b + ·)).filter ok
    let mixed := fun b => ((cols b).filter fun c => (f c).isSome).any fun c => sc c != sc ((cols b).headD 0)
    let res := fun b => mix ((List.range 32).map fun i => if ok (32 * b + i) then (srcCode rd a f (32 * b + i), sc (32 * b + i)) else (0, 0))
    effApp (putCodes rd a d r (fun c => if mixed (c / 32) then none else f c) ok fun c =>
        if mixed (c / 32) then nth (res (c / 32)).2 (c % 32) % 256 else srcCode rd a f c)
      (effCat (((List.range (tdRowBlocks d)).filter fun b => !(cols b).isEmpty).map fun b =>
        effWr d.space (scaleAddr d r b) [if mixed b then (res b).1 % 256 else sc ((cols b).headD 0)]))

/-- The source element of linear index r × DIM0 + c. -/
def linMap (a d : Td) (r c : Nat) : Nat × Nat := rcOf a (r * d.d0 + c)

/-- The columns of destination row `r` that hold elements of linear index below `v`. -/
def colsBelow (d : Td) (v r : Nat) : Nat := min d.d0 (v - r * d.d0)

/-- CONV 0h: copy of the first `v` elements in linear order. -/
def moveCopy (rd : Nat → Nat → Nat) (mix : List (Nat × Nat) → Nat × List Nat) (a d : Td) (v : Nat) : Eff :=
  effCat ((List.range (cdiv v d.d0)).map fun r =>
    copyRow rd mix a d (fun c => some (linMap a d r c)) (fun c => c < colsBelow d v r) r)

/-- Has a descriptor the view of a channel-blocked layout with more than one frame, channel block or clip (R194)? The token-major side
has DIM2 = DIM3 = 1 (R195). -/
def isBlocked (t : Td) : Bool := t.d2 * t.d3 != 1

/-- Is the destination of a layout conversion the channel-blocked side? Where neither view is blocked by its DIM2 and DIM3, there is one
frame and one block of `lc` channels, and the token-major side is the one whose DIM0 is `lc` (DEDUCED, log 21). -/
def toBlocked (a d : Td) (lc : Nat) : Bool := if isBlocked d then true else if isBlocked a then false else a.d0 = lc

/-- The token-major element (position, channel) of element (row, column) of a channel-blocked view (R194): `nb` channel
blocks per clip. -/
def blockedPos (t : Td) (lc nb r c : Nat) : Nat × Nat :=
  let w := t.d0 / lc
  let h := r % t.d1
  let fr := (r / t.d1) % t.d2
  let k := r / (t.d1 * t.d2)
  let clip := k / nb
  ((((clip * t.d2 + fr) * t.d1 + h) * w + c / lc), (k % nb) * lc + c % lc)

/-- The channel-blocked element of a token-major element (position, channel). -/
def posBlocked (t : Td) (lc nb p ch : Nat) : Nat × Nat :=
  let w := t.d0 / lc
  let x := p % w
  let h := (p / w) % t.d1
  let fr := (p / (w * t.d1)) % t.d2
  let clip := p / (w * t.d1 * t.d2)
  let k := clip * nb + ch / lc
  (((k * t.d2 + fr) * t.d1 + h), x * lc + ch % lc)

/-- CONV 1h and 2h: layout conversion between token-major and a layout of `lc` channels per position (R194). Elements beyond the
source's run-time extent `v` are not written (R98). -/
def moveLayout (rd : Nat → Nat → Nat) (mix : List (Nat × Nat) → Nat × List Nat) (a d : Td) (lc v : Nat) : Eff :=
  let f : Nat → Nat → Nat × Nat :=
    if toBlocked a d lc then blockedPos d lc (max 1 (cdiv a.d0 lc)) else posBlocked a lc (max 1 (cdiv d.d0 lc))
  effCat ((List.range (tdRows d)).map fun r =>
    copyRow rd mix a d (fun c => some (f r c)) (fun c => (f r c).2 < a.d0 && (f r c).1 * a.d0 + (f r c).2 < v) r)

/-- CONV 3h: quantisation of FP32 or A16 elements into TD_D (R48 to R65, R115). -/
def moveQuant (rd : Nat → Nat → Nat) (first : Bool) (rho : Nat) (a d : Td) (v : Nat) : Eff :=
  quantRows rd d rho first d.tq (fun r c => srcVal rd a (linMap a d r c).1 (linMap a d r c).2)
    (colsBelow d v) 0 (cdiv v d.d0) (min d.d0 v)

/-- CONV 4h: dequantisation, with outliers and shadows (R59). -/
def moveDequant (rd : Nat → Nat → Nat) (a d : Td) (v : Nat) : Eff :=
  effApp (effCat ((List.range (cdiv v d.d0)).map fun r =>
      dstRow d r ((List.range (colsBelow d v r)).map fun c =>
        let s := linMap a d r c
        let x := deqVal rd a s.1 s.2
        if d.fmt = 8 then r32 (bf16 (rbf16 x)) else r32 x)))
    (effCnt .wtIllegalBytes (wtBad rd a 0 (cdiv v a.d0) (min a.d0 v)))

/-- One byte through the reflected CRC-64 of R204 (polynomial 42F0_E1EB_A9EA_3693h). -/
def crcByte (crc b : Nat) : Nat := crcBits 8 (crc ^^^ (b % 256))
where
  crcBits : Nat → Nat → Nat
    | 0, c => c
    | n + 1, c => crcBits n (if c % 2 = 1 then (c >>> 1) ^^^ 0xC96C5795D7870F42 else c >>> 1)

/-- The CRC-64 of a byte stream with the parameters of R204. -/
def crc64 (bs : List Nat) : Nat := (bs.foldl crcByte 0xFFFFFFFFFFFFFFFF) ^^^ 0xFFFFFFFFFFFFFFFF

/-- The byte stream of tile (i, j) (Table PAS-3; a COUNT above CAP is read as CAP, R53), for `vr` valid rows and `vc` valid columns in the
tile. An illegal WT byte with a valid element enters as stored (R33), one without enters as 00h. -/
def fpStream (rd : Nat → Nat → Nat) (t : Td) (i j vr vc : Nat) : List Nat :=
  let pre := [t.fmt, b2n t.outEn] ++ leBytes 2 vr ++ leBytes 2 vc ++ [0, 0]
  let tile := tileIdx t (128 * i) (128 * j)
  let ovf := tileOver rd t tile
  let rows :=
    if ovf then
      (List.range 128).flatMap fun y => (List.range 128).flatMap fun x =>
        if y < vr && x < vc then leBytes 2 (shadowVal rd t (128 * i + y) (128 * j + x)) else [0, 0]
    else
      (List.range 128).flatMap fun y =>
        let r := 128 * i + y
        let ok := fun x => y < vr && x < vc
        let raw := (List.range (rowBytes t.fmt 128)).map fun i =>
          (storedByte rd t (fun x => some (r, 128 * j + x)) ok vc i).getD
            (byteOf t.fmt i fun x => if ok x then rawCode rd t r (128 * j + x) else 0)
        raw ++ (if hasScales t.fmt then
            (List.range 4).map fun b => if y < vr && 32 * b < vc then rd t.space (scaleAddr t r (4 * j + b)) % 256 else 0
          else [])
  let outs :=
    if t.outEn then
      let es := recEntries rd t tile
      if ovf then leBytes 2 0xFFFF else leBytes 2 es.length ++ es.flatMap (leBytes 4)
    else []
  pre ++ rows ++ outs

/-- The fingerprints of CONV 5h (R204, R205): one per tile that holds valid elements, `rows` × `cols` valid. -/
def moveFp (rd : Nat → Nat → Nat) (a x : Td) (rows cols : Nat) : Eff :=
  effCat ((List.range (cdiv rows 128)).flatMap fun i =>
    (List.range (cdiv cols 128)).map fun j =>
      let k := i * cdiv a.d0 128 + j
      effWr x.space (x.base + 64 + 8 * k)
        (leBytes 8 (crc64 (fpStream rd a i j (min 128 (rows - 128 * i)) (min 128 (cols - 128 * j))))))

/-- The bounds U_k of a bucket table at address `x` (R170). -/
def bucketU (rd : Nat → Nat) (x nb : Nat) : List Nat := (List.range nb).map fun k => rdLe rd (x + 16 + 8 * k) 4

/-- ILLEGAL_DESCRIPTOR of R170. -/
def bucketBad (nb : Nat) (us : List Nat) : Bool :=
  nb = 0 || 16 < nb || us.any (fun u => u = 0 || u % 128 != 0) || !(us.zip us.tail).all fun p => p.1 < p.2

/-- The bucket of a token count: the first bound not below it, else the overflow group (R171). -/
def bucketOf (us : List Nat) (count : Nat) : Nat := (us.findIdx? fun u => count ≤ u).getD us.length

/-- CONV 6h: stable sort of `n` 16-byte records into buckets (R171). -/
def moveBuckets (rd : Nat → Nat → Nat) (a d x : Td) (n : Nat) : Eff :=
  let nb := rdLe (rd x.space) x.base 2 % 32
  let us := bucketU (rd x.space) x.base nb
  let recs := (List.range n).map fun i => rdBytes (rd a.space) (a.base + 16 * i) 16
  let key := fun (r : List Nat) => bucketOf us (ofLe (r.take 4))
  let groups := (List.range (nb + 1)).map fun k => recs.filter fun r => key r == k
  let starts := groups.foldl (fun (p : Nat × List Nat) g => (p.1 + g.length, p.2 ++ [p.1])) (0, [])
  let ovf := (groups.getD nb []).length
  effCat ([(if n = 0 then effNone else effWr d.space d.base (groups.flatMap fun g => g.flatten)),
      effWr x.space (x.base + 4) (leBytes 2 ovf)] ++
    ((List.range nb).map fun k =>
      effWr x.space (x.base + 16 + 8 * k + 4)
        (leBytes 2 (groups.getD k []).length ++ leBytes 2 (if n = 0 then 0 else nth starts.2 k))) ++
    [effCnt .bucketOverflow ovf])

/-- CONV 7h: row `i` of TD_D is the row of TD_A that entry `i` of the 32-bit index list in TD_X names, for every planned row of TD_D
(Table TIS-20). Elements beyond the first `v` of TD_A, its run-time extent along its outermost dimension (Table TIS-13), read as zero
(R98); so does a row that TD_A does not have (DEDUCED, log 26). -/
def moveGather (rd : Nat → Nat → Nat) (mix : List (Nat × Nat) → Nat × List Nat) (a d x : Td) (v : Nat) : Eff :=
  effCat ((List.range (tdRows d)).map fun i =>
    let j := rdLe (rd x.space) (x.base + 4 * i) 4
    copyRow rd mix a d (fun c => if c < a.d0 && j * a.d0 + c < v then some (j, c) else none) (fun c => c < a.d0) i)

end Sys2Proof.Machine
end

