-- ==== Sys2Proof/Machine/Issue.lean ====
section
/-! DEFINITION. Issue of a tile instruction (03 R84, R91; 04 R96 to R101; 11 R255, R256): fetch, predicate, refusal, hazards,
the instruction's data effect, and what a spire's state becomes. An instruction reads its operands and issues its writes in the
step that issues it (log 25). -/
namespace Sys2Proof.Machine

/-! Fetching (04 R93, R129 item 7). -/

/-- The logical spire or stolen iteration that a spire issues for. -/
def curCtx (x : Spire) : Option LCtx :=
  match x.stolen with
  | some t => some t.ctx
  | none => x.run

/-- The spire with that context replaced. -/
def setCtx (x : Spire) (c : LCtx) : Spire :=
  match x.stolen with
  | some t => { x with stolen := some { t with ctx := c } }
  | none => { x with run := some c }

/-- The word at the program counter: from the steal buffer in a stolen iteration. -/
def curWord (x : Spire) (c : LCtx) : Option Nat :=
  match x.stolen with
  | some t => if c.pc ≤ t.loopPc then none else x.steal[c.pc - t.loopPc - 1]?
  | none => (tget [] x.progs c.lidx)[c.pc]?

/-- Is a logical spire blocked: a wait of its has not succeeded? -/
def ctxBlocked (c : LCtx) : Bool := c.waits.any fun w => !w.ok

/-- May a spire issue now: RUNNING, no change under way or owed to the logical spire released first, no save requested (a stolen iteration completes first, R129 item 8), its
logical spire neither blocked nor ended, and no FENCE of it in flight (R117: a FENCE orders what follows it; log 33)? -/
def mayIssue (x : Spire) (c : LCtx) : Bool :=
  x.st = .running && !x.changing && (x.resume.isNone || x.stolen.isSome) && (!x.saveReq || x.stolen.isSome) && !ctxBlocked c && !c.halting && !c.halted
  && !(x.infl.any fun f => f.wait = 1 && f.lidx = c.lidx)

/-- Are both carried logical spires blocked? -/
def bothBlocked (x : Spire) : Bool := x.run.any ctxBlocked && x.other.any ctxBlocked

/-- A spire whose waits were tested, `x0` before and `x` after: of two blocked logical spires it resumes the one released first, of two
released in the same cycle the lower index (01 R25). -/
def noteFirst (x0 x : Spire) : Spire :=
  match x.run, x.other with
  | some c, some o =>
    if bothBlocked x0 && !ctxBlocked o && (ctxBlocked c || o.lidx < c.lidx) then { x with resume := some o.lidx } else x
  | _, _ => x

/-- The state of a spire by what it runs (Table SPI-5); a stolen iteration and a change under way complete before a save (03 R89). -/
def settle (x : Spire) : Spire :=
  if x.st != .running && x.st != .blocked && x.st != .halted then x
  else
    let fin := fun (c : LCtx) => if c.halting && x.infl.isEmpty then { c with halted := true } else c
    let x := if x.stolen.isSome then x else { x with run := x.run.map fin }
    let done := fun (o : Option LCtx) => o.all (·.halted)
    let stop := fun (o : Option LCtx) => o.all fun c => c.halted || ctxBlocked c
    if x.stolen.isSome || x.changing then { x with st := .running }
    else if x.saveReq then { x with st := .saving }
    else if done x.run && done x.other then { x with st := .halted }
    else if stop x.run && stop x.other && x.infl.isEmpty then { x with st := .blocked }
    else { x with st := .running }

/-! Refusals (04 R101, Table TIS-3). -/

/-- One check: it fails, with which cause, and for SHAPE_OVER_PLAN the run-time extent and the planned size. -/
abbrev Chk := Bool × Nat × Nat × Nat

/-- The failing check of lowest cause, the first of those (log 26). -/
def firstBad (l : List Chk) : Option Chk :=
  (l.filter (·.1)).foldl (fun (b : Option Chk) c => match b with
    | some d => if c.2.1 < d.2.1 then some c else some d
    | none => some c) none

/-- A check with a cause only. -/
def chk (bad : Bool) (cause : Nat) : Chk := (bad, cause, 0, 0)

/-- A run-time extent above a planned one (R98). -/
def extChk (v plan : Nat) : Chk := (plan < v, 0x103, v, plan)

/-- The checks on one descriptor: its own fields (03 R87), the space its operand permits (R100), the scratchpad range (03 R81). -/
def tdChk (spOnly : Bool) (t : Td) : List Chk :=
  [chk (tdIllegal t == some 0x101) 0x101, chk (tdIllegal t == some 0x102) 0x102, chk (spOnly && t.space != 0) 0x102,
   chk (tdScratchBad t) 0x104]

/-- A refused instruction: SHAPE_OVER_PLAN ends the request (07 R181), every other cause the job (R18, R101). -/
def refuse (s : State) (p j : Nat) (c : LCtx) (b : Chk) : State :=
  let s := modSp s p fun x => { x with st := .faulted, cause := b.2.1, param := c.pc }
  if b.2.1 = 0x103 then
    endRequest s j 0x103 (c.lidx + c.pc * 256) 0x0520 1 [c.lidx, c.pc, b.2.2.1, b.2.2.2]
  else jobFault s j b.2.1 c.lidx 0

/-! Hazards (03 R84, Table SPI-11). -/

/-- Do two lists of byte intervals overlap? -/
def ivOverlap (a b : List (Nat × Nat)) : Bool := a.any fun u => b.any fun v => u.1 < v.2 && v.1 < u.2

/-- Do scratchpad intervals wait for older instructions? -/
def ivHeld (x : Spire) (rd wr : List (Nat × Nat)) : Bool :=
  x.infl.any fun i => ivOverlap rd i.wr || ivOverlap wr i.wr || ivOverlap wr i.rd

/-- Is a slot of a unit taken: the matrix engine has one queued slot, every other unit none? -/
def unitHeld (x : Spire) (u : Nat) : Bool := (if u = 0 then 2 else 1) ≤ (x.infl.filter fun i => i.units.contains u).length

/-- The units of a row-wise function code (Table SPI-11). -/
def funcUnits (f : Nat) : List Nat := if f = 0 then [] else if f = 1 then [1] else [1, 2]

/-! Issued writes (11 R255, R256). -/

/-- A write joined to the run of an instruction that it continues; one that a later run overlaps keeps its place. -/
def joinRun : List Wr → Wr → List Wr
  | [], w => [w]
  | r :: rs, w =>
    if r.addr + r.data.length = w.addr && rs.all (fun q => q.addr + q.data.length ≤ w.addr || w.addr + w.data.length ≤ q.addr) then
      { r with data := r.data ++ w.data } :: rs
    else r :: joinRun rs w

/-- The runs of bytes that an effect writes to job memory: an instruction writes each line, and each unit of a protected window that it covers
whole, once (11 R256, 17 R392). -/
def effRuns (e : Eff) : List Wr := (e.wr.filter (·.space != 0)).foldl joinRun []

/-- Does an address lie in a protected window? -/
def gcmAt (s : State) (x : Job) (va : Nat) : Bool :=
  (xlate s x va).any fun t => paKind t.2 = .window && (tfind s.wins (winIdx t.2).1).any (·.gcm)

/-- The pieces in which a run is issued: lines, in a protected window units (11 R256, 17 R392). -/
def issueCut (s : State) (x : Job) (va : Nat) (bs : List Nat) : List (Nat × List Nat) :=
  (units va bs).flatMap fun u => if gcmAt s x u.1 then [u] else lines u.1 u.2

/-- One piece of a write is issued; the request's memory is marked as written (07 R181). -/
def issueOne (s : State) (j lsp seq : Nat) (qsw : Bool) (l : Nat × List Nat) (pa : Nat) : State :=
  let i := freshId s
  let w : PWr := { id := i.1, job := j, lsp := lsp, seq := seq, qsw := qsw, host := paKind pa == .window, va := l.1, pa := pa, data := l.2 }
  noteWrite { i.2 with writes := i.2.writes ++ [w] } j pa l.2.length

/-- A write to job memory is issued, piece by piece. -/
def issueWr (s : State) (j lsp seq : Nat) (qsw : Bool) (va : Nat) (bs : List Nat) : State :=
  match jobOf s j with
  | none => s
  | some x => (issueCut s x va bs).foldl (fun s l =>
      match xlate s x l.1 with
      | none => s
      | some (_, pa) => issueOne s j lsp seq qsw l pa) s

/-- The data effect of an instruction: the scratchpad at once, job memory as issued writes, the job's counters. -/
def landEff (s : State) (p j lsp seq : Nat) (e : Eff) : State :=
  let s := modSp s p fun x => { x with sp := (e.wr.filter (·.space = 0)).foldl (fun st w => st.put w.addr w.data) x.sp }
  let s := (effRuns e).foldl (fun s w => issueWr s j lsp seq false w.addr w.data) s
  let s := e.qsw.foldl (fun s a => issueWr s j lsp seq true a (List.replicate 8 0)) s
  modJob s j fun x => e.cnt.foldl (fun x c => ctrAdd x c.1 c.2) x

/-- The job-virtual ranges that an effect writes. -/
def effRanges (e : Eff) : List (Nat × Nat) :=
  ((effRuns e).map fun w => (w.addr, w.data.length)) ++ e.qsw.map fun a => (a, 8)

/-- The job-virtual ranges that reading rows r0 ..< r1 below column `cols` of an operand touches: codes and scales, and with
outlier records the records and the shadows of overflowed tiles. -/
def tdAcc (rd : Nat → Nat → Nat) (t : Td) (r0 r1 cols : Nat) : List (Nat × Nat) :=
  if r1 ≤ r0 || cols = 0 then []
  else
    let rows := (List.range (r1 - r0)).map (r0 + ·)
    (if t.space = 0 then [] else
      rows.flatMap fun r => (rowAddr t r, rowBytes t.fmt cols) ::
        (if hasScales t.fmt then [(scaleAddr t r 0, cdiv cols 32)] else []))
    ++ (if t.outEn && 5 ≤ t.fmt && t.fmt ≤ 7 then
          (List.range (cdiv r1 128 - r0 / 128)).flatMap fun i => (List.range (cdiv cols 128)).flatMap fun k =>
            let tile := (r0 / 128 + i) * cdiv t.d0 128 + k
            (recAddr t tile, recSize t) :: (if tileOver rd t tile then [(shadowAddr t tile, 32768)] else [])
        else [])

/-- The range of per-channel tensor scales that `n` channels of an operand read. -/
def perchAcc (t : Td) (n : Nat) : List (Nat × Nat) := if t.perch && 0 < n then [(t.auxB * 256, 4 * n)] else []

/-- The range of `n` bias values. -/
def biasAcc (en : Bool) (t : Td) (n : Nat) : List (Nat × Nat) := if en && t.space = 1 && 0 < n then [(t.base, 4 * n)] else []

/-- A failed access of an instruction (09 R219, R228): a fault of the job, or the request's end. -/
def accFail (s : State) (p j : Nat) (c : LCtx) (b : AccBad) : State :=
  match b with
  | .fault cause va => jobFault (modSp s p fun x => { x with st := .faulted, cause := cause, param := c.pc }) j cause c.lidx va
  | .err status pa => requestError s j status pa

/-- Does a range of writes meet a page that the job's sequences share (06 R175: the first write is held)? -/
def shrHeld (s : State) (x : Job) (wrs : List (Nat × Nat)) : Bool :=
  wrs.any fun r => (pieces (2 ^ 21) r.1 r.2).any fun q => (xlate s x q.1).any fun e => e.1.shr

/-! The frame of an issue. -/

/-- What an issuing word meets: the spire, its context, the job's slot and the job. -/
structure Iss where
  x : Spire
  c : LCtx
  j : Nat
  y : Job

/-- The spire, context and running job behind a word, where the spire's clock runs and the word stands at the program counter. -/
def issOf (s : State) (p w : Nat) : Option Iss :=
  if !spClk s p then none
  else match curCtx (spOf s p), (spOf s p).job with
  | some c, some j =>
    match jobOf s j with
    | some y => if curWord (spOf s p) c = some w then some ⟨spOf s p, c, j, y⟩ else none
    | none => none
  | _, _ => none

/-- A context that passes to the next word. -/
def pcNext (c : LCtx) : LCtx := { c with pc := c.pc + 1 }

/-- A word whose predicate does not hold: a LOOP passes to the word after its ENDL (R96). -/
def pcSkip (c : LCtx) (w : Nat) : LCtx := if isOp .loop w then { c with pc := c.pc + loopBody w + 1 } else pcNext c

/-- The issue of a word: fetched, may issue, legal (R97), predicate (R96); then the instruction's own rules. An illegal word is refused at
issue whichever command presents it: it may have no opcode or form of its own. -/
def issue (o : Op) (form : Nat → Bool) (s : State) (p : Nat) (w : IWord) (go : Iss → Nat → Out) : Out :=
  let n := w.toNat
  if 256 ≤ p || (wordLegal n && !(isOp o n && form n)) then .refused .illFormed
  else
    match issOf s p n with
    | none => .refused .notFetched
    | some i =>
      if !mayIssue i.x i.c then .refused .notIssuable
      else if !wordLegal n then .next (refuse s p i.j i.c (chk true 0x100))
      else if !predHolds i.c.preds (wNeg n) (wPred n) then
        .next (modSp s p fun x => settle (setCtx x (pcSkip i.c n)))
      else if 8 ≤ i.x.infl.length then .refused .notIssuable
      else go i n

/-- Every form of a word. -/
def anyForm (_ : Nat) : Bool := true

/-- An instruction that the sequencer alone carries out at once: the context it leaves. -/
def atOnce (s : State) (p : Nat) (c : LCtx) : State := modSp s p fun x => settle (setCtx x c)

/-- A data instruction, as its descriptors and scalars latched at issue define it (R98): refusal checks, scratchpad intervals,
units, job-virtual reads and writes done at once, data effect, whether it waits for the accumulators (log 25), the context after it, fields of its in-flight record, and what it leaves beside its effect. -/
structure DataOp where
  chks : List Chk
  rd : List (Nat × Nat)
  wr : List (Nat × Nat)
  units : List Nat
  vrd : List (Nat × Nat)
  mrg : List (Nat × Nat) := []
  eff : Eff
  busy : Bool := false
  ctx : LCtx → LCtx := id
  inf : InFl → InFl := id
  post : State → State := id

/-- A data instruction goes: its accesses fail, or it takes effect and is in flight. -/
def dataGo (s : State) (p : Nat) (i : Iss) (w : Nat) (d : DataOp) : State :=
  match accAll s i.y d.vrd (effRanges d.eff) with
  | some b => accFail s p i.j i.c b
  | none =>
    let r : InFl := d.inf { seq := i.x.seq, lidx := i.c.lidx, pc := i.c.pc, word := w, units := d.units, rd := d.rd, wr := d.wr
                            since := i.x.cycles }
    let s := modSp s p fun x => { setCtx x (pcNext (d.ctx i.c)) with seq := x.seq + 1, infl := x.infl ++ [r] }
    d.post (landEff s p i.j i.c.lidx i.x.seq d.eff)

/-- Is a data instruction held (03 R84; 06 R175)? -/
def dataHeld (s : State) (i : Iss) (d : DataOp) : Bool :=
  d.busy || ivHeld i.x d.rd d.wr || d.units.any (unitHeld i.x) || shrHeld s i.y (effRanges d.eff)

/-- Can an event be an error in the spire, or of what a data instruction reads or the merge of what it writes at once reads (10 R236, R247)?
A write that it issues meets its own at its home. -/
def evReads (s : State) (y : Job) (vrd mrg : List (Nat × Nat)) (e : AccEv) : Bool :=
  match e with
  | .bankCycle _ _ | .spireCe _ _ | .spireUe _ _ => true
  | .farLost _ => false
  | e => evTouch s y vrd mrg e

/-- Refused, held, or gone. -/
def dataStep (s : State) (p : Nat) (i : Iss) (w : Nat) (d : DataOp) (ev : List AccEv) : Out :=
  match firstBad d.chks with
  | some b => .next (refuse s p i.j i.c b)
  | none => guardNext (!dataHeld s i d && ev.all (evReads s i.y d.vrd d.mrg)) .notIssuable (evAll (dataGo s p i w d) p i.j ev)

/-- The issue of a data instruction. `ev`: the errors its accesses meet (03 R85; 09 R228, R233; 10 R241). -/
def dataIssue (o : Op) (form : Nat → Bool) (s : State) (p : Nat) (w : IWord) (mk : State → Nat → Iss → Nat → DataOp)
    (ev : List AccEv := []) : Out :=
  if !ev.all evOk then .refused .illFormed
  else issue o form s p w fun i n => dataStep s p i n (mk s p i n) ev

/-- Can an event be an error of the sequencer's state (03 R85)? -/
def evSeq (e : AccEv) : Bool :=
  match e with
  | .spireCe src _ | .spireUe src _ => src = 3
  | _ => false

/-- The issue of a word without data, and the errors that it met, of those it `may` meet (03 R85; 09 R228). One that is refused at issue, or
whose own access failed, has ended its job and meets none. -/
def wordMet (s : State) (p : Nat) (m : Met IWord) (may : Iss → AccEv → Bool) (o : Out) : Out :=
  if !m.ev.all evOk then .refused .illFormed
  else
    match o, issOf s p m.val.toNat with
    | .next t, some i =>
      guardNext (m.ev.all (may i)) .notIssuable (if jobHandle t i.j = jobHandle s i.j then evAll t p i.j m.ev else t)
    | o, _ => o

/-- The issue of a word that reads nothing but the sequencer's state. -/
def seqIssue (o : Op) (form : Nat → Bool) (s : State) (p : Nat) (m : Met IWord) (go : Iss → Nat → Out) : Out :=
  wordMet s p m (fun _ => evSeq) (issue o form s p m.val go)

/-! Operands as an instruction names them. -/

/-- The descriptor that a field names. -/
def tdF (c : LCtx) (w hi lo : Nat) : Td := tdDec (BitVec.ofNat 512 (tget 0 c.tds (fld w hi lo)))
/-- The scalar register that a field names. -/
def sF (c : LCtx) (w hi lo : Nat) : Nat := tget 0 c.sregs (fld w hi lo)
/-- The byte reader of an instruction. -/
def rdI (s : State) (p : Nat) (i : Iss) : Nat → Nat → Nat := rdOf s p i.y
/-- Is the running request a first pass (08 R200)? -/
def firstPass (y : Job) : Bool := y.running.any (·.first)
/-- Is a destination format one that quantises (R458, 02 R49)? -/
def qFmt (t : Td) : Bool := 5 ≤ t.fmt && t.fmt ≤ 8
/-- FP32 or A16 (R458). -/
def fFmt (t : Td) : Bool := t.fmt = 8 || t.fmt = 10
/-- The destination format rule of an output path (R458). -/
def outFmt (oq : Bool) (t : Td) : Bool := if oq then qFmt t else fFmt t

/-- The pairs of Table NUM-4, weight format then activation format. -/
def pairOk (w a : Nat) : Bool :=
  (a = 5 && 1 ≤ w && w ≤ 7) || ((a = 6 || a = 7) && (w = 1 || (5 ≤ w && w ≤ 7)))
  || (a = 8 && ((1 ≤ w && w ≤ 5) || w = 8))

/-- Is the user table of a row-wise function missing (Table TIS-3)? -/
def funcMissing (y : Job) (f : Nat) : Bool := f = 7 && (tfind y.plan.utabs 0).isNone

end Sys2Proof.Machine
end

