-- ==== Sys2Proof/Machine/Tile.lean ====
section
/-! DEFINITION. Meanings of the data instructions of a tile program (04 R103 to R118, R458; 03 R77, R78; 05 R137, R150; 02 R48,
R66; 06 R161, R170, R171; 07 R185, R186, R191): operand checks, what they read and write. -/
namespace Sys2Proof.Machine

/-! Matrix instructions. -/

/-- The accumulators that a standing KEEP holds, for a CONT; +0 otherwise (03 R74). -/
def accOf (cont : Bool) (c : LCtx) : Nat → Nat → Nat := if cont then fun r n => tget 0 c.acc (r * 1024 + n) else fun _ _ => 0

/-- Accumulators as the context holds them; +0 is not listed. -/
def accTbl (rows : List (List Nat)) : Tbl Nat :=
  (rows.mapIdx fun r row => row.mapIdx fun n v => (r * 1024 + n, v)).flatten.filter fun e => e.2 != 0

/-- Does a standing KEEP match a CONT (04 R105 item 2)? -/
def contOk (c : LCtx) (mp np m n : Nat) : Bool := c.keep.any fun k => k.mp = mp && k.np = np && k.m = m && k.n = n

/-- K so far of a chain. -/
def kSoFar (cont : Bool) (c : LCtx) : Nat := if cont then (c.keep.map (·.k)).getD 0 else 0

/-- The KEEP that an instruction leaves standing, with the tensor scales it latched (04 R114). -/
def mkKeep (rd : Nat → Nat → Nat) (a w : Td) (mp np m n k : Nat) : Keep :=
  { mp := mp, np := np, m := m, n := n, k := k, tw := (List.range n).map (tensorScale rd w)
    taPer := (List.range n).map (tensorScale rd a) }

/-- Does an unfinished piece-stream MMA of the spire hold the accumulators against a word that keeps or continues them (log 25)? -/
def accBusy (x : Spire) : Bool := x.infl.any fun i => i.wait = 3 && i.mg < i.mgs && (bitOf i.word 72 || bitOf i.word 71)

/-- The intervals of an operand that is used. -/
def ivIf (b : Bool) (t : Td) : List (Nat × Nat) := if b then tdScratchIv t else []

/-- The checks on an operand that is used. -/
def tdIf (b spOnly : Bool) (t : Td) : List Chk := if b then tdChk spOnly t else []

/-- The residue and scale bytes that an error-feedback destination reads (02 R65). -/
def fbAcc (t : Td) (on : Bool) (rows cols : Nat) : List (Nat × Nat) :=
  if on && t.fbEn && 0 < cols then
    (List.range rows).flatMap fun r => (fbAddr t r 0, 16 * cdiv cols 32) ::
      (if t.space = 1 then [(scaleAddr t r 0, cdiv cols 32)] else [])
  else []

/-- Is an activation operand within the scratchpad receive area of a group of this logical spire (04 R105 item 5)? -/
def inRecvArea (y : Job) (l : Nat) (a : Td) : Bool :=
  (tdScratchIv a).all fun v => y.plan.groups.any fun g =>
    g.2.raSp && g.2.raLsp = l && g.2.raBase * 256 ≤ v.1 && v.2 ≤ g.2.raBase * 256 + g.2.nslot * (g.2.slotUnits * 256)

/-- The checks of MMA (04 R99, R100, R103 to R105, R458; 03 R72). An activation whose view has DIM2 or DIM3 above 1 is none in token-major
layout (07 R195; log 21). The TD_OUT of a KEEP word, which writes nothing to it, is not checked (DESIGN CHOICE, log 59). -/
def mmaChks (i : Iss) (w : Nat) : List Chk :=
  let a := tdF i.c w 127 122
  let wd := tdF i.c w 121 116
  let o := tdF i.c w 115 110
  let b := tdF i.c w 109 104
  let mp := psize w 88 86
  let np := psize w 85 83
  let kp := psize w 82 78
  let f := fld w 77 74
  let keep := bitOf w 72
  let cont := bitOf w 71
  let oq := bitOf w 70
  let m := sF i.c w 103 99
  let n := sF i.c w 98 94
  let k := sF i.c w 93 89
  let rdy := sF i.c w 65 61
  tdChk true a ++ tdChk false wd ++ tdIf (!keep) false o ++ tdIf (bitOf w 73) false b ++
  [chk (!pairOk wd.fmt a.fmt) 0x101, chk (isBlocked a) 0x102, chk (!keep && !outFmt oq o) 0x101, chk (bitOf w 73 && b.fmt != 10) 0x101,
   extChk m mp, extChk m a.d1, extChk n np, extChk n wd.d1, extChk k kp, extChk k a.d0, extChk k wd.d0,
   (wd.fmt = 8 && a.fmt = 8 && 2048 < kp, 0x103, kp, 2048)] ++
  (if keep then [] else [extChk m o.d1, extChk n o.d0]) ++
  (if bitOf w 73 then [extChk n b.d0] else []) ++
  [chk (keep && (oq || f != 0 || !((mp = 128 && np ≤ 256) || (mp = 256 && np = 128)))) 0x105,
   chk (cont && !contOk i.c mp np m n) 0x105,
   chk (bitOf w 66 && (fld rdy 63 58 != 0 || fld rdy 2 0 != 0 || !inRecvArea i.y i.c.lidx a)) 0x102,
   chk (funcMissing i.y f) 0x10A]

/-- The options of MMA. -/
def mmaOpt (x : Spire) (first : Bool) (w : Nat) : MmaOpt :=
  { func := fld w 77 74, bias := bitOf w 73, oq := bitOf w 70, rho := fld w 69 67, compat := x.compat, first := first }

/-- MMA (R103 to R105). A piece stream computes at its m-groups' starts. -/
def mmaOp (s : State) (p : Nat) (i : Iss) (w : Nat) : DataOp :=
  let a := tdF i.c w 127 122
  let wd := tdF i.c w 121 116
  let o := tdF i.c w 115 110
  let b := tdF i.c w 109 104
  let keep := bitOf w 72
  let cont := bitOf w 71
  let pstr := bitOf w 66
  let m := sF i.c w 103 99
  let n := sF i.c w 98 94
  let k := sF i.c w 93 89
  let kt := kSoFar cont i.c + k
  let rd := rdI s p i
  let acc0 := accOf cont i.c
  let kp := mkKeep rd a wd (psize w 88 86) (psize w 85 83) m n kt
  let none := m = 0 || n = 0
  { chks := mmaChks i w
    rd := tdScratchIv a ++ tdScratchIv wd ++ ivIf (bitOf w 73) b
    wr := ivIf (!keep) o
    busy := (keep || cont) && accBusy i.x
    units := 0 :: funcUnits (fld w 77 74) ++ (if bitOf w 70 then [3] else [])
    vrd := if none then [] else
      tdAcc rd a 0 m k ++ tdAcc rd wd 0 n k ++ perchAcc wd n ++ perchAcc a n ++ biasAcc (bitOf w 73) b n
        ++ (if keep then [] else fbAcc o (bitOf w 70 && !firstPass i.y) m n)
    eff :=
      if none || pstr then effNone
      else if keep then effCnt .wtIllegalBytes (wtBad rd wd 0 n k)
      else mmaRows rd i.y.plan.utabs (mmaOpt i.x (firstPass i.y) w) a wd o b 0 m n k kt acc0
    ctx := fun c => { c with keep := if keep then some kp else Option.none
                             acc := if keep then (if none || pstr then [] else accTbl (mmaAcc rd a wd 0 m n k acc0)) else [] }
    inf := fun f =>
      if pstr then
        { f with wait := 3, mgs := if none then 0 else cdiv m 128
                 lat := [m, n, k, sF i.c w 65 61, b2n (firstPass i.y), kt]
                 tds := [tget 0 i.c.tds (fld w 127 122), tget 0 i.c.tds (fld w 121 116), tget 0 i.c.tds (fld w 115 110),
                         tget 0 i.c.tds (fld w 109 104)]
                 acc := if cont then i.c.acc else [] }
      else f }

/-- MMA (04 R103). -/
def execMma (p : Nat) (w : IWord) (ev : List AccEv) (s : State) : Out := dataIssue .mma anyForm s p w mmaOp ev

/-- A descriptor of an in-flight piece stream. -/
def latTd (f : InFl) (k : Nat) : Td := tdDec (BitVec.ofNat 512 (nth f.tds k))

/-- The words of a READY map that hold the bits of the pieces of m-group `g`. -/
def pstrWords (rdy g : Nat) : List (Nat × Nat) :=
  let z := 2 ^ fld rdy 57 54
  let lo := 128 * g / z
  ((List.range ((128 * g + 127) / z + 1 - lo)).map fun t => (fld rdy 47 0 + 8 * ((fld rdy 53 48 + lo + t) / 64), 8)).eraseDups

/-- Are the ready bits of the pieces of m-group `g` set (14 R328)? -/
def pstrReady (s : State) (y : Job) (rdy g : Nat) : Bool :=
  let z := 2 ^ fld rdy 57 54
  let lo := 128 * g / z
  (List.range ((128 * g + 127) / z + 1 - lo)).all fun t =>
    let b := fld rdy 53 48 + lo + t
    bitOf (rdLe (vaByte s y) (fld rdy 47 0 + 8 * (b / 64)) 8) (b % 64)

/-- The output of the next m-group of a piece stream. -/
def pstrEff (s : State) (p : Nat) (y : Job) (f : InFl) : Eff :=
  let m0 := 128 * f.mg
  mmaRows (rdOf s p y) y.plan.utabs (mmaOpt (spOf s p) (nth f.lat 4 = 1) f.word) (latTd f 0) (latTd f 1) (latTd f 2) (latTd f 3) m0
    (min (nth f.lat 0) (m0 + 128)) (nth f.lat 1) (nth f.lat 2) (nth f.lat 5) fun r q => tget 0 f.acc (r * 1024 + q)

/-- Does an m-group wait for the first write of a shared prefix page (06 R175)? -/
def pstrHeld (s : State) (p : Nat) (y : Job) (f : InFl) : Bool := !bitOf f.word 72 && shrHeld s y (effRanges (pstrEff s p y f))

/-- The next m-group of a piece stream: its rows computed and written, or kept (R105, R328). -/
def pstrGo (s : State) (p j : Nat) (y : Job) (c : LCtx) (f : InFl) : State :=
  let rd := rdOf s p y
  let g := f.mg
  let m0 := 128 * g
  let m1 := min (nth f.lat 0) (m0 + 128)
  let n := nth f.lat 1
  let k := nth f.lat 2
  let acc0 := fun r q => tget 0 f.acc (r * 1024 + q)
  let upd := fun (fs : List InFl) => fs.map fun h => if h.seq = f.seq then { h with mg := g + 1 } else h
  if bitOf f.word 72 then
    let rows := mmaAcc rd (latTd f 0) (latTd f 1) m0 m1 n k acc0
    let t := (rows.mapIdx fun r row => row.mapIdx fun q v => ((m0 + r) * 1024 + q, v)).flatten.filter fun e => e.2 != 0
    let s := landEff s p j f.lidx f.seq (effCnt .wtIllegalBytes (if g = 0 then wtBad rd (latTd f 1) 0 n k else 0))
    modSp s p fun x => { setCtx x { c with acc := t.foldl (fun a e => tset a e.1 e.2) c.acc } with infl := upd x.infl }
  else
    let e := pstrEff s p y f
    match accAll s y [] (effRanges e) with
    | some b => accFail s p j c b
    | none => landEff (modSp s p fun x => { x with infl := upd x.infl }) p j f.lidx f.seq e

/-- The piece stream in flight under a sequence number. -/
def pstrOf (x : Spire) (seq : Nat) : Option InFl := x.infl.find? fun f => f.seq == seq && f.wait == 3 && f.mg < f.mgs

/-- PSTR_MGROUP_START (14 R328); a READY word that its job cannot read ends the job (09 R219). -/
def execPstrMgroupStart (p seq : Nat) (s : State) : Out :=
  match (spOf s p).job, curCtx (spOf s p), pstrOf (spOf s p) seq with
  | some j, some c, some f =>
    match jobOf s j with
    | some y =>
      match accAll s y (pstrWords (nth f.lat 3) f.mg) [] with
      | some b => guardNext (spClk s p) .notEnabled (accFail s p j c b)
      | none => guardNext (spClk s p && pstrReady s y (nth f.lat 3) f.mg && !pstrHeld s p y f) .notEnabled (pstrGo s p j y c f)
    | none => .refused .notEnabled
  | _, _, _ => .refused .notEnabled

/-- The checks of MMA2 (R99, R100, R106, R107, R458; 07 R195). The TD_OUT of a KEEP word is not checked (DESIGN CHOICE, log 59). -/
def mma2Chks (i : Iss) (w : Nat) : List Chk :=
  let a := tdF i.c w 127 122
  let w1 := tdF i.c w 121 116
  let w2 := tdF i.c w 115 110
  let t := tdF i.c w 109 104
  let o := tdF i.c w 103 98
  let b1 := tdF i.c w 97 92
  let b2 := tdF i.c w 91 86
  let keep := bitOf w 45
  let cont := bitOf w 44
  let oq := bitOf w 43
  let m := sF i.c w 85 81
  let k1 := sF i.c w 80 76
  let n1 := sF i.c w 75 71
  let n2 := sF i.c w 70 66
  let mp := psize w 65 63
  let np := psize w 54 52
  tdChk true a ++ tdChk false w1 ++ tdChk false w2 ++ tdChk true t ++ tdIf (!keep) false o ++ tdIf (bitOf w 47) false b1
    ++ tdIf (bitOf w 46) false b2 ++
  [chk (!pairOk w1.fmt a.fmt) 0x101, chk (isBlocked a || isBlocked t) 0x102, chk (!pairOk w2.fmt t.fmt) 0x101, chk (t.fmt != 5 && t.fmt != 8) 0x101,
   chk (!keep && !outFmt oq o) 0x101, chk (bitOf w 47 && b1.fmt != 10) 0x101, chk (bitOf w 46 && b2.fmt != 10) 0x101,
   chk (t.outEn || t.fbEn) 0x102,
   extChk m mp, extChk m a.d1, extChk m t.d1, extChk k1 (psize w 62 58), extChk k1 a.d0, extChk k1 w1.d0,
   extChk n1 (psize w 57 55), extChk n1 w1.d1, extChk n1 t.d0, extChk n1 w2.d0, extChk n2 np, extChk n2 w2.d1,
   (w1.fmt = 8 && a.fmt = 8 && 2048 < psize w 62 58, 0x103, psize w 62 58, 2048)] ++
  (if keep then [] else [extChk m o.d1, extChk n2 o.d0]) ++
  (if bitOf w 47 then [extChk n1 b1.d0] else []) ++ (if bitOf w 46 then [extChk n2 b2.d0] else []) ++
  [chk ((keep || cont) && (mp != 128 || np != 128 || oq)) 0x105, chk (cont && !contOk i.c mp np m n2) 0x105,
   chk (funcMissing i.y (fld w 51 48)) 0x10A]

/-- MMA2 (R106, R107). -/
def mma2Op (s : State) (p : Nat) (i : Iss) (w : Nat) : DataOp :=
  let a := tdF i.c w 127 122
  let w1 := tdF i.c w 121 116
  let w2 := tdF i.c w 115 110
  let t := tdF i.c w 109 104
  let o := tdF i.c w 103 98
  let b1 := tdF i.c w 97 92
  let b2 := tdF i.c w 91 86
  let keep := bitOf w 45
  let cont := bitOf w 44
  let m := sF i.c w 85 81
  let k1 := sF i.c w 80 76
  let n1 := sF i.c w 75 71
  let n2 := sF i.c w 70 66
  let kt := kSoFar cont i.c + n1
  let rd := rdI s p i
  let first := firstPass i.y
  let ut := i.y.plan.utabs
  let opt : MmaOpt := { func := fld w 51 48, bias := false, oq := bitOf w 43, rho := fld w 42 40, compat := i.x.compat, first := first }
  let none := m = 0 || n2 = 0
  let e1 := mma2First rd ut opt (bitOf w 47) a w1 t b1 m n1 k1
  let rd2 := rdAfter rd e1.wr
  let accs := mma2Acc rd e1 t w2 m n2 n1 (accOf cont i.c)
  let ys := mmaOut rd2 ut { opt with func := 0, bias := bitOf w 46 } t w2 b2 kt accs
  let bad := effCnt .wtIllegalBytes (wtBad rd w2 0 n2 n1)
  { chks := mma2Chks i w
    rd := tdScratchIv a ++ tdScratchIv w1 ++ tdScratchIv w2 ++ ivIf (bitOf w 47) b1 ++ ivIf (bitOf w 46) b2
    wr := tdScratchIv t ++ ivIf (!keep) o
    busy := (keep || cont) && accBusy i.x
    units := [0, 3] ++ funcUnits (fld w 51 48)
    vrd := if none then [] else
      tdAcc rd a 0 m k1 ++ tdAcc rd w1 0 n1 k1 ++ tdAcc rd w2 0 n2 n1 ++ perchAcc w1 n1 ++ perchAcc a n1 ++ perchAcc w2 n2
        ++ perchAcc t n2 ++ biasAcc (bitOf w 47) b1 n1 ++ biasAcc (bitOf w 46) b2 n2
        ++ (if keep then [] else fbAcc o (bitOf w 43 && !first) m n2)
    eff :=
      if none then effNone
      else if keep then effApp e1 bad
      else effCat [e1, outWrite rd2 o (bitOf w 43) (fld w 42 40) first 0 n2 ys, bad]
    ctx := fun c => { c with keep := if keep then some (mkKeep rd2 t w2 (psize w 65 63) (psize w 54 52) m n2 kt) else Option.none
                             acc := if keep && !none then accTbl accs else [] } }

/-- MMA2 (04 R106, R107). -/
def execMma2 (p : Nat) (w : IWord) (ev : List AccEv) (s : State) : Out := dataIssue .mma2 anyForm s p w mma2Op ev

/-! Vector instructions. -/

/-- Does a source cover the planned extents of a destination (Table TIS-23)? `one`: its DIM0 is 1. -/
def covers (d t : Td) (one : Bool) : Bool :=
  (if one then t.d0 = 1 else d.d0 ≤ t.d0) && d.d1 ≤ t.d1 && d.d2 ≤ t.d2 && d.d3 ≤ t.d3

/-- The form field of VOP. -/
def vopForm (k w : Nat) : Bool := fld w 127 126 = k

/-- VOP in tensor form (R108, R109). -/
def vopOp (s : State) (p : Nat) (i : Iss) (w : Nat) : DataOp :=
  let d := tdF i.c w 125 120
  let a := tdF i.c w 119 114
  let b := tdF i.c w 113 108
  let c := tdF i.c w 107 102
  let op := fld w 101 96
  let se := sF i.c w 95 91
  let brow := bitOf w 90
  let useB := vopUsesB op && !bitOf w 89
  let useC := vopUsesC op
  { chks := tdChk true d ++ tdChk true a ++ tdIf useB true b ++ tdIf useC true c ++
      [chk (!fFmt d || !fFmt a || (useB && !fFmt b) || (useC && !fFmt c)) 0x101, chk (op = 9 && d.fmt = a.fmt) 0x101,
       chk (!covers d a false || (useB && !covers d b brow) || (useC && !covers d c false)) 0x102, extChk se d.d0]
    rd := tdScratchIv a ++ ivIf useB b ++ ivIf useC c
    wr := tdScratchIv d
    units := [1]
    vrd := []
    eff := vopEff (rdI s p i) op d a b c brow (if bitOf w 89 then some (fld w 88 57) else none) se }

/-- VOP in tensor form (04 R109). -/
def execVopTensor (p : Nat) (w : IWord) (ev : List AccEv) (s : State) : Out := dataIssue .vop (vopForm 0) s p w vopOp ev

/-- VOP in scalar form: a compare writes PD, every other operation SD (R109). -/
def vopScalarCtx (c : LCtx) (w : Nat) : LCtx :=
  let op := fld w 110 105
  let a := sF c w 120 116
  let b := if bitOf w 104 then wrap64 (sext 32 (fld w 103 72)) else sF c w 115 111
  if isCmp op then pcNext { c with preds := predSet c.preds (fld w 71 69) (scalarCmp op a b) }
  else pcNext { c with sregs := tset c.sregs (fld w 125 121) (scalarOp op (sF c w 125 121) a b (fld w 103 72)) }

/-- VOP in scalar form (04 R109, R110). -/
def execVopScalar (p : Nat) (w : Met IWord) (s : State) : Out :=
  seqIssue .vop (vopForm 1) s p w fun i n => .next (atOnce s p (vopScalarCtx i.c n))

/-- The bits of a descriptor field that a descriptor VOP names (Table TIS-8, 03 Table SPI-3). -/
def tdField (k : Nat) : Nat × Nat :=
  match k with
  | 0 => (47, 0) | 1 => (79, 64) | 2 => (103, 80) | 3 => (127, 104) | 4 => (143, 128) | 5 => (175, 144) | 6 => (207, 176)
  | 7 => (239, 208) | 8 => (343, 304) | 9 => (383, 344) | 0xA => (423, 384) | 0xB => (463, 424) | 0xC => (503, 464)
  | 0xD => (271, 240) | _ => (303, 272)

/-- VOP in descriptor form: a field takes S, or S takes the field zero-extended. -/
def vopDescCtx (c : LCtx) (w : Nat) : LCtx :=
  let b := tdField (fld w 119 116)
  let td := fld w 125 120
  let e := tget 0 c.tds td
  if bitOf w 115 then pcNext { c with sregs := tset c.sregs (fld w 114 110) (fld e b.1 b.2) }
  else pcNext { c with tds := tset c.tds td (setFld e b.1 b.2 (sF c w 114 110)) }

/-- VOP in descriptor form (04 R110). -/
def execVopDescriptor (p : Nat) (w : Met IWord) (s : State) : Out :=
  seqIssue .vop (vopForm 2) s p w fun i n => .next (atOnce s p (vopDescCtx i.c n))

/-- SFN (R111, R137). -/
def sfnOp (s : State) (p : Nat) (i : Iss) (w : Nat) : DataOp :=
  let d := tdF i.c w 127 122
  let a := tdF i.c w 121 116
  let fn := fld w 115 111
  let se := sF i.c w 110 106
  { chks := tdChk true d ++ tdChk true a ++
      [chk (!fFmt d || !fFmt a) 0x101, chk (!covers d a false) 0x102, extChk se d.d0,
       chk (0x10 ≤ fn && (tfind i.y.plan.utabs (fn - 0x10)).isNone) 0x10A]
    rd := tdScratchIv a, wr := tdScratchIv d, units := [1, 2], vrd := []
    eff := sfnEff (rdI s p i) i.x.compat i.y.plan.utabs fn d a se }

/-- SFN (05 R137). -/
def execSfn (p : Nat) (w : IWord) (ev : List AccEv) (s : State) : Out := dataIssue .sfn anyForm s p w sfnOp ev

/-- RSTAT (R111, R150): rows along DIM1 of TD_A (Table TIS-10), results in the element order of TD_D. More results than TD_D has planned
elements are a run-time extent above a planned size, SHAPE_OVER_PLAN (DEDUCED, log 49: no rule names this refusal). -/
def rstatOp (s : State) (p : Nat) (i : Iss) (w : Nat) : DataOp :=
  let d := tdF i.c w 127 122
  let a := tdF i.c w 121 116
  let stat := fld w 115 113
  let rows := sF i.c w 112 108
  let len := sF i.c w 107 103
  { chks := tdChk true d ++ tdChk true a ++
      [chk (d.fmt != 10 || !fFmt a) 0x101, extChk rows a.d1, extChk len a.d0, extChk (rows * statWidth stat) (tdElems d)]
    rd := tdScratchIv a, wr := tdScratchIv d, units := [1], vrd := []
    eff := rstatEff (rdI s p i) i.x.compat stat d a rows len }

/-- RSTAT (05 R150). -/
def execRstat (p : Nat) (w : IWord) (ev : List AccEv) (s : State) : Out := dataIssue .rstat anyForm s p w rstatOp ev

/-- The kernel of a CDW word (Table TIS-10; log 22). -/
def cdwK (w : Nat) : CdwK :=
  let kt := fld w 100 98 + 1
  let kh := fld w 97 95 + 1
  let kw := fld w 94 92 + 1
  { g := 2 ^ fld w 103 101, kt := kt, kh := kh, kw := kw
    st := if bitOf w 91 then 2 else 1, sh := if bitOf w 90 then 2 else 1, sw := if bitOf w 89 then 2 else 1
    ot := if kt = 1 then 0 else Config.cdwOrigin 0 kt, oh := if kh = 1 then 0 else Config.cdwOrigin 1 kh
    ow := if kw = 1 then 0 else Config.cdwOrigin 2 kw }

/-- CDW (R111; 03 R77, R78). -/
def cdwOp (s : State) (p : Nat) (i : Iss) (w : Nat) : DataOp :=
  let d := tdF i.c w 127 122
  let a := tdF i.c w 121 116
  let wd := tdF i.c w 115 110
  let b := tdF i.c w 109 104
  let f := fld w 87 84
  let so := sF i.c w 79 75
  let c16 := Config.cdwC16 (tget 0 i.c.tds (fld w 127 122)) (tget 0 i.c.tds (fld w 121 116)) (tget 0 i.c.tds (fld w 115 110))
  let lc := layoutCh c16
  let k := cdwK w
  let ch := min d.d3 (cdwClip c16 d.d3 (tdRows wd) (k.kt * k.kh * k.kw)) * lc
  let nr := cdiv ch 32 * (k.kt * k.kh * k.kw)
  let rd := rdI s p i
  let bias := bitOf w 88
  { chks := tdChk true a ++ tdChk false wd ++ tdChk false d ++ tdIf bias false b ++
      [chk (a.fmt != 5 || wd.fmt != 1 || !outFmt (bitOf w 83) d || (bias && b.fmt != 10)) 0x101, extChk so (d.d0 / lc),
       chk (funcMissing i.y f) 0x10A]
    rd := tdScratchIv a ++ tdScratchIv wd ++ ivIf bias b
    wr := tdScratchIv d
    units := 1 :: (if 2 ≤ f then [2] else []) ++ (if bitOf w 83 then [3] else [])
    vrd := if so = 0 then [] else
      (if wd.space = 0 then [] else (wd.scaleB * 256, nr) :: (List.range nr).map fun r => (rowAddr wd r, 32 * k.g))
        ++ perchAcc wd ch ++ perchAcc a ch ++ biasAcc bias b ch ++ fbAcc d (bitOf w 83 && !firstPass i.y) (tdRows d) (so * lc)
    eff := cdwEff rd i.y.plan.utabs
      { func := f, bias := bias, oq := bitOf w 83, rho := fld w 82 80, compat := i.x.compat, first := firstPass i.y } a wd d b k c16 so }

/-- CDW (03 R78). -/
def execCdw (p : Nat) (w : IWord) (ev : List AccEv) (s : State) : Out := dataIssue .cdw anyForm s p w cdwOp ev

/-! ATTN. -/

/-- The requirements of 06 R161 on keys, values, queries and key list. A key or value format that Table TIS-22 does not accept is
ILLEGAL_FORMAT as well, and that lower cause is the one reported (R458, R99; log 26). -/
def attnTdBad (q k v pat : Td) (nkp : Nat) : Bool :=
  let kv := fun (t : Td) => t.fmt = 5 && t.d0 = 128 && t.s1 = 128 && !t.outEn && !t.fbEn && !t.perch
  !kv k || !kv v || k.d1 != v.d1 || q.outEn || pat.fmt != 10 || pat.d0 < nkp

/-- The prefix entries of the shared pages that ranges touch (06 R174). -/
def pfxTouched (y : Job) (rs : List (Nat × Nat)) : List Nat :=
  let vs := rs.flatMap fun r => (pieces (2 ^ 21) r.1 r.2).map fun q => q.1 / 2 ^ 21
  ((vs.filter fun v => (tfind y.pt v).any (·.shr)).filterMap fun v =>
    (y.plan.prefixes.find? fun x => x.vpns.contains v).map (·.entry)).eraseDups

/-- ATTN (R112, R113). The score buffer's contents are undefined afterwards. -/
def attnOp (s : State) (p : Nat) (i : Iss) (w : Nat) : DataOp :=
  let q := tdF i.c w 127 122
  let k := tdF i.c w 121 116
  let v := tdF i.c w 115 110
  let o := tdF i.c w 109 104
  let b := tdF i.c w 103 98
  let pat := tdF i.c w 97 92
  let nkp := psize w 86 81
  let mp := psize w 89 87
  let m := sF i.c w 80 76
  let nk := sF i.c w 75 71
  let lim := if bitOf w 91 then 8192 else 4096
  let need := 128 * nkp * (if bitOf w 91 then 2 else 4) * (if bitOf w 90 then 2 else 1)
  let rd := rdI s p i
  let opt : AttnOpt := { sfmt16 := bitOf w 91, qscale := fld w 66 35, nk := nk, oq := bitOf w 70, rho := fld w 69 67
                         compat := i.x.compat, first := firstPass i.y }
  let keys := ((List.range nk).filterMap (keyAt rd pat k)).eraseDups
  let kvAcc : Td → List (Nat × Nat) := fun t => if t.space = 0 then [] else keys.flatMap fun e => [(t.base + 128 * e, 128), (t.scaleB * 256 + 4 * e, 4)]
  let pins := if m = 0 then [] else pfxTouched i.y (kvAcc k ++ kvAcc v)
  { chks := tdChk true q ++ tdChk false k ++ tdChk false v ++ tdChk false o ++ tdChk true b ++ tdChk false pat ++
      [chk (q.fmt != 5 || k.fmt != 5 || v.fmt != 5) 0x101, chk (!outFmt (bitOf w 70) o) 0x101, chk (attnTdBad q k v pat nkp) 0x102,
       extChk m mp, extChk m q.d1, extChk m o.d1, extChk 128 q.d0, extChk 128 o.d0, extChk nk nkp,
       chk (tdEnd b - b.base < need) 0x104, chk (lim < nkp || lim < nk) 0x106]
    rd := tdScratchIv q ++ tdScratchIv k ++ tdScratchIv v ++ tdScratchIv pat
    wr := tdScratchIv o ++ tdScratchIv b
    units := [0, 1, 2, 3]
    vrd := if m = 0 then [] else
      (if pat.space = 0 || nk = 0 then [] else [(pat.base, 4 * nk)]) ++ kvAcc k ++ kvAcc v
        ++ fbAcc o (bitOf w 70 && !firstPass i.y) m 128
    eff := attnEff rd opt q k v o pat m
    inf := fun f => { f with pins := pins }
    post := fun s =>
      if m = 0 then s
      else
        let r := freshId (pfxPin s i.j pins true)
        modSp r.2 p fun x => { x with sp := x.sp.mark b.base (tdEnd b - b.base) r.1 } }

/-- ATTN (04 R113). -/
def execAttn (p : Nat) (w : IWord) (ev : List AccEv) (s : State) : Out := dataIssue .attn anyForm s p w attnOp ev

/-! Quantisation instructions. -/

/-- QNT (R114, 02 R48 to R65). -/
def qntOp (s : State) (p : Nat) (i : Iss) (w : Nat) : DataOp :=
  let d := tdF i.c w 127 122
  let a := tdF i.c w 121 116
  let src := bitOf w 115
  let rho := fld w 114 112
  let rows := sF i.c w 111 107
  let cols := sF i.c w 106 102
  let rd := rdI s p i
  let first := firstPass i.y
  let k : Keep := i.c.keep.getD { mp := 0, np := 0, m := 0, n := 0, k := 0, tw := [], taPer := [] }
  { chks := tdChk false d ++ tdIf (!src) false a ++
      [chk (!qFmt d || (!src && !fFmt a)) 0x101, extChk rows (tdRows d), extChk cols d.d0] ++
      (if src then (if i.c.keep.isNone then [chk true 0x105] else [extChk rows k.m, extChk cols k.n]) else [extChk rows (tdRows a), extChk cols a.d0])
    rd := ivIf (!src) a
    wr := tdScratchIv d
    busy := src && accBusy i.x
    units := [3]
    vrd := (if src then [] else tdAcc rd a 0 rows cols) ++ fbAcc d (!first) rows cols
    eff :=
      if rows = 0 || cols = 0 then effNone
      else if src then
        quantRows rd d rho first d.tq
          (fun r c => outStep k.k (nth k.tw c) (nth k.taPer c) none (tget 0 i.c.acc (r * 1024 + c))) (fun _ => cols) 0 rows cols
      else qntEff rd first rho d a rows cols
    ctx := fun c => if src then { c with keep := none, acc := [] } else c }

/-- QNT (02 R48). -/
def execQnt (p : Nat) (w : IWord) (ev : List AccEv) (s : State) : Out := dataIssue .qnt anyForm s p w qntOp ev

/-- DQT (R114, 02 R66). An FB4 source is read with the block scales of its A8 tensor, at SCALE_BASE (02 R63; 03 R87). -/
def dqtOp (s : State) (p : Nat) (i : Iss) (w : Nat) : DataOp :=
  let d := tdF i.c w 127 122
  let a := tdF i.c w 121 116
  let rows := sF i.c w 114 110
  let cols := sF i.c w 109 105
  let rd := rdI s p i
  let fb4 := a.fmt = 9
  { chks := tdChk false d ++ tdChk false a ++
      [chk (!fFmt d) 0x101, extChk rows (tdRows d), extChk cols d.d0, extChk rows (tdRows a), extChk cols a.d0,
       chk (fb4 && a.space = 0 && 0x300000 < tdScaleEnd a) 0x104]
    rd := tdScratchIv a ++ (if fb4 && a.space = 0 then [(a.scaleB * 256, tdScaleEnd a)] else [])
    wr := tdScratchIv d, units := [3]
    vrd := tdAcc rd a 0 rows cols ++ (if bitOf w 115 && 0 < cols then perchAcc a rows else [])
      ++ (if fb4 && a.space = 1 && 0 < cols then (List.range rows).map fun r => (scaleAddr a r 0, cdiv cols 32) else [])
    eff := dqtEff rd (bitOf w 115) d a rows cols }

/-- DQT (02 R66). -/
def execDqt (p : Nat) (w : IWord) (ev : List AccEv) (s : State) : Out := dataIssue .dqt anyForm s p w dqtOp ev

/-! Movement. -/

/-- The job-virtual reads of MOVE. -/
def moveAcc (rd : Nat → Nat → Nat) (conv : Nat) (a d x : Td) (n v : Nat) : List (Nat × Nat) :=
  if conv = 6 then (if x.space = 0 then [] else [(x.base, 16), (x.base + 16, 8 * (rdLe (rd x.space) x.base 2 % 32))])
      ++ (if a.space = 0 || n = 0 then [] else [(a.base, 16 * n)])
  else if n = 0 then []
  else if conv = 7 then
    (if x.space = 0 then [] else [(x.base, 4 * tdRows d)]) ++
      ((List.range (tdRows d)).map fun i => rdLe (rd x.space) (x.base + 4 * i) 4).flatMap fun r =>
        tdAcc rd { a with outEn := false } r (r + 1) (min a.d0 (v - r * a.d0))
  else tdAcc rd (if conv = 4 || conv = 5 then a else { a with outEn := false }) 0 (cdiv v a.d0) (min a.d0 v)

/-- The data effect of MOVE: `n` steps of the outermost dimension of TD_A, its first `v` elements; for CONV 6 `n` records. The rows of CONV
5's view are DIM1, DIM2 and DIM3 flattened (DESIGN CHOICE, log 59: 08 R204 names DIM1 by DIM0). -/
def moveEff (rd : Nat → Nat → Nat) (first : Bool) (conv rho : Nat) (a d x : Td) (n v : Nat) : Eff :=
  if conv = 6 then moveBuckets rd a d x n
  else if n = 0 then effNone
  else if conv = 0 then moveCopy rd Config.mixedBlock a d v
  else if conv = 1 then moveLayout rd Config.mixedBlock a d 32 v
  else if conv = 2 then moveLayout rd Config.mixedBlock a d 16 v
  else if conv = 3 then moveQuant rd first rho a d v
  else if conv = 4 then moveDequant rd a d v
  else if conv = 5 then effApp (moveCopy rd Config.mixedBlock a d v) (moveFp rd a x (cdiv v a.d0) (min a.d0 v))
  else moveGather rd Config.mixedBlock a d x v

/-- The format rule of MOVE (R458). -/
def moveFmtBad (conv : Nat) (a d : Td) : Bool :=
  if conv = 3 then !fFmt a || !qFmt d else if conv = 4 then a.fmt = 9 || !fFmt d else if conv = 6 then false else a.fmt != d.fmt

/-- MOVE (R116, R117). -/
def moveOp (s : State) (p : Nat) (i : Iss) (w : Nat) : DataOp :=
  let d := tdF i.c w 127 122
  let a := tdF i.c w 121 116
  let x := tdF i.c w 111 106
  let conv := fld w 115 112
  let n := sF i.c w 105 101
  let v := n * outerInner a
  let rd := rdI s p i
  let first := firstPass i.y
  let useX := 5 ≤ conv
  let nb := rdLe (rd x.space) x.base 2 % 32
  { chks := tdChk false d ++ tdChk false a ++ tdIf useX false x ++
      [chk (moveFmtBad conv a d) 0x101, chk (conv ≤ 5 && tdElems a != tdElems d) 0x102,
       chk (conv = 6 && bucketBad nb (bucketU (rd x.space) x.base nb)) 0x102,
       extChk n (outerExt a)]
    rd := tdScratchIv a ++ ivIf useX x
    wr := tdScratchIv d ++ ivIf (conv = 5 || conv = 6) x
    units := [4]
    vrd := moveAcc rd conv a d x n v ++ (if conv = 3 then fbAcc d (!first) (cdiv v d.d0) (min d.d0 v) else [])
    eff := moveEff rd first conv (fld w 100 98) a d x n v }

/-- MOVE (04 R117). -/
def execMove (p : Nat) (w : IWord) (ev : List AccEv) (s : State) : Out := dataIssue .move anyForm s p w moveOp ev

/-- COMB (R116, R118, 07 R191). -/
def combOp (s : State) (p : Nat) (i : Iss) (w : Nat) : DataOp :=
  let d := tdF i.c w 127 122
  let q := tdF i.c w 121 116
  let b := tdF i.c w 115 110
  let tw := tdF i.c w 109 104
  let ta := tdF i.c w 103 98
  let scale := bitOf w 97
  let bias := bitOf w 96
  let se := sF i.c w 95 91
  let rd := rdI s p i
  { chks := tdChk false d ++ tdChk false q ++ tdIf bias false b ++ tdIf scale false tw ++ tdIf scale false ta ++
      [chk (!fFmt d || q.fmt != 10 || (bias && b.fmt != 10)) 0x101,
       chk (q.d3 < 2 || 64 < q.d3 || q.d0 != d.d0 || q.d1 != d.d1 || q.d2 != d.d2) 0x102, extChk se d.d0]
    rd := tdScratchIv q ++ ivIf bias b
    wr := tdScratchIv d
    units := [1]
    vrd := if se = 0 then [] else
      tdAcc rd q 0 (tdRows q) se ++ (if scale then perchAcc tw se else []) ++ biasAcc bias b se
    eff := combEff rd d q b tw ta scale bias se }

/-- COMB (07 R191). -/
def execComb (p : Nat) (w : IWord) (ev : List AccEv) (s : State) : Out := dataIssue .comb anyForm s p w combOp ev

end Sys2Proof.Machine
end

