-- ==== Sys2Proof/Machine/Control.lean ====
section
/-! DEFINITION. Control instructions (04 R124 to R129; 08 R205, R206, R210), completion of instructions (03 R83), carried spires
(01 R25, R26), tile stealing (R129), saves (03 R89), spire registers (03 R91, R92). -/
namespace Sys2Proof.Machine

/-! LOOP, ENDL, BR, YIELD, HALT. -/

/-- The iteration count of a LOOP. -/
def loopCnt (c : LCtx) (w : Nat) : Nat := if bitOf w 95 then sF c w 94 90 % 2 ^ 32 else fld w 111 96

/-- The frame that a LOOP opens (R125, R129). -/
def loopFrame (steal : Bool) (c : LCtx) (w : Nat) : LoopFr :=
  { pc := c.pc, fin := c.pc + loopBody w, cnt := loopCnt c w, it := 0, sInd := fld w 89 85, base := sF c w 89 85
    step := wrap64 (sext 32 (fld w 84 53)), indEn := bitOf w 52, steal := steal && bitOf w 51, top := loopCnt c w, out := 0
    sregs := c.sregs, tds := c.tds, preds := c.preds }

/-- A LOOP that is not refused: a count of zero passes control to the word after its ENDL. -/
def loopCtx (steal : Bool) (c : LCtx) (w : Nat) : LCtx :=
  if loopCnt c w = 0 then { c with pc := c.pc + loopBody w + 1 }
  else { pcNext c with loops := loopFrame steal c w :: c.loops }

/-- LOOP (04 R125). -/
def execLoop (p : Nat) (w : Met IWord) (s : State) : Out :=
  seqIssue .loop anyForm s p w fun i n =>
    if 8 ≤ i.c.loops.length then .next (refuse s p i.j i.c (chk true 0x107)) else .next (atOnce s p (loopCtx i.y.steal i.c n))

/-- The value that S_IND holds in iteration `k`. -/
def indAt (f : LoopFr) (k : Nat) : Nat := (f.base + k * f.step) % 2 ^ 64

/-- ENDL in a logical spire: the next iteration of the innermost loop, or its end; after a stolen iteration S_IND keeps the value of
the last one (R125 item 2, R129). -/
def endlCtx (c : LCtx) : LCtx :=
  match c.loops with
  | [] => pcNext c
  | f :: rest =>
    if f.it + 1 < f.top then
      { c with pc := f.pc + 1, loops := { f with it := f.it + 1 } :: rest
               sregs := if f.indEn then tset c.sregs f.sInd ((tget 0 c.sregs f.sInd + f.step) % 2 ^ 64) else c.sregs }
    else
      { pcNext c with loops := rest
                      sregs := if f.indEn && f.top < f.cnt then tset c.sregs f.sInd (indAt f (f.cnt - 1)) else c.sregs }

/-- Does an ENDL wait at the end of a stealable loop (R129 item 6): for iterations on thieves, and for what the owner's own iterations have
in flight? -/
def endlHeld (x : Spire) (c : LCtx) : Bool :=
  match c.loops with
  | f :: _ => f.top ≤ f.it + 1
      && (0 < f.out || (f.steal && x.infl.any fun i => i.lidx = c.lidx && f.pc < i.pc && i.pc < f.fin))
  | [] => false

/-- A loop frame of a context changed where it stands for the LOOP at a given index. -/
def modFrame (c : LCtx) (l pc : Nat) (g : LoopFr → LoopFr) : LCtx :=
  if c.lidx = l then { c with loops := c.loops.map fun f => if f.pc = pc then g f else f } else c

/-- The end of a stolen iteration on its thief: the owner's loop has one fewer outside. -/
def stolenEnd (s : State) (p : Nat) (t : Stolen) : State :=
  let back := fun (c : LCtx) => modFrame c t.olidx t.loopPc fun f =>
    { f with out := f.out - 1, marks := if t.marks.isEmpty then f.marks else tset f.marks t.it t.marks }
  let s := modSp s p fun x => settle { x with stolen := none }
  modSp s t.owner fun x => { x with run := x.run.map back, other := x.other.map back }

/-- The trace markers of stolen iterations that the end of a loop brings, in ascending iterations: they follow the owner's own, as the program
order of R128 asks (DESIGN CHOICE, log 59: held until then). -/
def endlMarks (c : LCtx) : List (List Nat) :=
  match c.loops with
  | f :: _ => if f.it + 1 < f.top then [] else (f.marks.mergeSort fun a b => a.1 ≤ b.1).flatMap (·.2)
  | [] => []

/-- Markers appended to a job's trace ring, which only a job that traces has (04 R128). -/
def traceAdd (s : State) (j : Nat) (ms : List (List Nat)) : State :=
  if ms.isEmpty then s else modJob s j fun y => if y.trace then { y with traceRing := y.traceRing ++ ms } else y

/-- ENDL (04 R125, R129). -/
def execEndl (p : Nat) (w : Met IWord) (s : State) : Out :=
  seqIssue .endl anyForm s p w fun i _ =>
    match i.x.stolen with
    | some t => guardNext i.x.infl.isEmpty .notIssuable (stolenEnd s p t)
    | none => guardNext (!endlHeld i.x i.c) .notIssuable (traceAdd (atOnce s p (endlCtx i.c)) i.j (endlMarks i.c))

/-- BR (04 R126). -/
def execBr (p : Nat) (w : Met IWord) (s : State) : Out :=
  seqIssue .br anyForm s p w fun i n => .next (atOnce s p { i.c with pc := ((i.c.pc : Int) + brOffset n).toNat })

/-- Can a logical spire run: neither ended nor blocked? -/
def runnable (o : Option LCtx) : Bool := o.any fun c => !c.halted && !c.halting && !ctxBlocked c

/-- YIELD (04 R126): a point where the spire may change to its other logical spire. -/
def execYield (p : Nat) (w : Met IWord) (s : State) : Out :=
  seqIssue .yield anyForm s p w fun i _ =>
    .next (modSp s p fun x => settle { setCtx x (pcNext i.c) with changing := x.changing || (x.stolen.isNone && runnable x.other) })

/-- HALT (04 R126): the logical spire ends once nothing of it is in flight. -/
def execHalt (p : Nat) (w : Met IWord) (s : State) : Out :=
  seqIssue .halt anyForm s p w fun i _ => .next (atOnce s p { i.c with halting := true })

/-! GATE and FINIAL. -/

/-- The ranges of its tables that a GATE reads: headers and entries. -/
def gateReads (thr : Bool) (cur prev : Td) (k : Nat) : List (Td × Nat × Nat) :=
  if thr then [(cur, cur.base, 8), (cur, cur.base + 64 + 4 * k, 4)]
  else [(cur, cur.base, 8), (cur, cur.base + 64 + 8 * k, 8), (prev, prev.base, 8), (prev, prev.base + 64 + 8 * k, 8)]

/-- The decision of a GATE (04 R127; 08 R206, R210). -/
def gateDec (rd : Nat → Nat → Nat) (p7 thr : Bool) (cur prev : Td) (k t : Nat) : GateDec :=
  let hc := rdLe (rd cur.space) cur.base 8
  if thr then gateThreshold p7 (bitOf hc 0) (rdLe (rd cur.space) (cur.base + 64 + 4 * k) 4) (t % 2 ^ 32)
  else
    let hp := rdLe (rd prev.space) prev.base 8
    gateExact p7 (bitOf hp 0) (fld hp 63 32) (fld hc 63 32) (rdLe (rd prev.space) (prev.base + 64 + 8 * k) 8)
      (rdLe (rd cur.space) (cur.base + 64 + 8 * k) 8)

/-- A GATE's effect: PD, the GATE state, the counters of 08 Table PAS-5. -/
def gateGo (s : State) (p : Nat) (i : Iss) (pd : Nat) (g : GateDec) : State :=
  let s := atOnce s p (pcNext { i.c with preds := predSet i.c.preds pd g.compute, gate := b2n g.compute })
  modJob s i.j fun y => ctrAdd (ctrAdd (ctrAdd y .gateEvals 1) .gateReuse (b2n !g.compute)) .gateForced (b2n g.forced)

/-- Can a GATE meet an event: in the scratchpad or the sequencer's state, or in what it reads of its tables? -/
def gateMet (s : State) (n : Nat) (i : Iss) (e : AccEv) : Bool :=
  let rs := gateReads (bitOf n 127) (tdF i.c n 126 121) (tdF i.c n 120 115) (sF i.c n 114 110)
  match e with
  | .spireCe src _ | .spireUe src _ => src = 3 || (src = 0 && rs.any fun r => r.1.space = 0)
  | e => evTouch s i.y ((rs.filter fun r => r.1.space != 0).map (·.2)) [] e

/-- GATE (04 R127). -/
def execGate (p : Nat) (w : Met IWord) (s : State) : Out :=
  wordMet s p w (gateMet s w.val.toNat) <| issue .gate anyForm s p w.val fun i n =>
    let thr := bitOf n 127
    let cur := tdF i.c n 126 121
    let prev := tdF i.c n 120 115
    let k := sF i.c n 114 110
    let rs := gateReads thr cur prev k
    match firstBad (tdChk false cur ++ tdIf (!thr) false prev) with
    | some b => .next (refuse s p i.j i.c b)
    | none =>
      guardNext (!ivHeld i.x (tdScratchIv cur ++ ivIf (!thr) prev) []) .notIssuable
        (match accAll s i.y ((rs.filter fun r => r.1.space != 0).map (·.2)) [] with
         | some b => accFail s p i.j i.c b
         | none => gateGo s p i (fld n 104 102) (gateDec (rdI s p i) (predBit i.c.preds 7) thr cur prev k (sF i.c n 109 105)))

/-- FINIAL (04 R128): a marker in the job's trace ring while tracing is on: TAG, logical spire, cycles since the last dispatch. The markers of a
stolen iteration wait for the end of its loop (`endlMarks`). -/
def execFinial (p : Nat) (w : Met IWord) (s : State) : Out :=
  seqIssue .finial anyForm s p w fun i n =>
    let m := [fld n 127 96, i.c.lidx, (i.x.cycles - i.x.cycDisp) % 2 ^ 64]
    let s := atOnce s p (pcNext i.c)
    .next (if i.x.stolen.isSome && i.y.trace then modSp s p fun x => { x with stolen := x.stolen.map fun t => { t with marks := t.marks ++ [m] } }
      else traceAdd s i.j [m])

/-! Completion (03 R83, R91). -/

/-- An instruction leaves: its units, intervals and pins are free. -/
def finish (s : State) (p : Nat) (f : InFl) : State :=
  let s := match (spOf s p).job with
    | some j => pfxPin s j f.pins false
    | none => s
  modSp s p fun x => settle { x with infl := x.infl.filter fun g => g.seq != f.seq }

/-- The instruction in flight under a sequence number. -/
def inflOf (x : Spire) (seq : Nat) : Option InFl := x.infl.find? fun f => f.seq == seq

/-- Has an instruction finished its work: a plain one at once, a SIG once its home has applied it (R122), a piece stream after its
last m-group; fences and sends complete by their own events? -/
def workDone (s : State) (p : Nat) (f : InFl) : Bool :=
  f.wait = 0 || (f.wait = 4 && !(s.sigs.any fun g => g.p = p && g.seq = f.seq)) || (f.wait = 3 && f.mg = f.mgs)

/-- INSTRUCTION_COMPLETE (03 R83). -/
def execInstructionComplete (p seq : Nat) (s : State) : Out :=
  match inflOf (spOf s p) seq with
  | some f => guardNext (spClk s p && workDone s p f) .notEnabled (finish s p f)
  | none => .refused .notEnabled

/-- Has something of a spire passed the hang limit (R91): an instruction in flight, or a blocked WAITS by its own count? -/
def hung (x : Spire) : Bool :=
  (x.infl.any fun f => f.since + 2 ^ x.hangShift < x.cycles)
  || x.run.any fun c => c.waits.any fun w => !w.recv && !w.ok && 2 ^ x.hangShift < w.hang

/-- SPIRE_HANG (03 R91). PARAM is the program counter of the running logical spire (DESIGN CHOICE, log 52: R92 does not say which). -/
def execSpireHang (p : Nat) (s : State) : Out :=
  match (spOf s p).job with
  | some j => guardNext (spClk s p && hung (spOf s p)) .notEnabled (spireFault s p j 4 (((spOf s p).run.map (·.pc)).getD 0))
  | none => .refused .notEnabled

/-! Carried spires (01 R25, R26). -/

/-- The bytes between the live ranges of a scratchpad. -/
def spGaps (live : List (Nat × Nat)) : List (Nat × Nat) :=
  let l := live.mergeSort fun a b => a.1 ≤ b.1
  let r := l.foldl (fun (a : Nat × List (Nat × Nat)) v =>
    (max a.1 (v.1 + v.2), if a.1 < v.1 then a.2 ++ [(a.1, v.1 - a.1)] else a.2)) (0, [])
  if r.1 < 0x300000 then r.2 ++ [(r.1, 0x300000 - r.1)] else r.2

/-- A scratchpad of which only the live ranges keep their contents; the rest is undefined (R26). -/
def spLive (st : Store) (live : List (Nat × Nat)) (id : Nat) : Store := (spGaps live).foldl (fun st g => st.mark g.1 g.2 id) st

/-- The live ranges of a logical spire of a job. -/
def liveOf (s : State) (j : Option Nat) (l : Nat) : List (Nat × Nat) :=
  match j.bind (jobOf s) with
  | some y => (initOf y.plan l).live
  | none => []

/-- A context as it is saved: its live scratchpad ranges with it; the accumulators only while a KEEP stands (03 R75). -/
def saveCtx (s : State) (x : Spire) (c : LCtx) (id : Nat) : LCtx :=
  { c with sp := spLive x.sp (liveOf s x.job c.lidx) id, acc := if c.keep.isSome then c.acc else [] }

/-! Spill entries (03 R88; 09 R224). -/

/-- The pages of a logical spire's spill entry and its offset in them: the entries of a logical cupola stand packed in member order; an image
that is not pre-emptible has entries for the second carried ones only (log 23). -/
def spillAt (s : State) (x : Job) (l : Nat) : List Nat × Nat :=
  let q := lspPos x.plan l
  let e := if x.plan.preempt then 0 else (enabledIn s (nth x.cups q.1)).length
  (x.spills.getD q.1 [], (q.2 - e) * spillBytes x.plan)

/-- Bytes written into a run of pages at an offset. -/
def spillPut (s : State) (pages : List Nat) (off : Nat) (bs : List Nat) : State :=
  (cutAt (2 ^ 21) (bs.length + 1) off bs).foldl (fun s c => paPut s (vaultPa (nth pages (c.1 / 2 ^ 21)) + c.1 % 2 ^ 21) c.2) s

/-- A range of a run of pages written with what the spec leaves open (10 R243: queued as any write). -/
def spillFree (s : State) (pages : List Nat) (off n : Nat) : State :=
  (pieces (2 ^ 21) off n).foldl (fun s c =>
    let pa := vaultPa (nth pages (c.1 / 2 ^ 21)) + c.1 % 2 ^ 21
    { freeMem s pa c.2 with wbulk := bulkAdd s pa c.2 }) s

/-- The parts of a save frame whose bytes the spec gives: TD0 to TD63, V0 to V3, S0 to S31 (Table SPI-4). -/
def frameBytes (c : LCtx) : List Nat :=
  ((List.range 64).flatMap fun i => leBytes 64 (tget 0 c.tds i)) ++ ((List.range 512).flatMap fun i => leBytes 4 (tget 0 c.v i))
    ++ (List.range 32).flatMap fun i => leBytes 8 (tget 0 c.sregs i)

/-- A context written to its spill entry: the frame of Table SPI-4, whose loop stack, counter and waits have no layout in the spec and are
free bytes as the accumulators are (log 23), then the accumulators, then the live ranges. -/
def spillWrite (s : State) (j : Nat) (c : LCtx) : State :=
  match jobOf s j with
  | none => s
  | some x =>
    let (ps, off) := spillAt s x c.lidx
    if ps.isEmpty then s
    else
      let s := spillPut (spillFree (spillPut s ps off (frameBytes c)) ps (off + 0x1900) 448) ps (off + 0x1AC0) (List.replicate 1344 0)
      let s := if x.plan.accLive then spillFree s ps (off + 8192) 131072 else s
      spillPut s ps (off + 8192 + 131072 * b2n x.plan.accLive)
        ((initOf x.plan c.lidx).live.flatMap fun r => rdBytes (fun a => (c.sp.get a).toNat) r.1 r.2)

/-- A context of a spire written to its spill entry, where there is one. -/
def spillOpt (s : State) (p : Nat) (o : Option LCtx) : State :=
  match (spOf s p).job, o with
  | some j, some c => spillWrite s j c
  | _, _ => s

/-- Is a change due: the running logical spire gave up the spire, or the other was released first of two blocked ones, and it can run? -/
def changeDue (x : Spire) : Bool :=
  x.stolen.isNone && runnable x.other && (x.changing || x.resume.isSome || x.run.all fun c => c.halting || c.halted || ctxBlocked c)

/-- Can a save or a change of spire `p` meet an event (03 R85; 09 R228): in what it reads of the spire, or in the spill pages of its job, which
a restore reads? -/
def saveMay (s : State) (restores : Bool) (j : Nat) (e : AccEv) : Bool :=
  match e with
  | .spireCe _ _ | .spireUe _ _ => evOk e
  | .vaultCe _ _ _ => evOk e
  | .vaultUe pa => evOk e && restores && (jobOf s j).any fun x => (x.spills.flatMap id).contains (pa / 2 ^ 32 * 2048 + (pa % 2 ^ 32) / 2 ^ 21)
  | _ => false

/-- A save or a change of spire `p` with the errors that it meets: one that faults its job leaves the contexts as they are. -/
def saveMet (s : State) (p j : Nat) (ev : List AccEv) (t : State) : State :=
  if ev.any evFatal then evAll s p j ev else evAll t p j ev

/-- The change: the outgoing saved, the incoming restored; it counts as a placement choice (12 R277). -/
def doChange (s : State) (p : Nat) : State :=
  let r := freshId s
  let x := spOf s p
  match x.run, x.other with
  | some c, some o =>
    let c := saveCtx s x (if c.halting then { c with halted := true } else c) r.1
    spillOpt (setSp r.2 p (settle { x with
      run := some { o with runCyc := 0, sp := {} }, other := some c, sp := o.sp, changing := false, resume := none
      logRun := o.lidx, logOther := c.lidx, plChanges := satAdd 32 x.plChanges 1, place := satAdd 64 x.place 1
      st := .running })) p (some c)
  | _, _ => s

/-- CARRIED_SPIRE_CHANGE (01 R25). -/
def execCarriedSpireChange (m : Met Nat) (s : State) : Out :=
  let p := m.val
  let x := spOf s p
  guardNext (spClk s p && changeDue x && x.infl.isEmpty && (x.st == .running || x.st == .blocked)
      && m.ev.all (saveMay s true (x.job.getD 0))) .notEnabled
    (saveMet s p (x.job.getD 0) m.ev (doChange s p))

/-- CARRIED_SPIRE_QUANTUM (01 R25): 1,048,576 cycles that the running logical spire ran since it last started. -/
def execCarriedSpireQuantum (p : Nat) (s : State) : Out :=
  let x := spOf s p
  guardNext (spClk s p && x.st == .running && x.stolen.isNone && runnable x.other && (x.run.any fun c => 1048576 ≤ c.runCyc)) .notEnabled
    (modSp s p fun x => { x with changing := true })

/-! Tile stealing (R129). -/

/-- The innermost stealable loop of a context with an iteration that has not started. -/
def stealable (c : LCtx) : Option LoopFr :=
  match c.loops with
  | f :: _ => if f.steal && f.it + 1 < f.top then some f else none
  | [] => none

/-- The context of an owner from which an iteration is taken: the running logical spire first. -/
def stealFrom (x : Spire) : Option (LCtx × LoopFr) :=
  match x.run.bind fun c => (stealable c).map fun f => (c, f) with
  | some r => some r
  | none => x.other.bind fun c => (stealable c).map fun f => (c, f)

/-- May a spire steal now (R129 item 8)? -/
def mayStealNow (x : Spire) : Bool :=
  (x.st == .halted || x.st == .blocked) && x.stolen.isNone && !x.saveReq && x.infl.isEmpty

/-- The thief takes the highest iteration not yet started, from a copy of the owner's state at the LOOP. -/
def doSteal (s : State) (p owner : Nat) (c : LCtx) (f : LoopFr) : State :=
  let k := f.top - 1
  let body := ((tget [] (spOf s owner).progs c.lidx).drop (f.pc + 1)).take (f.fin - f.pc)
  let take := fun (x : LCtx) => modFrame x c.lidx f.pc fun f => { f with top := k, out := f.out + 1 }
  let ctx : LCtx := { lidx := c.lidx, pc := f.pc + 1, preds := f.preds, tds := f.tds, gate := c.gate
                      sregs := if f.indEn then tset f.sregs f.sInd (indAt f k) else f.sregs }
  let s := modSp s owner fun x => { x with run := x.run.map take, other := x.other.map take }
  modSp s p fun x =>
    { x with st := .running, steal := body, stolen := some { owner := owner, olidx := c.lidx, loopPc := f.pc, it := k, ctx := ctx }
             plStolen := satAdd 32 x.plStolen 1, place := satAdd 64 x.place 1 }

/-- STEAL_ITERATION (04 R129). -/
def execStealIteration (p owner : Nat) (s : State) : Out :=
  if 256 ≤ p || 256 ≤ owner || p = owner || p / 8 != owner / 8 then .refused .illFormed
  else
    match stealFrom (spOf s owner), (spOf s p).job with
    | some (c, f), some j =>
      guardNext (spClk s p && mayStealNow (spOf s p) && (spOf s owner).job == some j && ((jobOf s j).any (·.steal)) && !(spOf s owner).saveReq)
        .notEnabled (doSteal s p owner c f)
    | _, _ => .refused .notEnabled

/-! Saves (03 R88, R89) and the spire registers (03 R92). -/

/-- SAVE_REQ is ignored unless the state is RUNNING or BLOCKED. -/
def saveReqX (x : Spire) : Spire := if x.st = .running || x.st = .blocked then settle { x with saveReq := true } else x

/-- A write of a spire's control register: discarded once the uncore has lost lock (20 R440). -/
def spCtrlWrite (s : State) (p : Nat) (t : State) : Out :=
  guardNext (fwUp s && spEnabled s p) .notRunning (if uncoreOut s (p / 8) then s else t)

/-- SAVE_REQ (03 R89, R92). -/
def execSaveReq (p : Nat) (s : State) : Out :=
  if 256 ≤ p then .refused .illFormed else spCtrlWrite s p (modSp s p saveReqX)

/-- May the save complete: nothing in flight, no change under way, no stolen iteration on it or out of it? -/
def saveReady (x : Spire) : Bool :=
  let out := fun (o : Option LCtx) => o.all fun c => c.loops.all fun f => f.out = 0
  x.saveReq && x.infl.isEmpty && !(x.changing && runnable x.other) && x.stolen.isNone && out x.run && out x.other

/-- The frames of a spire and its live data go to the job's spill entries; the spire waits for CLEAR. -/
def doSave (s : State) (p j : Nat) : State :=
  let r := freshId s
  let x := spOf r.2 p
  let put := fun (t : Tbl LCtx) (o : Option LCtx) => match o with
    | some c => tset t c.lidx c
    | none => t
  let run := x.run.map fun c => saveCtx s x c r.1
  let s := modJob r.2 j fun y => { y with spill := put (put y.spill run) x.other }
  let s := spillOpt (spillOpt s p run) p x.other
  modSp s p fun x => { x with st := .idle, saveReq := false, changing := false, resume := none, run := none, other := none }

/-- SAVE_COMPLETE (03 R89). -/
def execSaveComplete (m : Met Nat) (s : State) : Out :=
  match (spOf s m.val).job with
  | some j =>
    guardNext (spClk s m.val && saveReady (spOf s m.val) && m.ev.all (saveMay s false j)) .notEnabled
      (saveMet s m.val j m.ev (doSave s m.val j))
  | none => .refused .notEnabled

/-- CLEAR is ignored unless the state is IDLE, HALTED or FAULTED. -/
def clearReg (s : State) (p : Nat) : State :=
  let x := spOf s p
  if x.st = .idle || x.st = .halted || x.st = .faulted then doClear s p else s

/-- CLEAR (03 R92). -/
def execClear (p : Nat) (s : State) : Out :=
  if 256 ≤ p then .refused .illFormed else spCtrlWrite s p (clearReg s p)

/-- RUN starts a loaded program; SFN_COMPAT takes effect (03 R92). It acts in IDLE or LOADING with a program loaded, and is ignored in
every other state (DESIGN CHOICE, log 59: the rule names no states). -/
def runReg (x : Spire) : Spire :=
  if (x.st = .idle || x.st = .loading) && x.run.isSome then settle { x with st := .running, compat := x.compatReg, cycDisp := x.cycles } else x

/-- RUN (03 R92). -/
def execRun (p : Nat) (s : State) : Out :=
  if 256 ≤ p then .refused .illFormed else spCtrlWrite s p (modSp s p runReg)

/-- SFN_COMPAT is discarded while the state is RUNNING, BLOCKED or SAVING. -/
def compatX (x : Spire) (on : Bool) : Spire :=
  if x.st = .running || x.st = .blocked || x.st = .saving then x else { x with compatReg := on }

/-- SFN_COMPAT (03 R92). -/
def execSfnCompat (p : Nat) (on : Bool) (s : State) : Out :=
  if 256 ≤ p then .refused .illFormed else spCtrlWrite s p (modSp s p fun x => compatX x on)

end Sys2Proof.Machine
end

