-- ==== Sys2Proof/Machine/Sync.lean ====
section
/-! DEFINITION. Semaphores and fences (04 R121 to R123; 11 R256 to R259; 12 R278, R282), writes applied at their homes. -/
namespace Sys2Proof.Machine

/-- A semaphore as an instruction names it: scope 0 cupola, 1 dome; home cupola or slice; key: index in the cupola, or address. -/
structure SemRef where
  scope : Nat
  home : Nat
  key : Nat
  va : Nat
deriving DecidableEq, Repr

/-- The semaphore that S_ADDR names; nothing outside the job's allocation (R122). -/
def semRef (s : State) (p : Nat) (y : Job) (l scope a : Nat) : Option SemRef :=
  if scope = 0 then
    let c := (lspPos y.plan l).1
    if a < nth y.plan.sems c then some ⟨0, p / 8, nth y.semBase c + a, nth y.semBase c + a⟩ else none
  else if domeSemOk y a then (xlate s y a).map fun e => ⟨1, (homeSlice e.2).getD 0, e.2, a⟩
  else none

/-- The value of a semaphore. -/
def semVal (s : State) (scope home key : Nat) : Nat :=
  if scope = 0 then tget 0 s.csem (home * 256 + key) else rdLe (paByte s) key 4

/-- A semaphore with a value. -/
def semSet (s : State) (scope home key v : Nat) : State :=
  if scope = 0 then { s with csem := tset s.csem (home * 256 + key) (v % 2 ^ 32) } else paPut s key (leBytes 4 (v % 2 ^ 32))

/-- The value operand of SIG and WAITS. -/
def semImm (c : LCtx) (w : Nat) : Nat := if bitOf w 89 then sF c w 88 84 % 2 ^ 32 else fld w 121 90

/-- An in-flight record that holds no unit and no interval. -/
def plainInfl (i : Iss) (w wait : Nat) : InFl :=
  { seq := i.x.seq, lidx := i.c.lidx, pc := i.c.pc, word := w, units := [], rd := [], wr := [], wait := wait, since := i.x.cycles }

/-- An instruction without data in flight. -/
def plainGo (s : State) (p : Nat) (i : Iss) (f : InFl) : State :=
  modSp s p fun x => { setCtx x (pcNext i.c) with seq := x.seq + 1, infl := x.infl ++ [f] }

/-- SIG (04 R122): it goes to the semaphore's home. -/
def execSig (p : Nat) (w : Met IWord) (s : State) : Out :=
  seqIssue .sig anyForm s p w fun i n =>
    match semRef s p i.y i.c.lidx (fld n 127 127) (sF i.c n 126 122) with
    | none => .next (refuse s p i.j i.c (chk true 0x108))
    | some r =>
      let id := freshId (plainGo s p i (plainInfl i n 4))
      let g : Sig := { id := id.1, job := i.j, p := p, lsp := i.c.lidx, seq := i.x.seq, scope := r.scope, home := r.home, key := r.key
                       val := semImm i.c n }
      .next { id.2 with sigs := id.2.sigs ++ [g] }

/-- WAITS (04 R122): its home tests it; until then it is a pending wait. -/
def execWaits (p : Nat) (w : Met IWord) (s : State) : Out :=
  seqIssue .waits anyForm s p w fun i n =>
    match semRef s p i.y i.c.lidx (fld n 127 127) (sF i.c n 126 122) with
    | none => .next (refuse s p i.j i.c (chk true 0x108))
    | some r =>
      let id := freshId s
      let k : PWait := { id := id.1, recv := false, scope := r.scope, home := r.home, va := r.va, target := semImm i.c n
                         dec := bitOf n 83, ok := false, group := 0, first := 0, count := 0, sdrop := 0, hang := 0, wdog := 0 }
      .next (atOnce id.2 p { pcNext i.c with waits := i.c.waits ++ [k] })

/-- FENCE (04 R123): in flight; what is older than it is fixed by the identifiers given out so far. -/
def execFence (p : Nat) (w : Met IWord) (s : State) : Out :=
  seqIssue .fence anyForm s p w fun i n => .next (plainGo s p i { plainInfl i n 1 with lat := [s.ids, s.now] })

/-- Does a fence kind cover an issued write (Table TIS-17)? -/
def fenceCovers (kinds cup : Nat) (w : PWr) : Bool :=
  (bitOf kinds 1 && homeSlice w.pa == some cup) || (bitOf kinds 2 && paKind w.pa == .dome)
  || (bitOf kinds 3 && (paKind w.pa == .vault || paKind w.pa == .far)) || (bitOf kinds 4 && w.host)

/-- The conditions of a fence (R123): older instructions complete, covered writes performed, older sends landed. -/
def fenceDone (s : State) (p j : Nat) (f : InFl) : Bool :=
  let kinds := fld f.word 127 122
  ((spOf s p).infl.all fun g => f.seq ≤ g.seq || g.lidx != f.lidx)
  && (s.writes.all fun w => w.job != j || w.lsp != f.lidx || nth f.lat 0 < w.id || !fenceCovers kinds (p / 8) w)
  && (!bitOf kinds 5 || (jobOf s j).all fun y => y.sent.all fun e => e.2 / 2 ^ 40 != f.lidx || nth f.lat 0 < e.2 % 2 ^ 40)

/-- FENCE_COMPLETE (04 R123). -/
def execFenceComplete (p seq : Nat) (s : State) : Out :=
  match inflOf (spOf s p) seq, (spOf s p).job with
  | some f, some j => guardNext (spClk s p && f.wait = 1 && fenceDone s p j f) .notEnabled (finish s p f)
  | _, _ => .refused .notEnabled

/-! Writes at their homes (11 R256), in whatever order: only a fence puts one before another (Table NET-2; 09 R215). -/

/-- Can a write's merge read meet an event: an error of a vault codeword of 64 B, or of a line of 256 B elsewhere, that the write covers in
part only (10 R236, R247)? -/
def evMerges (s : State) (w : PWr) (e : AccEv) : Bool :=
  let r := (w.pa, wrLen w)
  let part := fun (pa u : Nat) => runMerges u r pa || (w.qsw && runHits u r pa)
  evOk e && match e with
  | .vaultUe pa => part pa 64
  | .domeUe pa cls => part pa 256 && lineOk s (jobHandle s w.job) pa cls
  | .farUe pa | .farTimeout pa => part pa 256
  | .vaultCe _ _ _ | .domeCe _ | .farCe _ => true
  | .bankCycle _ _ | .spireCe _ _ | .spireUe _ _ | .farLost _ | .hostErr _ _ => false

/-- An issued write that is not performed. -/
def dropWrite (w : PWr) (s : State) : State := { s with writes := s.writes.filter (·.id != w.id) }

/-- A write reaches its window, unless the window or the unit that it covers in part fails there (16 R371, 17 R392). -/
def windowWrite (w : PWr) (s : State) : State :=
  match wrBad s w with
  | some b => badEnd (dropWrite w s) w.job 0 b
  | none => applyWr s w

/-- A write is performed at its home; one whose merge read fails is dropped, and the failure follows Table MEM-6 for the writer's job. -/
def homeWrite (s : State) (w : PWr) (ev : List AccEv) : State := agentEv s w.job ev (windowWrite w) (dropWrite w)

/-- HOME_WRITE_APPLY (11 R256). -/
def execHomeWriteApply (id : HomeApply) (s : State) : Out :=
  match s.writes.find? fun w => w.id == id.id with
  | some w =>
    guardNext (fwUp s && !marginHolds s w.pa (wrLen w) && id.ev.all (evMerges s w)) .notEnabled (homeWrite s w id.ev)
  | none => .refused .notEnabled

/-! A cycle of a semaphore home (12 R278). -/

/-- A wait pending at a home: its spire and job, the semaphore's key, the wait. -/
structure AtHome where
  p : Nat
  j : Nat
  l : Nat
  key : Nat
  w : PWait
deriving DecidableEq, Repr

/-- The waits of one context that are pending at a home. -/
def ctxWaits (s : State) (p scope home : Nat) (o : Option LCtx) : List AtHome :=
  match o, (spOf s p).job with
  | some c, some j =>
    match jobOf s j with
    | some y => (c.waits.filter fun w => !w.recv && !w.ok && w.scope = scope && w.home = home).map fun w =>
        { p := p, j := j, l := c.lidx, w := w
          key := if scope = 0 then w.va else ((xlate s y w.va).map (·.2)).getD 0 }
    | none => []
  | _, _ => []

/-- Every wait pending at a home, of logical spires that run or are carried; a restore still loads those of a spire in LOADING. -/
def waitsAt (s : State) (scope home : Nat) : List AtHome :=
  (s.spires.filter fun x => x.2.st != .loading).flatMap fun x => ctxWaits s x.1 scope home x.2.run ++ ctxWaits s x.1 scope home x.2.other

/-- A wait succeeds: it leaves the pending waits. -/
def waitOk (s : State) (a : AtHome) : State :=
  let drop := fun (c : LCtx) => { c with waits := c.waits.filter fun w => w.id != a.w.id }
  modSp s a.p fun x => settle { x with run := x.run.map drop, other := x.other.map drop }

/-- Values that granting some of a set of targets may leave (at least one of them). -/
def decReach (v : Nat) (ts : List Nat) : List Nat :=
  ts.foldl (fun (acc : List Nat) t =>
    (acc ++ (v + 2 ^ 32 - t % 2 ^ 32) % 2 ^ 32 :: acc.map fun u => (u + 2 ^ 32 - t % 2 ^ 32) % 2 ^ 32).eraseDups) []

/-- R278 step 4: may every order of granting succeed? -/
def uncontested (v : Nat) (ts : List Nat) : Bool := (decReach v ts).all fun u => u < 2 ^ 31

/-- One DEC grant where the value still allows it; `count` says that it is a contested one. -/
def grantDec (scope home key : Nat) (count : Bool) (s : State) (a : AtHome) : State :=
  let v := semVal s scope home key
  if !semReached v a.w.target then s
  else
    let s := waitOk (semSet s scope home key (v + 2 ^ 32 - a.w.target % 2 ^ 32)) a
    let s := if scope = 0 then s else noteWrite s a.j key 4
    if count then modSp s a.p fun x => { x with ord := satAdd 64 x.ord 1, ordContests := satAdd 32 x.ordContests 1 } else s

/-- A semaphore as S_ADDR names it: its index in the job's range of the cupola, or its address (04 R122, Table TIS-16). -/
def semName (s : State) (scope : Nat) (a : AtHome) : Nat :=
  if scope = 0 then a.key - ((jobOf s a.j).map fun y => nth y.semBase (lspPos y.plan a.l).1).getD 0 else a.w.va % 2 ^ 32

/-- A contest in a strict job: DET_VIOLATION (12 R282 item 3). -/
def detViolation (s : State) (scope : Nat) (d : List AtHome) : State :=
  match d with
  | [] => s
  | a :: _ => jobFault (evrAdd s 0x0720 2 0 [jobHandle s a.j, scope, semName s scope a, d.length]) a.j 0x050D 0 0

/-- The DEC waiters of one semaphore (R278 steps 3 and 4); `order` is the arbiter's. -/
def decStep (scope home : Nat) (order : List Nat) (s : State) (key : Nat) : State :=
  let v := semVal s scope home key
  let d := (waitsAt s scope home).filter fun a => a.key = key && a.w.dec && semReached v a.w.target
  if uncontested v (d.map (·.w.target)) then d.foldl (grantDec scope home key false) s
  else if d.any fun a => (jobOf s a.j).any (·.strict) then detViolation s scope d
  else (order.filterMap fun id => d.find? fun a => a.w.id == id).foldl (grantDec scope home key true) s

/-- Which carried logical spire each spire resumes after the waits of one cycle were tested (01 R25). -/
def noteAll (s0 s : State) : State := { s with spires := s.spires.map fun e => (e.1, noteFirst (spOf s0 e.1) e.2) }

/-- One cycle of a home: every SIG, then the waits without DEC, then those with DEC. -/
def homeCycle (s : State) (scope home : Nat) (sigs order : List Nat) : State :=
  let s0 := s
  let s := (s.sigs.filter fun g => sigs.contains g.id).foldl sigApply s
  let plain := (waitsAt s scope home).filter fun a => !a.w.dec && semReached (semVal s scope home a.key) a.w.target
  let s := plain.foldl waitOk s
  noteAll s0 ((((waitsAt s scope home).filter fun a => a.w.dec).map (·.key)).eraseDups.foldl (decStep scope home order) s)

/-- May a SIG be applied: it is at this home, and every older instruction of its logical spire has completed (11 R259)? -/
def sigReady (s : State) (scope home id : Nat) : Bool :=
  (s.sigs.find? fun g => g.id == id).any fun g => g.scope = scope && g.home = home
    && (spOf s g.p).infl.all fun f => f.lidx != g.lsp || g.seq ≤ f.seq

/-- The job of a semaphore of a home on the 256 B line of an address: of a SIG of this cycle, or of a pending wait. -/
def semJobAt (s : State) (scope home : Nat) (sigs : List Nat) (pa : Nat) : Option Nat :=
  (((s.sigs.filter fun g => sigs.contains g.id).map fun g => (g.key, g.job))
    ++ (waitsAt s scope home).map fun a => (a.key, a.j)).find? (fun k => k.1 / 256 = pa / 256) |>.map (·.2)

/-- Can a home meet an event in a cycle: an error of the scratch line of a dome semaphore that it reads (09 Table MEM-6)? -/
def evHome (s : State) (scope home : Nat) (sigs : List Nat) (e : AccEv) : Bool :=
  scope = 1 && evOk e && match e with
  | .domeCe sl => sl = home
  | .domeUe pa _ => paKind pa = .dome && homeSlice pa = some home && (semJobAt s scope home sigs pa).isSome
  | _ => false

/-- The errors of the lines that a home reads in a cycle: the job of the semaphore ends (DOME_UE), and its operations with it. -/
def homeMet (s : State) (scope home : Nat) (sigs : List Nat) (ev : List AccEv) : State :=
  ev.foldl (fun t e => match e with
    | .domeCe sl => domeCe t sl
    | .domeUe pa cls => domeUncorrectable t ((semJobAt s scope home sigs pa).getD 0) pa cls
    | _ => t) s

/-- SEMAPHORE_HOME_CYCLE (12 R278): the SIGs that reach the home, and the arbiter's order of the pending DEC waiters. -/
def execSemaphoreHomeCycle (scope home : Nat) (sigs : List Nat) (order : Met (List Nat)) (s : State) : Out :=
  if 2 ≤ scope || 32 ≤ home || sigs.eraseDups != sigs || order.val.eraseDups != order.val then .refused .illFormed
  else
    guardNext (fwUp s && sigs.all (sigReady s scope home) && (!sigs.isEmpty || !(waitsAt s scope home).isEmpty)
        && (((waitsAt s scope home).filter fun a => a.w.dec).all fun a => order.val.contains a.w.id)
        && order.ev.all (evHome s scope home sigs)) .notEnabled
      (homeCycle (homeMet s scope home sigs order.ev) scope home sigs order.val)

end Sys2Proof.Machine
end

