-- ==== Sys2Proof/Machine/Link.lean ====
section
/-! DEFINITION. Fabric ports and their links (14 R306 to R317): training, retry, credits, discovery, lost members, heartbeats.
The receive buffers of the device are freed at once, so every accepted frame returns its credits with the next frame sent. -/
namespace Sys2Proof.Machine

/-! Port states (R307, Table FAB-8). -/

/-- The link layer of a port as a new link finds it. -/
def portFresh (p : Port) : Port :=
  { p with lsn := 0, lsnExp := 0, nakSent := false, rxAny := false, ackDue := false, owe := [0, 0, 0, 0], ackAt := 0, txq := []
           deficit := [0, 0, 0, 0], turn := 1, unacked := [], retryRun := 0, credits := [0, 0, 0, 0] }

/-- Is a port's link up? -/
def portUp (p : Port) : Bool := p.st = .link || p.st = .ready || p.st = .mismatch

/-- The port is down, or disabled (Table FAB-9: LINK_DOWNS counts transitions from READY). -/
def portDown (s : State) (pi : Nat) : State :=
  modPort s pi fun p =>
    { portFresh p with st := if p.en then .down else .disabled, width := 0
                       linkDowns := satAdd 32 p.linkDowns (b2n (p.st = .ready)) }

/-- Every multi-device job that a predicate picks ends with a cause; the record names this member (R316). -/
def faultMulti (s : State) (cause : Nat) (pick : Job → Bool) : State :=
  ((s.jobs.filter fun k => 1 < k.2.m && pick k.2).map fun k => (k.1, k.2.l)).foldl (fun s k => jobFault s k.1 cause k.2 0) s

/-- A port whose link was up goes down: this device is the lost member (R316 case 4). -/
def linkLost (s : State) (pi : Nat) : State :=
  if portUp (portOf s pi) then faultMulti (portDown s pi) 0x0509 fun _ => true else portDown s pi

/-- The width that a set of working lanes trains to (R307): 3 eight lanes, 1 lanes 0 to 3, 2 lanes 4 to 7, 0 none. -/
def trainWidth (noDegrade : Bool) (lanes : Nat) : Nat :=
  if lanes = 255 then 3 else if noDegrade then 0 else if lanes % 16 = 15 then 1 else if lanes / 16 = 15 then 2 else 0

/-- A training attempt; illegal MEDIA keeps the port DOWN (R306); at link-up FAB_CFG takes effect (R335). -/
def portTrain (s : State) (pi lanes : Nat) : State :=
  modPort s pi fun p =>
    let w := if p.media = 3 then 0 else trainWidth p.noDegrade lanes
    if w = 0 then p else { newRound (portFresh p) with
      st := .link, width := w, ether := s.etherType, vlan := if s.vlanEn then some s.vlanId else none }

/-- May a port train: the firmware runs, its gate is ON, its state DOWN? -/
def canTrain (s : State) (pi : Nat) : Bool :=
  fwUp s && (portOf s pi).en && (gateOf s (36 + pi)).st = 2 && (portOf s pi).st = .down

/-- PORT_TRAINING (R307): the lanes that work, as a mask. -/
def execPortTraining (pi lanes : Nat) (s : State) : Out :=
  if 4 ≤ pi || 256 ≤ lanes then .refused .illFormed else guardNext (canTrain s pi) .notEnabled (portTrain s pi lanes)

/-- PORT_TRAIN_RETRY (R307): the same, every second while DOWN. -/
def execPortTrainRetry (pi lanes : Nat) (s : State) : Out :=
  if 4 ≤ pi || 256 ≤ lanes then .refused .illFormed else guardNext (canTrain s pi) .notEnabled (portTrain s pi lanes)

/-- LINK_DOWN (R307, R316). -/
def execLinkDown (pi : Nat) (s : State) : Out :=
  if 4 ≤ pi then .refused .illFormed else guardNext (fwUp s && portUp (portOf s pi)) .notEnabled (linkLost s pi)

/-! Acknowledgement and replay (R309). -/

/-- A LINK frame, unless one waits already. -/
def linkSend (s : State) (pi : Nat) (nak : Bool) : State :=
  if (portOf s pi).txq.any fun f => f.type = 1 && f.nak = nak then s
  else portSend s pi { port := pi, type := 1, vc := 0, dst := 0xFFFF, nak := nak }

/-- NAK, once for a gap. -/
def nakOnce (s : State) (pi : Nat) : State :=
  if (portOf s pi).nakSent then s else linkSend (modPort s pi fun p => { p with nakSent := true }) pi true

/-- A reduction part whose last frame the switch has accepted counts as landed (R327). -/
def redLanded (s : State) (f : OutFr) : State :=
  if f.type = 8 && f.last then
    { s with jobs := s.jobs.map fun k => (k.1, { k.2 with sent := k.2.sent.filter fun e => e.1 != 2 ^ 60 + f.id }) }
  else s

/-- An acknowledgement that advances: the acknowledged frames leave the replay buffer. -/
def ackTo (s : State) (pi a : Nat) : State :=
  match (portOf s pi).unacked.findIdx? fun f => f.lsn = a with
  | none => s
  | some i =>
    let gone := (portOf s pi).unacked.take (i + 1)
    let s := modPort s pi fun p => { p with unacked := p.unacked.drop (i + 1), retryRun := 0, ackAt := s.now }
    gone.foldl redLanded s

/-- A replay of every unacknowledged frame; the sixteenth without an advance takes the link down. -/
def replay (s : State) (pi : Nat) : State :=
  let p := portOf s pi
  if p.unacked.isEmpty then s
  else
    let s := { modPort s pi (fun p => { p with retries := satAdd 32 p.retries 1, retryRun := p.retryRun + 1, ackAt := s.now }) with
               fabOut := s.fabOut ++ p.unacked }
    if 16 ≤ p.retryRun + 1 then linkLost s pi else s

/-- The frame types and their virtual channels (Table FAB-4). -/
def vcOk (type vc : Nat) : Bool := if type = 0 then 1 ≤ vc else if type = 8 || type = 9 then vc = 1 else vc = 0

/-- A frame of another EtherType, or of a transport version or type, that a port discards (R308). -/
def frIllegal (p : Port) (f : Frame) : Bool := f.ver != 1 || 10 ≤ f.type || f.ether != p.ether

/-- Do a frame's header fields fit Table FAB-3, with a given type and payload length? -/
def frOk (p : Port) (f : Frame) (type n : Nat) : Bool :=
  f.port < 4 && f.ether < 65536 && f.ver < 256 && f.type < 16 && f.vc < 4 && f.cvc < 4 && f.lsn < 65536 && f.ackLsn < 65536 && f.cred < 16384
  && f.srcFa < 65536 && f.dstFa < 65536 && f.job < 2 ^ 64 && f.group < 16 && f.slot < 2 ^ 24 && f.offset < 2 ^ 32 && f.plen < 2 ^ 32
  && n ≤ 4096 && (frIllegal p f || (f.type = type && vcOk type f.vc))

/-- A frame counted as stray (R308, R324). -/
def stray (s : State) (pi : Nat) : State := modPort s pi fun p => { p with stray := satAdd 32 p.stray 1 }

/-- The link layer takes a frame of `n` payload bytes: FCS, version and type, sequence, acknowledgement, credits, NAK. True when the
frame is accepted. -/
def linkTake (s : State) (f : Frame) (n : Nat) : State × Bool :=
  let p := portOf s f.port
  if !f.fcs then (nakOnce (modPort s f.port fun p => { p with fcsErr := satAdd 32 p.fcsErr 1 }) f.port, false)
  else if frIllegal p f then (stray s f.port, false)
  else if f.lsn != p.lsnExp then
    (if (f.lsn + 65536 - p.lsnExp) % 65536 < 32768 then nakOnce s f.port else s, false)
  else
    let s := modPort s f.port fun p =>
      { p with lsnExp := (p.lsnExp + 1) % 65536, nakSent := false, rxAny := true, ackDue := true
               owe := lset p.owe f.vc (nth p.owe f.vc + cdiv (32 + n) 256)
               credits := lset p.credits f.cvc (nth p.credits f.cvc + f.cred) }
    let s := if f.ackV then ackTo s f.port f.ackLsn else s
    let s := if f.nak then replay s f.port else s
    (portRun s f.port, true)

/-- A frame arrives at a port whose link is up: the link layer, then the frame's own meaning. -/
def rx (s : State) (f : Frame) (type n : Nat) (body : State → State) : Out :=
  if !frOk (portOf s f.port) f type n then .refused .illFormed
  else
    guardNext (fwUp s && portUp (portOf s f.port)) .notEnabled
      (let r := linkTake s f n; if r.2 then body r.1 else r.1)

/-- LINK (R309). -/
def execLink (f : Frame) (s : State) : Out := rx s f 1 0 id

/-- ACK_TIMER (R309): LINK frames that acknowledge and return the credits of every virtual channel. -/
def execAckTimer (pi : Nat) (s : State) : Out :=
  guardNext (pi < 4 && fwUp s && portUp (portOf s pi) && (portOf s pi).ackDue) .notEnabled
    ((List.range 3).foldl (fun s _ => if (portOf s pi).owe.any (0 < ·) then linkSend s pi false else s) (linkSend s pi false))

/-- REPLAY_TIMEOUT (R309): no acknowledgement has advanced for 1 µs. -/
def execReplayTimeout (pi : Nat) (s : State) : Out :=
  guardNext (pi < 4 && fwUp s && portUp (portOf s pi) && !(portOf s pi).unacked.isEmpty && (portOf s pi).ackAt + 1 ≤ s.now) .notEnabled
    (portRun (replay s pi) pi)

/-! Discovery and membership (R312 to R316). -/

/-- HELLO_TIMER (R312): identity, port number, and the device's fabric address once it is known (R314), else 0. -/
def execHelloTimer (pi : Nat) (s : State) : Out :=
  guardNext (pi < 4 && fwUp s && portUp (portOf s pi)) .notEnabled
    (portSend s pi { port := pi, type := 2, vc := 0, dst := 0xFFFF, a := s.fuse.uid, b := pi * 65536 + ((refPort s).map (·.fa)).getD 0 })

/-- An event whose parameters the spec does not give: free values (log 11). -/
def evrFree (s : State) (code sev src : Nat) : State :=
  let a := freshVal s 32
  let b := freshVal a.2 32
  let c := freshVal b.2 32
  let d := freshVal c.2 32
  evrAdd d.2 code sev src [a.1, b.1, c.1, d.1]

/-- A port enters MISMATCH: it counts as down, its waiting frames of jobs are dropped, and the event is written (R314). -/
def mismatch (s : State) (pi : Nat) : State :=
  if (portOf s pi).st = .mismatch then s
  else faultMulti (evrFree (modPort s pi fun p => { p with st := .mismatch, txq := p.txq.filter (·.job = 0) }) 0x0810 2 (4 + pi)) 0x0509 fun _ => true

/-- Does a port's roster give the device's identity another position? -/
def idElsewhere (s : State) (p : Port) : Bool := p.present.any fun e => e.2 = s.fuse.uid && e.1 != p.pos

/-- Ports that disagree with the reference port, or place this device elsewhere, enter MISMATCH. -/
def portsAgree (s : State) : State :=
  let s := (List.range 4).foldl (fun s pi =>
    if (portOf s pi).st = .ready && idElsewhere s (portOf s pi) then mismatch s pi else s) s
  match refPort s with
  | none => s
  | some r =>
    (List.range 4).foldl (fun s pi =>
      let p := portOf s pi
      if p.st = .ready && (p.tower != r.tower || p.pos != r.pos) then mismatch s pi else s) s

/-- Is a member, by fabric address, absent from a plane's roster of this tower or from its towers (R316 cases 1 and 2)? -/
def memberGone (p : Port) (fa : Nat) : Bool :=
  (fa / 64 = p.tower && (tfind p.present (fa % 64)).isNone) || p.towers.any fun t => !t.contains (fa / 64)

/-- Jobs that include a lost member end (R316). -/
def lostMembers (s : State) (pi : Nat) : State :=
  if (portOf s pi).st = .ready then faultMulti s 0x0508 fun x => x.fas.any (memberGone (portOf s pi)) else s

/-- Does a port agree with the reference port and with the device's place in its own roster? -/
def rosterFits (s : State) (p : Port) : Bool := !idElsewhere s p && (refPort s).all fun r => p.tower = r.tower && p.pos = r.pos

/-- What a roster does; a port in MISMATCH stays there until a roster agrees (DEDUCED, log 24). -/
def rosterIn (s : State) (pi tower pos gen mib : Nat) (present : List (Nat × Nat)) : State :=
  let s := modPort s pi fun p =>
    { p with tower := tower, pos := pos, gen := gen, mib := mib, present := present, fa := tower * 64 + pos }
  let s := if (portOf s pi).st = .mismatch && !rosterFits s (portOf s pi) then s else modPort s pi fun p => { p with st := .ready }
  lostMembers (portsAgree s) pi

/-- The payload of a ROSTER: T and P, the generation, the presence map, the reduction memory, an identity for each present position (R313; the
widths of its fields DESIGN CHOICE, log 24). -/
def rosterBytes (present : List (Nat × Nat)) : Nat := 2 + 4 + 8 + 4 + 8 * present.length

/-- ROSTER (R313). -/
def execRoster (f : Frame) (tower pos gen mib : Nat) (present : List (Nat × Nat)) (s : State) : Out :=
  if 128 ≤ tower || 64 ≤ pos || 2 ^ 32 ≤ gen || !present.all (fun e => e.1 < 64 && e.2 < 2 ^ 64) then .refused .illFormed
  else rx s f 3 (rosterBytes present) fun s => rosterIn s f.port tower pos gen mib present

/-- TOWERS (R313). -/
def execTowers (f : Frame) (gen : Nat) (map : List Nat) (s : State) : Out :=
  if 2 ^ 32 ≤ gen || !map.all (· < 128) then .refused .illFormed
  else rx s f 4 0 fun s => lostMembers (modPort s f.port fun p => { p with towers := some map, towersGen := gen }) f.port

/-! Frames of a job (R324). -/

/-- The job that a frame names, where it is held here. -/
def frJob (s : State) (f : Frame) : Option (Nat × Job) := s.jobs.find? fun k => 1 < k.2.m && k.2.fabId = f.job && f.job != 0

/-- The logical device that sent a frame. -/
def frSrc (x : Job) (f : Frame) : Option Nat := x.fas.findIdx? (· == f.srcFa)

/-- A lantern message from member `l` of a job held here; any other is stray. -/
def ctlIn (s : State) (f : Frame) (l : Nat) (body : State → Nat → Job → State) : State :=
  match frJob s f with
  | some (j, x) => if frSrc x f = some l then body s j x else stray s f.port
  | none => stray s f.port

/-! Heartbeats (R317) and faults of other members (R316). -/

/-- BEAT_TIMER: every 1 ms the lantern sends BEAT to the next logical device; a window without the predecessor's ends (R317). -/
def execBeatTimer (j : Nat) (s : State) : Out :=
  match jobOf s j with
  | none => .refused .notEnabled
  | some x =>
    guardNext (fwUp s && 1 < x.m && x.beatWin + 1000 ≤ s.now) .notEnabled
      (modJob (ctlSend s x ((x.l + 1) % x.m) 6 x.l 0) j fun x =>
        { x with beatWin := s.now, beatMiss := if x.beatSeen then 0 else x.beatMiss + 1, beatSeen := false })

/-- BEAT (R317). -/
def execBeat (f : Frame) (l : Nat) (s : State) : Out :=
  rx s f 5 0 fun s => ctlIn s f l fun s j x =>
    if l = (x.l + x.m - 1) % x.m then modJob s j fun x => { x with beatSeen := true } else s

/-- BEAT_TIMEOUT: five windows in a row without BEAT (R317): every job that includes the lost member ends (R316). -/
def execBeatTimeout (j : Nat) (s : State) : Out :=
  match jobOf s j with
  | none => .refused .notEnabled
  | some x => guardNext (fwUp s && 1 < x.m && 5 ≤ x.beatMiss) .notEnabled
      (faultMulti s 0x0508 fun y => y.fas.contains (nth x.fas ((x.l + x.m - 1) % x.m)))

/-- JOB_FAULT (R316): the job ends here with the same cause; the record names the detecting member. -/
def execJobFault (f : Frame) (l cause : Nat) (s : State) : Out :=
  if 2 ^ 16 ≤ cause then .refused .illFormed
  else rx s f 5 0 fun s => ctlIn s f l fun s j _ => jobFaultX s j cause l 0 false

/-- LANDED (R323, R327): the oldest send to that member and slot has landed; `seq` is the group × 65,536 + slot. -/
def execLanded (f : Frame) (l seq : Nat) (s : State) : Out :=
  rx s f 5 0 fun s => ctlIn s f l fun s j _ => modJob s j fun x =>
    match x.sent.find? fun e => e.1 = l * 2 ^ 20 + seq with
    | some e => { x with sent := x.sent.erase e }
    | none => x

end Sys2Proof.Machine
end

