-- ==== Sys2Proof/Machine/Fabric.lean ====
section
/-! DEFINITION. Pieces (04 R119, R120; 14 R319 to R331): sending, receive slots, landing, results of switch reductions. -/
namespace Sys2Proof.Machine

/-! Groups and ranks (R319). -/

/-- Coordinate of a device on axis `a` of a grid. -/
def gridCoord (grid : List Nat) (l a : Nat) : Nat := l / 2 ^ sumN (grid.take a) % 2 ^ nth grid a

/-- The logical device of rank `r` in the group of device `l`. -/
def rankDev (grid z : List Nat) (l r : Nat) : Nat :=
  sumN ((List.range grid.length).map fun a =>
    (gridCoord grid l a / 2 ^ nth z a * 2 ^ nth z a + r / 2 ^ sumN (z.take a) % 2 ^ nth z a) * 2 ^ sumN (grid.take a))

/-- The rank of device `l` in its group. -/
def devRank (grid z : List Nat) (l : Nat) : Nat :=
  sumN ((List.range grid.length).map fun a => gridCoord grid l a % 2 ^ nth z a * 2 ^ sumN (z.take a))

/-! Receive slots (R321). -/

/-- The capacity of a slot in bytes. -/
def slotCap (g : Grp) : Nat := g.slotUnits * 256
/-- The address of the control region. -/
def ctlVa (g : Grp) : Nat := g.ctlBase * 256
/-- The words of the READY map and of the ARM map. -/
def mapWords (g : Grp) : Nat := cdiv g.nslot 64
/-- The 64-bit word of the READY (`m` 0) or ARM (`m` 1) map that holds a slot's bit. -/
def mapVa (g : Grp) (m slot : Nat) : Nat := ctlVa g + 8 * (m * mapWords g + slot / 64)
/-- The slot word. -/
def slotVa (g : Grp) (slot : Nat) : Nat := ctlVa g + 16 * mapWords g + 8 * slot

/-- A bit of a map. -/
def mapBit (s : State) (x : Job) (g : Grp) (m slot : Nat) : Bool := bitOf (rdLe (vaByte s x) (mapVa g m slot) 8) (slot % 64)

/-- The words of a control region that a slot's arming and landing write: slot word, READY and ARM map. -/
def slotAcc (g : Grp) (slot : Nat) : List (Nat × Nat) := [(slotVa g slot, 8), (mapVa g 0 slot, 8), (mapVa g 1 slot, 8)]

/-- The first failure of an access to the words of a control region, which must lie in the vault or in dome-store scratch (Table FAB-5; 09 R219). -/
def ctlBad (s : State) (x : Job) (rds wrs : List (Nat × Nat)) : Option AccBad := accTier s x [0, 1] rds wrs

/-- A bit of a map written. -/
def mapSet (s : State) (j : Nat) (g : Grp) (m slot : Nat) (v : Bool) : State :=
  match jobOf s j with
  | none => s
  | some x =>
    let w := rdLe (vaByte s x) (mapVa g m slot) 8
    vaPutReq s j (mapVa g m slot) (leBytes 8 (setFld w (slot % 64) (slot % 64) (b2n v)))

/-- Is a slot ARMED, READY? -/
def slotArmed (s : State) (x : Job) (g : Grp) (slot : Nat) : Bool := mapBit s x g 1 slot
/-- Is a slot READY? -/
def slotReady (s : State) (x : Job) (g : Grp) (slot : Nat) : Bool := mapBit s x g 0 slot

/-- The spire whose scratchpad holds a group's receive area. -/
def raSpire (x : Job) (g : Grp) : Nat := nth x.place g.raLsp

/-- Bytes written to a slot of a receive area. -/
def raPut (s : State) (j : Nat) (x : Job) (g : Grp) (slot off : Nat) (bs : List Nat) : State :=
  let a := (g.raBase + slot * g.slotUnits) * 256 + off
  if g.raSp then modSp s (raSpire x g) fun y => { y with sp := y.sp.put a bs } else vaPutReq s j a bs

/-- Zeros over a range of job memory. -/
def vaZero (s : State) (j va n : Nat) : State :=
  (pieces 4096 va n).foldl (fun s p =>
    match jobOf s j with
    | some x =>
      match xlate s x p.1 with
      | some (_, pa) =>
        noteWrite (if paKind pa = .vault || paKind pa = .dome then zeroMem s pa p.2 else paPut s pa (List.replicate p.2 0)) j pa p.2
      | none => s
    | none => s) s

/-- Zeros from an offset to the end of a slot (R323 step 2). -/
def raZero (s : State) (j : Nat) (x : Job) (g : Grp) (slot off : Nat) : State :=
  let a := (g.raBase + slot * g.slotUnits) * 256 + off
  let n := slotCap g - off
  if n = 0 then s
  else if g.raSp then modSp s (raSpire x g) fun y => { y with sp := y.sp.mark a n 0 } else vaZero s j a n

/-! XRECV (R326). -/

/-- The slots of an XRECV. -/
def recvSlots (first count : Nat) : List Nat := (List.range count).map (first + ·)

/-- The sum of the DROP words of a range (R326). -/
def dropSum (s : State) (x : Job) (g : Grp) (first count : Nat) : Nat :=
  sumN ((recvSlots first count).map fun k => fld (rdLe (vaByte s x) (slotVa g k) 8) 63 32) % 2 ^ 64

/-- Is every slot of a wait READY? -/
def recvOk (s : State) (x : Job) (g : Grp) (w : PWait) : Bool := (recvSlots w.first w.count).all (slotReady s x g)

/-- XRECV waits of a context that have succeeded: S_DROP written, the wait gone. -/
def recvCtx (s : State) (x : Job) (c : LCtx) : LCtx :=
  c.waits.foldl (fun c w =>
    if !w.recv then c
    else
      match tfind x.plan.groups w.group with
      | some g =>
        if recvOk s x g w then
          { c with waits := c.waits.filter fun v => v.id != w.id, sregs := tset c.sregs w.sdrop (dropSum s x g w.first w.count) }
        else c
      | none => c) c

/-- The XRECV waits of a job's resident logical spires tested again (R326, R298). -/
def recvRetest (s : State) (j : Nat) : State :=
  match jobOf s j with
  | none => s
  | some x =>
    (jobSpires x).foldl (fun s p =>
      if (spOf s p).job = some j then
        modSp s p fun y => settle (noteFirst y { y with run := y.run.map (recvCtx s x), other := y.other.map (recvCtx s x) })
      else s) s

/-- One slot armed: an ARMED slot is left as it is. -/
def armSlot (s : State) (j : Nat) (g : Grp) (slot : Nat) : State :=
  match jobOf s j with
  | none => s
  | some x =>
    if slotArmed s x g slot then s
    else mapSet (mapSet (vaPutReq s j (slotVa g slot) (List.replicate 8 0)) j g 0 slot false) j g 1 slot true

/-- The group of an XRECV whose slots exist. -/
def recvGrp (i : Iss) (n : Nat) : Option (Grp × Nat × Nat) :=
  (tfind i.y.plan.groups (fld n 127 124)).bind fun g =>
    if sF i.c n 123 119 + sF i.c n 118 114 ≤ g.nslot then some (g, sF i.c n 123 119, sF i.c n 118 114) else none

/-- The words of the control region that an XRECV accesses. -/
def recvAcc (i : Iss) (n : Nat) : List (Nat × Nat) :=
  match recvGrp i n with
  | some (g, first, count) => (recvSlots first count).flatMap (slotAcc g)
  | none => []

/-- XRECV with WAIT = 0 (R326). A slot word that it writes in part meets the errors of its merge (10 R236), and then nothing is armed. -/
def execXrecvArm (p : Nat) (w : Met IWord) (s : State) : Out :=
  wordMet s p w (fun i e => evSeq e || evTouch s i.y [] (recvAcc i w.val.toNat) e) <|
  issue .xrecv (fun n => !bitOf n 113) s p w.val fun i n =>
    match recvGrp i n with
    | none => .next (refuse s p i.j i.c (chk true 0x109))
    | some (g, first, count) =>
      .next (match ctlBad s i.y [] (recvAcc i n) with
        | some b => accFail s p i.j i.c b
        | none =>
          if w.ev.any evEnds then atOnce s p (pcNext i.c)
          else (recvSlots first count).foldl (fun s k => armSlot s i.j g k) (atOnce s p (pcNext i.c)))

/-- XRECV with WAIT = 1 (R326): a pending wait, tested at once; one that blocks while a PAUSE is outstanding is counted (13 R299). -/
def execXrecvWait (p : Nat) (w : Met IWord) (s : State) : Out :=
  wordMet s p w (fun i e => evSeq e || evTouch s i.y (recvAcc i w.val.toNat) [] e) <|
  issue .xrecv (fun n => bitOf n 113) s p w.val fun i n =>
    match recvGrp i n with
    | none => .next (refuse s p i.j i.c (chk true 0x109))
    | some (g, first, count) =>
      let s0 := s
      let id := freshId s
      let k : PWait := { id := id.1, recv := true, scope := 0, home := 0, va := 0, target := 0, dec := false, ok := false
                         group := fld n 127 124, first := first, count := count, sdrop := fld n 112 108, hang := 0, wdog := 0 }
      let s := atOnce id.2 p { pcNext i.c with waits := i.c.waits ++ [k] }
      let s := if recvOk s i.y g k || i.y.paused.isEmpty then s else modJob s i.j fun y => ctrAdd y .collPreemptStalls 1
      .next (match ctlBad s0 i.y (recvAcc i n) [] with
        | some b => accFail s0 p i.j i.c b
        | none => recvRetest s i.j)

/-! Landing (R323). -/

/-- A landed piece: zero fill, LEN and DROP, the slot READY, counters, the waits of the job. -/
def landEnd (s : State) (j : Nat) (g : Grp) (slot b : Nat) : State :=
  match jobOf s j with
  | none => s
  | some x =>
    let len := min b (slotCap g)
    let s := raZero s j x g slot len
    let s := vaPutReq s j (slotVa g slot) (leBytes 8 (len + (b - len) * 2 ^ 32))
    let s := mapSet (mapSet s j g 1 slot false) j g 0 slot true
    let s := modJob s j fun x => ctrAdd (ctrAdd x .fabPieces 1) .fabDropBytes (b - len)
    recvRetest s j

/-- Bytes of a piece at an offset: those below the slot's capacity are written. -/
def landBytes (s : State) (j : Nat) (x : Job) (g : Grp) (slot off : Nat) (bs : List Nat) : State :=
  raPut s j x g slot off (bs.take (slotCap g - off))

/-- The ranges of job memory that `n` bytes of a piece at an offset write; the last ones zero the rest of the slot as well. -/
def landAcc (g : Grp) (slot off n : Nat) (last : Bool) : List (Nat × Nat) :=
  let k := if last then slotCap g - off else min n (slotCap g - off)
  slotAcc g slot ++ (if g.raSp || k = 0 then [] else [((g.raBase + slot * g.slotUnits) * 256 + off, k)])

/-- A landing that goes where its accesses do not fail (09 R219) and meet no error that ends the request or the job (09 R228). -/
def landChk (s : State) (j : Nat) (x : Job) (acc : List (Nat × Nat)) (ev : List AccEv) (go : State → State) : State :=
  match accAll s x [] acc with
  | some b => badEnd s j x.l b
  | none => agentEv s j ev go id

/-- A whole piece that arrives over the mesh (R322) in slot `slot` of group `gi`; one that meets an error which ends the request or the job
(`lost`) leaves its slot as it is. -/
def landLocal (s : State) (j gi : Nat) (g : Grp) (slot : Nat) (bs : List Nat) (lost : Bool := false) : State :=
  match jobOf s j with
  | none => s
  | some x =>
    match ctlBad s x (slotAcc g slot) [] with
    | some b => badEnd s j x.l b
    | none =>
    if lost then s
    else if !slotArmed s x g slot || s.landings.any (fun t => t.job = j && t.group = gi && t.slot = slot) then jobFault s j 0x050B x.l 0
    else landChk s j x (landAcc g slot 0 bs.length true) [] fun s => landEnd (landBytes s j x g slot 0 bs) j g slot bs.length

/-- A frame of a piece from device `src` (M for the switch) reaches its slot. -/
def landFrame (s : State) (f : Frame) (j : Nat) (x : Job) (g : Grp) (src : Nat) (bs : List Nat) (ev : List AccEv) (done : State → State) : State :=
  let here := s.landings.find? fun t => t.job = j && t.group = f.group && t.slot = f.slot
  match ctlBad s x (slotAcc g f.slot) [] with
  | some b => badEnd s j x.l b
  | none =>
  if !slotArmed s x g f.slot || (here.isSome && (f.first || here.any fun t => t.src != src)) then jobFault s j 0x050B x.l 0
  else
    landChk s j x (landAcc g f.slot f.offset bs.length f.last) ev fun s =>
    let s := landBytes s j x g f.slot f.offset bs
    let rest := s.landings.filter fun t => !(t.job = j && t.group = f.group && t.slot = f.slot)
    if f.last then done (landEnd { s with landings := rest } j g f.slot f.plen)
    else { s with landings := rest ++ [{ job := j, group := f.group, slot := f.slot, src := src, next := f.offset + bs.length
                                         plen := f.plen }] }

/-- LANDED to the sender (R323 step 5). -/
def landedSend (j src group slot : Nat) (s : State) : State :=
  match jobOf s j with
  | some x => ctlSend s x src 7 x.l (group * 65536 + slot)
  | none => s

/-- The group and slot that a frame names in a job (R324). -/
def frSlot (x : Job) (f : Frame) : Option Grp := (tfind x.plan.groups f.group).filter fun g => f.slot < g.nslot

/-- A DATA frame after the link layer. -/
def dataIn (s : State) (f : Frame) (bs : List Nat) (ev : List AccEv := []) : State :=
  match frJob s f with
  | none => stray s f.port
  | some (j, x) =>
    match frSrc x f, frSlot x f with
    | some src, some g => landFrame s f j x g src bs ev (landedSend j src f.group f.slot)
    | _, _ => stray s f.port

/-- The job, and the ranges that the landing of a piece's frame writes (09 R219). -/
def landRanges (s : State) (f : Frame) (n : Nat) : Option (Job × List (Nat × Nat)) :=
  (frJob s f).bind fun k => (frSlot k.2 f).map fun g => (k.2, landAcc g f.slot f.offset n f.last)

/-- Does a MARGIN hold a landing (10 R251 item 5)? -/
def landHeld (s : State) (f : Frame) (n : Nat) : Bool := (landRanges s f n).any fun r => r.2.any fun a => marginVa s r.1 a.1 a.2

/-- A frame that lands: it waits while a MARGIN holds its channel, and meets errors of its own accesses only. -/
def rxLand (s : State) (f : Frame) (type : Nat) (d : Payload) (body : State → List Nat → State) : Out :=
  let n := d.bytes.length
  if !d.ev.all fun e => (landRanges s f n).any fun r => evTouch s r.1 [] r.2 e then .refused .illFormed
  else if landHeld s f n then .refused .notEnabled
  else rx s f type n fun s => body s (d.bytes.map (·.toNat))

/-- DATA (R323, R324). -/
def execData (f : Frame) (d : Payload) (s : State) : Out := rxLand s f 0 d fun s bs => dataIn s f bs d.ev

/-- A result in arrival order is counted on the spire whose XSEND asked for the slot (12 R277); once that spire serves the job no more, with
what it has counted for the job. -/
def arrCount (s : State) (j : Nat) (x : Job) (g : Grp) (f : Frame) : State :=
  match tfind x.redParts (f.group * 65536 + f.slot) with
  | some (p, _) =>
    if !(f.arr && f.last && arrMode x g) then s
    else if (spOf s p).job = some j && !x.saved then
      modSp s p fun y => { y with ord := satAdd 64 y.ord 1, ordSwred := satAdd 32 y.ordSwred 1 }
    else modJob s j fun y => ctrAdd (ctrAdd y .orderChoices 1) .ordSwredArr 1
  | none => s

/-- A RED_RESULT frame after the link layer: a result of another size than this device's part ends the job (R331). -/
def redIn (s : State) (f : Frame) (bs : List Nat) (ev : List AccEv := []) : State :=
  match frJob s f with
  | none => stray s f.port
  | some (j, x) =>
    match frSlot x f with
    | none => stray s f.port
    | some g =>
      if (tfind x.redParts (f.group * 65536 + f.slot)).any fun r => r.2 != f.plen then jobFault s j 0x050C x.l 0
      else landFrame (arrCount s j x g f) f j x g x.m bs ev id

/-- RED_RESULT (R331). -/
def execRedResult (f : Frame) (d : Payload) (s : State) : Out := rxLand s f 9 d fun s bs => redIn s f bs d.ev

/-! XSEND (R322, R327, R331). -/

/-- The frames of a piece of bytes: at most 4,096 payload bytes each, in ascending OFFSET. -/
def pieceFrames (base : OutFr) (bs : List Nat) : List OutFr :=
  let n := max 1 (cdiv bs.length 4096)
  (List.range n).map fun k =>
    { base with offset := 4096 * k, plen := bs.length, first := k = 0, last := k + 1 = n, data := (bs.drop (4096 * k)).take 4096 }

/-- Where an XSEND goes: nothing if it is refused; else a member's logical device, or the switch. -/
inductive SendTo where
  | dev (l : Nat)
  | switch
deriving DecidableEq, Repr

/-- The checks of R322 and R331. -/
def sendTo (i : Iss) (n : Nat) : Option (Grp × SendTo) :=
  (tfind i.y.plan.groups (fld n 121 118)).bind fun g =>
    let peer := sF i.c n 117 113
    let slot := sF i.c n 112 108
    if g.nslot ≤ slot then none
    else if peer = 0xFFFFFFFF then (if predBit i.c.preds 6 && slot < g.nred then some (g, .switch) else none)
    else if peer < grpSize g then some (g, .dev (rankDev i.y.grid g.z i.y.l peer))
    else none

/-- A piece leaves: over the mesh on the same device, through port (l_s + l_d) mod 4, or to the leaf of plane group mod 4. -/
def sendPiece (s : State) (p : Nat) (i : Iss) (n id : Nat) (g : Grp) (t : SendTo) (bs : List Nat) (lost : Bool := false) : State :=
  let grp := fld n 121 118
  let slot := sF i.c n 112 108
  let key := grp * 65536 + slot
  let mark := fun (k : Nat) (s : State) => modJob s i.j fun y => { y with sent := y.sent ++ [(k, i.c.lidx * 2 ^ 40 + id)] }
  match t with
  | .dev d =>
    if d = i.y.l then landLocal s i.j grp g slot bs lost
    else
      let base : OutFr := { port := 0, type := 0, vc := fld n 102 101, id := id, dst := nth i.y.fas d, job := i.y.fabId, group := grp
                            slot := slot }
      (pieceFrames base bs).foldl (fun s f => portSend s (pairPort i.y.l d) f) (mark (d * 2 ^ 20 + key) s)
  | .switch =>
    let base : OutFr := { port := 0, type := 8, vc := 1, id := id, dst := 0xFFFF, job := i.y.fabId, group := grp, slot := slot }
    let s := modJob s i.j fun y => { y with redParts := tset y.redParts key (p, bs.length) }
    (pieceFrames base bs).foldl (fun s f => portSend s (grp % 4) f) (mark (2 ^ 60 + id) s)

/-- XSEND as a data instruction: its piece is the first S_BYTES bytes at the operand's base, whatever the planned extent. A run of bytes
that passes the end of the scratchpad is refused with SCRATCH_RANGE (DEDUCED, log 49: 03 R81 speaks of the planned extent only); the
hazard interval is the planned extent (03 R84). A piece for this device itself lands at once, and meets the errors of the merges of what it writes
(10 R236). -/
def xsendOp (ev : List AccEv) (s : State) (p : Nat) (i : Iss) (n : Nat) : DataOp :=
  let t := tdF i.c n 127 122
  let b := sF i.c n 107 103 % 2 ^ 32
  let dst := sendTo i n
  let id := s.ids + 1
  let mrg := match dst with
    | some (g, .dev d) => if d = i.y.l then landAcc g (sF i.c n 112 108) 0 b true else []
    | _ => []
  { chks := tdChk false t ++ [chk (t.space = 0 && 0x300000 < t.base + b) 0x104, chk dst.isNone 0x109]
    rd := tdScratchIv t
    wr := []
    units := [4]
    vrd := if t.space = 0 || b = 0 then [] else [(t.base, b)]
    mrg := mrg
    eff := effNone
    inf := fun f => { f with wait := 2, lat := [id] }
    post := fun s =>
      match dst with
      | some (g, d) =>
        sendPiece (freshId s).2 p i n id g d (rdBytes (rdI s p i t.space) t.base b) (ev.any fun e => evEnds e && evTouch s i.y [] mrg e)
      | none => s }

/-- XSEND (R322). -/
def execXsend (p : Nat) (w : IWord) (ev : List AccEv) (s : State) : Out := dataIssue .xsend anyForm s p w (xsendOp ev) ev

/-- XSEND_COMPLETE (R327): no frame of the piece waits for the replay buffer. -/
def execXsendComplete (p seq : Nat) (s : State) : Out :=
  match inflOf (spOf s p) seq with
  | some f =>
    guardNext (spClk s p && f.wait = 2 && (List.range 4).all fun pi => (portOf s pi).txq.all fun g => g.id != nth f.lat 0) .notEnabled (finish s p f)
  | none => .refused .notEnabled

end Sys2Proof.Machine
end

