-- ==== Sys2Proof/Machine/Ring.lean ====
section
/-! DEFINITION. Key-value rings (06 R164 to R168), their key lists (R158, R159) and copy-on-write of prefix pages (R175), as the
assists serve them. -/
namespace Sys2Proof.Machine

/-- Rows of the ring part (R164). -/
def ringNr (r : PlanRing) : Nat := 16384 * r.ringPages

/-- The pattern of a ring. -/
def ringPat (r : PlanRing) : Pattern := patDec r.pat

/-- The assist's state of a ring. -/
def ringOf (x : Job) (r : Nat) : RingSt := tget {} x.rings r

/-- The assist's state of a ring changed. -/
def modRing (s : State) (j r : Nat) (f : RingSt → RingSt) : State :=
  modJob s j fun x => { x with rings := tset x.rings r (f (ringOf x r)) }

/-- A word of a ring's control block written (Table ATN-2). -/
def ctlPut (s : State) (j : Nat) (r : PlanRing) (off v : Nat) : State := vaPutReq s j (r.ctl + off) (leBytes 4 (v % 2 ^ 32))

/-- A word of a ring's control block. -/
def ctlGet (s : State) (x : Job) (r : PlanRing) (off : Nat) : Nat := va32 s x (r.ctl + off)

/-- A word of a ring's control block raised. -/
def ctlAdd (s : State) (j : Nat) (r : PlanRing) (off v : Nat) : State :=
  match jobOf s j with
  | some x => ctlPut s j r off (ctlGet s x r off + v)
  | none => s

/-- A ring that its assist may serve: its job is on the device and not saved. -/
def ringAt (s : State) (j r : Nat) : Option (Job × PlanRing) :=
  match jobOf s j with
  | some x => if x.saved || !fwUp s then none else x.plan.rings[r]?.map fun p => (x, p)
  | none => none

/-- Can chunk HEAD open (R166): fewer than 8 chunks resident, and its rows fit? -/
def ringRoom (s : State) (x : Job) (r : PlanRing) : Bool :=
  let head := ctlGet s x r 0x10
  head - ctlGet s x r 0x14 < 8 && ctlGet s x r 0x18 + chunkLen (ringPat r) head ≤ ringNr r

/-- The job's ring page pool mapped to a ring that opens a chunk from empty (R168). -/
def ringMap (s : State) (j ri : Nat) (r : PlanRing) : State :=
  match jobOf s j with
  | none => s
  | some x =>
    let n := r.vpns.length
    if (ringOf x ri).pool.isEmpty && n ≤ x.ringPool.length then
      let pages := x.ringPool.take n
      modJob s j fun x =>
        { x with ringPool := x.ringPool.drop n, pt := (r.vpns.zip pages).foldl (fun t e => tset t e.1 e.2) x.pt
                 rings := tset x.rings ri { ringOf x ri with pool := pages } }
    else s

/-- The open of R166. -/
def ringOpen (s : State) (j ri : Nat) (r : PlanRing) : State :=
  let s := ringMap s j ri r
  match jobOf s j with
  | none => s
  | some x =>
    let c := ctlGet s x r 0x10
    let s := vaPutReq s j (r.ctl + 0x40 + 8 * (c % 8)) (leBytes 8 (c * 2 ^ 32 + chunkStart (ringPat r) (ringNr r) c))
    let s := ctlAdd s j r 0x18 (chunkLen (ringPat r) c)
    ctlAdd (ctlPut s j r 0x10 (c + 1)) j r 0x04 1

/-- One ADV served: beyond the last chunk it is RING_PROTOCOL; without room it is held. -/
def ringAdv (s : State) (j ri : Nat) (x : Job) (r : PlanRing) : State :=
  let s := modRing s j ri fun t => { t with adv := t.adv - 1 }
  if patChunks (ringPat r) ≤ ctlGet s x r 0x10 then jobFault s j 0x0506 0 r.ctl
  else if ringRoom s x r then ringOpen s j ri r
  else modJob (modRing s j ri fun t => { t with held := true }) j fun x => ctrAdd x .ringAdvHeld 1

/-- Does a ring have unit increases of ADV or REL that are not served? A program that zeroes the semaphore for its next request (07 R182)
asks for nothing and takes nothing back (DEDUCED from R166 and R168). -/
def ringDue (n : Nat) : Bool := 0 < n

/-- Does the pool hold the pages of a ring that opens from empty? -/
def ringPages (x : Job) (ri : Nat) (r : PlanRing) : Bool :=
  !(ringOf x ri).pool.isEmpty || r.vpns.length ≤ x.ringPool.length

/-- The words of a ring's control block (Table ATN-2). -/
def ctlAcc (r : PlanRing) : List (Nat × Nat) := [(r.ctl, 128)]

/-- What an assist does for job `j` with control words that must lie in dome-store scratch (R165, R172), where its accesses do not fail (09 R219) and
meet no error (09 R228). -/
def assistGo (s : State) (j : Nat) (x : Job) (ctl : List (Nat × Nat)) (ev : List AccEv) (go : State → State) : State :=
  match accTier s x [1] ctl ctl with
  | some b => badEnd s j 0 b
  | none => agentEv s j ev go id

/-- RING_ADV (R166). -/
def execRingAdv (j : Nat) (ri : Met Nat) (s : State) : Out :=
  match ringAt s j ri.val with
  | none => .refused .notEnabled
  | some (x, r) =>
    guardNext (!(ringOf x ri.val).held && ringDue (ringOf x ri.val).adv && ringPages x ri.val r && ri.ev.all (evTouch s x (ctlAcc r) [])) .notEnabled
      (assistGo s j x (ctlAcc r) ri.ev fun s => ringAdv s j ri.val x r)

/-- The ring is empty after its last chunk: its pages go back to the pool (R168). -/
def ringReset (s : State) (j ri : Nat) (r : PlanRing) : State :=
  let s := ctlPut (ctlPut (ctlPut s j r 0x10 0) j r 0x14 0) j r 0x18 0
  modJob s j fun x =>
    let t := ringOf x ri
    { x with ringPool := x.ringPool ++ t.pool, pt := if t.pool.isEmpty then x.pt else x.pt.filter fun e => !r.vpns.contains e.1
             rings := tset x.rings ri { t with pool := [], lists := 0 } }

/-- A held ADV tested again (R166). -/
def ringRetest (s : State) (j ri : Nat) (r : PlanRing) : State :=
  match jobOf s j with
  | none => s
  | some x =>
    if (ringOf x ri).held && ringRoom s x r && ringPages x ri r then
      ringOpen (modRing s j ri fun t => { t with held := false }) j ri r
    else s

/-- One REL served (R168). -/
def ringRel (s : State) (j ri : Nat) (x : Job) (r : PlanRing) : State :=
  let s := modRing s j ri fun t => { t with rel := t.rel - 1 }
  let tail := ctlGet s x r 0x14
  if tail = ctlGet s x r 0x10 then jobFault s j 0x0506 0 r.ctl
  else
    let s := ctlPut (ctlPut s j r 0x18 (ctlGet s x r 0x18 - chunkLen (ringPat r) tail)) j r 0x14 (tail + 1)
    let s := if tail + 1 = patChunks (ringPat r) then ringReset s j ri r else s
    ringRetest s j ri r

/-- RING_REL (R168). -/
def execRingRel (j : Nat) (ri : Met Nat) (s : State) : Out :=
  match ringAt s j ri.val with
  | none => .refused .notEnabled
  | some (x, r) =>
    guardNext (ringDue (ringOf x ri.val).rel && ri.ev.all (evTouch s x (ctlAcc r) [])) .notEnabled
      (assistGo s j x (ctlAcc r) ri.ev fun s => ringRel s j ri.val x r)

/-- Are the lists of the next chunk due (R167)? -/
def listsDue (s : State) (x : Job) (ri : Nat) (r : PlanRing) : Bool :=
  let p := ringPat r
  let c := (ringOf x ri).lists
  let n := patChunks p
  c < n && min (c + cdiv (p.wt - 1 - p.back) p.cf) (n - 1) < ctlGet s x r 0x10 && c < ctlGet s x r 0x14 + p.klc + 1

/-- The address of the list of tile `b` of chunk `c` (R167). -/
def listVa (p : Pattern) (c b : Nat) : Nat := p.klB * 256 + (c % (p.klc + 1) * patTpc p + b) * p.nkp * 4

/-- The global list of a pattern, read from job memory at each list generation (DESIGN CHOICE, log 52: R159 does not say when). -/
def globalList (s : State) (x : Job) (p : Pattern) : List Nat := (List.range p.g).map fun i => va32 s x (p.glB * 256 + 4 * i)

/-- The ranges that the generation of chunk `c` reads and writes: the global list, the lists of its tiles. -/
def listAcc (p : Pattern) (c : Nat) : List (Nat × Nat) × List (Nat × Nat) :=
  (if p.g = 0 then [] else [(p.glB * 256, 4 * p.g)], (List.range (patTpc p)).map fun b => (listVa p c b, 4 * p.nkp))

/-- The lists of the TPC tiles of chunk `c` (R158, a short last chunk included) written, LISTS raised, KEY_RANGE counted; a window key below
TAIL ends the job with RING_MISS. The assist's accesses are checked as every agent's are (09 R219). -/
def ringLists (s : State) (j ri : Nat) (x : Job) (r : PlanRing) : State :=
  let p := ringPat r
  let c := (ringOf x ri).lists
  let tail := ctlGet s x r 0x14
  let tiles := List.range (patTpc p)
  if tiles.any fun b => (windowKeys p (ringNr r) r.pfxRows c b).any fun k => k.1 < tail then jobFault s j 0x0505 0 r.ctl
  else
    match accAll s x (listAcc p c).1 (listAcc p c).2 with
    | some b => badEnd s j 0 b
    | none =>
    let gl := globalList s x p
    let s := tiles.foldl (fun s b =>
      vaPutReq s j (listVa p c b) ((keyList p (ringNr r) r.pfxRows c b gl).flatMap (leBytes 4))) s
    let s := modJob s j fun x => ctrAdd x .keyRange (tiles.length * globalsOut r.pfxRows gl)
    ctlAdd (modRing s j ri fun t => { t with lists := t.lists + 1 }) j r 0x08 1

/-- KEY_LIST_GENERATION (R167). It waits while a MARGIN holds a channel that it accesses (10 R251 item 5). -/
def execKeyListGeneration (j : Nat) (ri : Met Nat) (s : State) : Out :=
  match ringAt s j ri.val with
  | none => .refused .notEnabled
  | some (x, r) =>
    let a := listAcc (ringPat r) (ringOf x ri.val).lists
    guardNext (listsDue s x ri.val r && !((a.1 ++ a.2).any fun q => marginVa s x q.1 q.2)
        && ri.ev.all (evTouch s x (ctlAcc r ++ a.1) a.2)) .notEnabled
      (assistGo s j x (ctlAcc r) ri.ev fun s => ringLists s j ri.val x r)

/-! Copy-on-write (R175). -/

/-- The prefix entry of a shared virtual page of a job. -/
def pfxOf (x : Job) (vpn : Nat) : Option PlanPrefix :=
  if (tfind x.pt vpn).any (·.shr) then x.plan.prefixes.find? fun p => p.vpns.contains vpn else none

/-- Is a copy page of the class of a shared page: interleaved, or local to the same vault (09 R223)? -/
def sameTier (e n : Pte) : Bool := n.ilv == e.ilv && (e.ilv || n.pfn / 2048 = e.pfn / 2048)

/-- The 2 MiB of one page copied to another, granule by granule. -/
def copyPte (s : State) (a b : Pte) : State :=
  (List.range 512).foldl (fun t g => paPut t (ptePa s b (4096 * g)) (rdBytes (paByte s) (ptePa s a (4096 * g)) 4096)) s

/-- Does a write to a shared prefix page take a copy page: it has other holders, or is pinned? -/
def pfxCopies (s : State) (x : Job) (p : PlanPrefix) : Bool := 1 < (pfxGet s x p.entry).ref || 0 < (pfxGet s x p.entry).pin

/-- WRITE on a prefix page by the sequence that maps it at `vpn`. An entry that retires takes REF 0 with LIVE 0 (DESIGN CHOICE, log 52: R175
gives LIVE alone). -/
def prefixWrite (s : State) (j vpn : Nat) (x : Job) (p : PlanPrefix) (e : Pte) : State :=
  let w := pfxGet s x p.entry
  if pfxCopies s x p then
    match x.copies.find? (sameTier e) with
    | none => s
    | some n =>
      let s := copyPte s e n
      let s := modJob s j fun x => ctrAdd { x with copies := x.copies.erase n, pt := tset x.pt vpn { n with shr := false } } .cowCopies 1
      pfxPut s j p.entry { w with ref := w.ref - 1, copies := satAdd 32 w.copies 1 }
  else
    let s := modJob s j fun x => { x with pt := tset x.pt vpn { e with shr := false } }
    pfxPut s j p.entry { w with live := false, ref := 0 }

/-- What a WRITE on a prefix page reads: the entry, and the page that it copies. -/
def pfxAcc (s : State) (x : Job) (p : PlanPrefix) (vpn : Nat) : List (Nat × Nat) :=
  (p.entry, 16) :: if pfxCopies s x p then [(vpn * 2 ^ 21, 2 ^ 21)] else []

/-- PREFIX_WRITE (R173, R175): the write that waits on it issues afterwards. It waits while a MARGIN holds a channel of a page that it copies (10
R251 item 5). -/
def execPrefixWrite (j : Nat) (m : Met Nat) (s : State) : Out :=
  match jobOf s j with
  | none => .refused .notEnabled
  | some x =>
    match pfxOf x m.val, tfind x.pt m.val with
    | some p, some e =>
      let held := pfxCopies s x p
        && (marginVa s x (m.val * 2 ^ 21) (2 ^ 21) || (x.copies.find? (sameTier e)).any fun n => marginHolds s (ptePa s n 0) (2 ^ 21))
      guardNext (fwUp s && x.running.isSome && !x.saved && (!pfxCopies s x p || x.copies.any (sameTier e)) && !held
          && m.ev.all (evTouch s x (pfxAcc s x p m.val) [])) .notEnabled
        (assistGo s j x [(p.entry, 16)] m.ev fun s => prefixWrite s j m.val x p e)
    | _, _ => .refused .notEnabled

end Sys2Proof.Machine
end

