-- ==== Sys2Proof/Machine/Image.lean ====
section
/-! DEFINITION. Program images (04 R102, R130; 05 R146; 16 R368; 17 R385). -/
namespace Sys2Proof.Machine

/-! Seals (17 R385). -/

/-- Bytes of a seal: marker, body length, key, signature. -/
def sealSize : Nat := 8 + 8 + 64 + 29792

/-- The seal that an image ends in, by its marker. -/
def sealOf (bs : List Nat) : Option (List Nat) :=
  let t := bs.drop (bs.length - sealSize)
  if sealSize ≤ bs.length && ofLe (t.take 8) = 0x5345414C00000001 then some t else none

/-- The body of an image as received. -/
def bodyOf (bs : List Nat) : List Nat :=
  match sealOf bs with
  | some _ => bs.take (bs.length - sealSize)
  | none => bs

/-- The digest of an image body (R385). -/
def imgDigest (bs : List Nat) : List Nat := Config.shake256 (bodyOf bs) 64

/-- Does a seal verify: its BODY_LEN, and its signature over the body digest with context "ubh-image"? -/
def sealOk (bs t : List Nat) : Bool :=
  ofLe ((t.drop 8).take 8) = (bodyOf bs).length
  && Config.slhVerify .shake256s ((t.drop 16).take 64) ([0, 9] ++ strBytes "ubh-image" ++ imgDigest bs) (t.drop 80)

/-- The seal check of R385: false where a seal is present and fails. -/
def sealPass (bs : List Nat) : Bool := (sealOf bs).all (sealOk bs)

/-- The signer digest: SHAKE256 of the seal's key, or zero. -/
def signerOf (bs : List Nat) : List Nat :=
  match sealOf bs with
  | some t => Config.shake256 ((t.drop 16).take 64) 64
  | none => List.replicate 64 0

/-! The static checks of Table TIS-4 (04 R102). -/

/-- The first word of a program that a check refuses: logical spire and word index. -/
def firstWord (p : Plan) (bad : Nat → Nat → Nat → Bool) : Option (Nat × Nat) :=
  ((p.progs.mapIdx fun l ws => (ws.mapIdx fun i w => (bad l i w, l, i)).filter (·.1)).flatten.head?).map (·.2)

/-- A planned ATTN key count above its limit (R113). -/
def attnLong (w : Nat) : Bool := isOp .attn w && (if bitOf w 91 then 8192 else 4096) < psize w 86 81

/-- A piece-stream MMA (14 R328). -/
def isPstr (w : Nat) : Bool := isOp .mma w && bitOf w 66

/-- A word too long for a pre-emptible image (R130). -/
def grainBad (p : Plan) (compat : Bool) (l i w : Nat) : Bool := p.preempt && (4096 < tabTime compat (tget [] (tget [] p.decls l) i) w || isPstr w)

/-- Has a quantised tensor a fall-back variant for each of its consumers, and a shadow of twice its A8 code size in pages that the plan
reserves (02 R58)? -/
def quantOk (p : Plan) (q : PlanQuant) : Bool :=
  (q.consumers.all fun c => q.variants.any fun v => v.1 = c) && 2 * q.codes ≤ q.shadowBytes
  && (pieces (2 ^ 21) q.shadow q.shadowBytes).all fun r => p.pages.any fun e => e.vpn = r.1 / 2 ^ 21

/-- Does the plan lack a fall-back variant or a shadow (02 R58), or the variant of a SWRED group (14 R332)? -/
def noFallback (p : Plan) : Bool :=
  !p.quants.all (quantOk p) || p.groups.any fun g => g.2.swred && !p.swVariants.contains g.1

/-- The first failing check of an image: status and STATUS_PARAM (logical spire, word index). A user table gives STATUS_PARAM 0, and one
that is illegal comes before one that is not monotone, whichever stands first (DESIGN CHOICE, log 59). -/
def loadCheck (p : Plan) : Option (Nat × Nat) :=
  let at_ := fun (st : Nat) (r : Option (Nat × Nat)) => r.map fun q => (st, q.1 % 256 + q.2 % 2048 * 256)
  (if p.progs.length != planLsps p then some (0x209, 0) else none)
  <|> at_ 0x200 (firstWord p fun _ i _ => i = 2048)
  <|> at_ 0x100 (firstWord p fun _ _ w => !wordLegal w)
  <|> at_ 0x201 ((p.progs.mapIdx fun l ws => (l, ws)).find? (fun q => !controlOk q.2) |>.map fun q => (q.1, controlFail q.2))
  <|> at_ 0x106 (firstWord p fun _ _ w => attnLong w)
  <|> at_ 0x202 (firstWord p (grainBad p false))
  <|> (if noFallback p then some (0x203, 0) else none)
  <|> (if p.utabs.any (fun u => utIllegal u.2) then some (0x204, 0) else none)
  <|> (if p.utabs.any (fun u => utNotMono u.2) then some (0x205, 0) else none)

/-! Handles. -/

/-- The lowest handle at or above 1 that is not in use. -/
def lowHandle {α : Type} (t : Tbl α) : Nat :=
  (((List.range (t.length + 1)).map (· + 1)).find? fun h => (tfind t h).isNone).getD 0

/-- PROGRAM_LOAD's body: limits, seal, structure, static checks; the image is held under a new handle. -/
def programLoadBody (s : State) (r : CmdRef) (w : Nat) : State :=
  let len := fld w 447 416
  if 32 ≤ (s.images.filter fun i => i.2.fn = r.fn).length || 2 ^ 24 < len || 2 ^ 28 < sumN (s.images.map fun i => i.2.len) + len then
    complete s r 0x207 0 0
  else
    let bs := hostRead s (fld w 511 448) len
    if !sealPass bs then complete s r 0x206 0 0
    else
      match Config.parseImage (bodyOf bs) with
      | none => complete s r 0x209 0 0
      | some raw =>
        let p := planOf raw
        match (if rawBad raw then some (0x209, 0) else none) <|> loadCheck p with
        | some (st, param) => complete s r st param 0
        | none =>
          let h := nextHandle 32 s.imgSeq (s.images.map (·.1))
          let i : Image := { fn := r.fn, len := len, digest := imgDigest bs, signer := signerOf bs, plan := p }
          complete { s with images := tset s.images h i, imgSeq := h + 1 } r 0 0 h

/-- PROGRAM_LOAD (04 R102, 16 R368). -/
def execProgramLoad (f q : Nat) (e : Entry) (s : State) : Out :=
  hostExec 0x05 s f q e true 0 false noResv programLoadBody

/-- PROGRAM_UNLOAD's body. -/
def programUnloadBody (s : State) (r : CmdRef) (w : Nat) : State :=
  let h := fld w 447 416
  match tfind s.images h with
  | none => complete s r 0x804 0 0
  | some i =>
    if i.fn != r.fn then complete s r 0x803 0 0
    else if s.jobs.any fun j => j.2.img = h then complete s r 0x208 0 0
    else complete { s with images := tdel s.images h } r 0 0 0

/-- PROGRAM_UNLOAD (16 R368). -/
def execProgramUnload (f q : Nat) (e : Entry) (s : State) : Out :=
  hostExec 0x06 s f q e true 0 false noResv programUnloadBody

end Sys2Proof.Machine
end

