-- ==== Sys2Proof/Machine/Alloc.lean ====
section
/-! DEFINITION. Placement and reservation (01 R21 to R24; 09 R217, R220, R223 to R227; 13 R287, R302). Which free unit is taken
changes time only (R22); this model takes the lowest (log 15). -/
namespace Sys2Proof.Machine

/-! Cupolas (01 R24, 13 R287). -/

/-- Cupolas that no job reserves, in service. -/
def freeCups (s : State) : List Nat := (List.range 32).filter fun c => cupUp s c && !s.jobs.any fun k => k.2.cups.contains c

/-- Do two lists name the same set of cupolas? -/
def sameSet (a b : List Nat) : Bool := a.all b.contains && b.all a.contains

/-- The group on exactly a set of cupolas. -/
def groupOn (s : State) (cups : List Nat) : Option (Nat × CoGrp) := s.groups.find? fun g => sameSet g.2.cups cups

/-- May a job join a group (R287): at most four jobs, at most one LC, every image pre-emptible? -/
def mayJoin (s : State) (g : CoGrp) (lc : Bool) (p : Plan) : Bool :=
  let js := g.jobs.filterMap (jobOf s)
  js.length < 4 && p.preempt && js.all (·.plan.preempt) && !(lc && js.any (·.lc))

/-- The reserved set given to logical cupolas (R24): those of 8 members first, on cupolas of 8 enabled spires; then the others in
order. The answer lists the physical cupola of each logical cupola, then the rest of the set. -/
def assignCups (s : State) (members set : List Nat) : List Nat :=
  let idx := List.range members.length
  let eights := set.filter fun c => (enabledIn s c).length = 8
  let big := idx.filter fun i => nth members i = 8
  let first := big.zip eights
  let restIdx := idx.filter fun i => !first.any fun q => q.1 = i
  let restSet := set.filter fun c => !first.any fun q => q.2 = c
  let all := first ++ restIdx.zip restSet
  (idx.filterMap fun i => (all.find? fun q => q.1 = i).map (·.2)) ++ restSet.drop restIdx.length

/-- The cupolas of a new job: the group it joins, or the set its reservation names while that is free, or the lowest free ones. -/
def chooseCups (s : State) (lc : Bool) (p : Plan) : Option (List Nat × Option Nat) :=
  let n := p.members.length
  let free := freeCups s
  let lowest := if n ≤ free.length then some (assignCups s p.members (free.take n), none) else none
  match p.cups with
  | none => lowest
  | some cs =>
    match groupOn s cs with
    | some (g, x) => if mayJoin s x lc p then some (assignCups s p.members x.cups, some g) else lowest
    | none => if cs.all free.contains then some (assignCups s p.members cs, none) else lowest

/-- The physical spire of every logical spire (R21, R24). -/
def placeSpires (s : State) (p : Plan) (cups : List Nat) : List Nat :=
  (List.range (planLsps p)).map fun l =>
    let q := lspPos p l
    let en := enabledIn s (nth cups q.1)
    if q.2 < en.length then nth en q.2 else nth en (q.2 - en.length)

/-- Does a placement carry a logical spire as the second of two? -/
def carriesTwo (place : List Nat) : Bool := place.eraseDups.length < place.length

/-! Semaphores (R223: one contiguous range of 256 per cupola). -/

/-- The lowest base of `n` free cupola semaphores. -/
def semBaseOf (s : State) (cup n : Nat) : Option Nat :=
  let used := s.jobs.flatMap fun k => ((k.2.cups.mapIdx fun c ph => (ph, nth k.2.semBase c, nth k.2.plan.sems c)).filter fun r =>
    r.1 = cup && r.2.2 != 0).map (·.2)
  (List.range (257 - n)).find? fun b => used.all fun u => b + n ≤ u.1 || u.1 + u.2 ≤ b

/-- Bases for every logical cupola; nothing when one is short. -/
def semBases (s : State) (p : Plan) (cups : List Nat) : Option (List Nat) :=
  (List.range p.members.length).mapM fun c =>
    if 256 < nth p.sems c then none else if nth p.sems c = 0 then some 0 else semBaseOf s (nth cups c) (nth p.sems c)

/-! Dome store (R220, R223). -/

/-- Do ways [a, a+n) and [b, b+m) overlap? -/
def waysMeet (a n b m : Nat) : Bool := a < b + m && b < a + n && 0 < n && 0 < m

/-- The cache ways that jobs hold in a slice. -/
def cacheWays (s : State) (sl : Nat) : List (Nat × Nat) :=
  s.jobs.flatMap fun k => (k.2.ways.filter fun w => w.1 = sl).map (·.2)

/-- Jobs that hold scratch page `n` (slice × 4 + page). -/
def dspHolders (s : State) (n : Nat) : List Job := (s.jobs.filter fun k => k.2.dsp.contains n).map (·.2)

/-- Scratch pages of a slice that a job of a class may take: free ones first, then those of the other class that are yieldable
(R287). -/
def dspFree (s : State) (lc : Bool) (sl : Nat) : List Nat :=
  let ok := (List.range 4).filter fun p => (cacheWays s sl).all fun w => !waysMeet (4 * p) 4 w.1 w.2
  let pages := ok.map fun p => sl * 4 + p
  (pages.filter fun n => (dspHolders s n).isEmpty)
    ++ pages.filter fun n => !(dspHolders s n).isEmpty && (dspHolders s n).length = 1 && (dspHolders s n).all fun k => k.lc != lc

/-- A run of `n` cache ways in a slice beside scratch pages `mine`. -/
def waysFree (s : State) (sl n : Nat) (mine : List Nat) : Option Nat :=
  let scr := (List.range 4).filter fun p => mine.contains (sl * 4 + p) || !(dspHolders s (sl * 4 + p)).isEmpty
  (List.range (17 - n)).find? fun a =>
    (scr.all fun p => !waysMeet (4 * p) 4 a n) && (cacheWays s sl).all fun w => !waysMeet a n w.1 w.2

/-- Scratch pages and cache ways for every logical cupola. -/
def domeReserve (s : State) (lc : Bool) (p : Plan) (cups : List Nat) : Option (List Nat × List (Nat × Nat × Nat)) :=
  (List.range p.members.length).foldl (fun (acc : Option (List Nat × List (Nat × Nat × Nat))) c =>
    acc.bind fun a =>
      let sl := nth cups c
      let free := dspFree s lc sl
      let n := nth p.dspages c
      if free.length < n then none
      else
        let mine := free.take n
        if nth p.dscways c = 0 then some (a.1 ++ mine, a.2)
        else (waysFree s sl (nth p.dscways c) mine).map fun w => (a.1 ++ mine, a.2 ++ [(sl, w, nth p.dscways c)])) (some ([], []))

/-- The value of a partition register (Table MEM-4). -/
def partBits (h spages : Nat) (w : Nat × Nat) : Nat := h * 2 ^ 32 + 2 ^ 31 + spages * 2 ^ 12 + w.2 * 16 + w.1

/-- The ways a partition register claims: scratch pages, cache ways. -/
def partWays (v : Nat) : List (Nat × Nat) :=
  ((List.range 4).filter fun p => bitOf v (12 + p)).map (fun p => (4 * p, 4)) ++ [(fld v 3 0, fld v 8 4)]

/-- Does a write conflict (R220): past way 15; or, of an enabled partition, within itself or with another? -/
def partConflict (s : State) (sl n v : Nat) : Bool :=
  let mine := partWays v
  let self := (mine.mapIdx fun i w => (mine.drop (i + 1)).any fun u => waysMeet w.1 w.2 u.1 u.2).any id
  16 < fld v 3 0 + fld v 8 4 || bitOf v 31 && (self
    || (List.range 8).any fun m => m != n && bitOf (tget 0 s.dsPart (sl * 8 + m)) 31
        && (partWays (tget 0 s.dsPart (sl * 8 + m))).any fun w => mine.any fun u => waysMeet w.1 w.2 u.1 u.2)

/-- A write of DS_PARTn of a slice: a conflicting one is discarded and sets DS_STATUS.CONFLICT. -/
def partWrite (s : State) (sl n v : Nat) : State :=
  if partConflict s sl n v then { s with slices := tset s.slices sl { tget {} s.slices sl with conflict := true } }
  else { s with dsPart := tset s.dsPart (sl * 8 + n) v }

/-- The partition register of a job in a slice written: the scratch pages that are not away, and its cache ways. -/
def jobPartWrite (s : State) (j sl : Nat) : State :=
  match jobOf s j with
  | none => s
  | some x =>
    let pages := x.dsp.filter fun n => n / 4 = sl && !x.away.contains n
    let w := ((x.ways.find? fun w => w.1 = sl).map (·.2)).getD (0, 0)
    if pages.isEmpty && w.2 = 0 then s
    else
      match (List.range 8).find? fun n => !bitOf (tget 0 s.dsPart (sl * 8 + n)) 31 with
      | some n => partWrite s sl n (partBits (jobHandle s j) (sumN (pages.map fun n => 2 ^ (n % 4))) w)
      | none => s

/-- The partition registers of a group's jobs rewritten (13 R294 step 3). -/
def partsWrite (s : State) (g : CoGrp) : State :=
  let mine := fun (v : Nat) => g.jobs.any fun j => fld v 47 32 = jobHandle s j
  let s := { s with dsPart := s.dsPart.filter fun r => !(g.cups.contains (r.1 / 8) && mine r.2) }
  g.cups.foldl (fun s sl => g.jobs.foldl (fun s j => jobPartWrite s j sl) s) s

/-! Vault pages and frames (R217, R218, R223, R224; 13 R302). -/

/-- Frames held by jobs and hot-set entries. -/
def framesUsed (s : State) : List Nat := s.jobs.flatMap (·.2.frames) ++ s.models.flatMap (·.2.frames)

/-- Vault-local pages held by jobs, as v × 2,048 + q. -/
def vpagesUsed (s : State) : List Nat := s.jobs.flatMap (·.2.vpages)

/-- Free vault-local pages of a vault, ascending. -/
def vpagesFree (s : State) (v : Nat) : List Nat :=
  let used := vpagesUsed s
  let fr := if inIlv s v then framesUsed s else []
  (List.range 2032).filter fun q => pageUp s v q && !used.contains (v * 2048 + q) && !fr.contains q

/-- Free frames, descending. -/
def framesFree (s : State) (taken : List Nat) : List Nat :=
  let used := (vpagesUsed s ++ taken).filter fun n => inIlv s (n / 2048)
  let fr := framesUsed s
  (List.range 2032).reverse.filter fun q => frameUp s q && !fr.contains q && !used.any fun n => n % 2048 = q

/-- Slots of a frame (R217, R218). -/
def frameSlots (s : State) : Nat := ((ilvSet s).map (·.2)).getD 32

/-- Frames for a VFRAMES count of 64 MiB each. -/
def framesFor (s : State) (n : Nat) : Nat := n * (32 / frameSlots s)

/-- The RESIDENT entry that is evicted next: no uses, lowest age, then lower handle (R302). -/
def modelVictim (s : State) : Option Nat :=
  ((s.models.filter fun m => m.2.st = .resident && m.2.uses = 0).foldl (fun (b : Option (Nat × Model)) m => match b with
    | some v => if m.2.age < v.2.age then some m else some v
    | none => some m) none).map (·.1)

/-- An entry goes to EVICTING. -/
def modelEvicting (s : State) (h : Nat) : State :=
  { s with models := s.models.map fun m => if m.1 = h then (m.1, { m.2 with st := .evicting }) else m }

/-- Entries evicted, through EVICTING (13 Table SCH-5), until `n` frames are free beside `taken`; the frames, or nothing. Fuel bounds the entries. -/
def framesClaim (taken : List Nat) (n : Nat) : Nat → State → State × Option (List Nat)
  | 0, s => (s, none)
  | fuel + 1, s =>
    let free := framesFree s taken
    if n ≤ free.length then (s, some (free.take n))
    else
      match modelVictim s with
      | some h => framesClaim taken n fuel (dropModel (modelEvicting s h) h)
      | none => (s, none)

/-- Spill pages of a logical cupola (R224). -/
def spillPages (s : State) (p : Plan) (cups : List Nat) (c : Nat) : Nat :=
  let m := nth p.members c
  let e := (enabledIn s (nth cups c)).length
  cdiv ((if p.preempt then m else m - e) * spillBytes p) (2 ^ 21)

/-- Backing pages of a logical cupola (R223). -/
def backPages (p : Plan) (c : Nat) : Nat := if p.preempt then nth p.dspages c else 0

/-- Copy pages of a logical cupola (R175, R223), or of the interleave frames: one per shared mapping, in the prefix page's tier. -/
def copyPages (p : Plan) (c : Nat) : Nat := sumN ((p.prefixes.filter fun x => x.lcup = c).map (·.vpns.length))

/-- Interleave frames of a job: the plan's, and those of its interleaved copy pages. -/
def jobFrames (s : State) (p : Plan) : Nat :=
  framesFor s p.vframes + cdiv (sumN ((p.prefixes.filter fun x => 32 ≤ x.lcup).map (·.vpns.length))) (frameSlots s)

/-- The vault-local pages of every logical cupola: the plan's, its copy pages, spill and backing pages; nothing when a vault is
short. -/
def vaultReserve (s : State) (p : Plan) (cups : List Nat) : Option (List (List Nat)) :=
  (List.range p.members.length).mapM fun c =>
    let n := nth p.vlocal c + copyPages p c + spillPages s p cups c + backPages p c
    let free := vpagesFree s (nth cups c)
    if n ≤ free.length then some ((free.take n).map fun q => nth cups c * 2048 + q) else none

/-! Far memory and the shared pool (R225 to R227). -/

/-- Far-memory pages held by jobs and by units of the pool. -/
def farUsed (s : State) : List Nat := s.jobs.flatMap (fun k => k.2.far) ++ s.pool.flatMap (fun u => u.2.pages)

/-- Far-memory pages by their page number PA / 2 MiB. -/
def farAll (s : State) : List Nat := (List.range (farSize s / 2 ^ 21)).map (0x010000000000 / 2 ^ 21 + ·)

/-- Free far-memory pages, ascending. -/
def farFree (s : State) : List Nat := let u := farUsed s; (farAll s).filter fun n => !u.contains n

/-- The unit evicted next: unpinned, lowest age, then lower identifier (R226). -/
def poolVictim (s : State) : Option (Nat × PUnit) :=
  (s.pool.filter fun u => u.2.pins = 0).foldl (fun (b : Option (Nat × PUnit)) u => match b with
    | some v => if u.2.age < v.2.age then some u else some v
    | none => some u) none

/-- A unit leaves the pool: an overflow set is unmapped from its job. -/
def poolDrop (s : State) (u : Nat × PUnit) : State :=
  let s := { s with pool := tdel s.pool u.1 }
  if u.2.kind = 0 then s
  else modJob (u.2.pages.foldl (farNewOwner bootKeySlot) s) u.2.owner fun x =>
    let vpns := (x.plan.ovfs[u.2.set]?.map (·.vpns)).getD []
    { x with ovf := tdel x.ovf u.2.set, pt := x.pt.filter fun e => !vpns.contains e.1 }

/-- `n` far-memory pages, evicting units of the pool as needed. Fuel bounds the units. -/
def farClaim (n : Nat) : Nat → State → State × Option (List Nat)
  | 0, s => (s, none)
  | fuel + 1, s =>
    let free := farFree s
    if n ≤ free.length then (s, some (free.take n))
    else
      match poolVictim s with
      | some u => farClaim n fuel (poolDrop s u)
      | none => (s, none)

/-- `n` far-memory pages. -/
def farTake (s : State) (n : Nat) : State × Option (List Nat) := farClaim n (s.pool.length + 1) s

/-- The lowest unused unit identifier of the pool. -/
def poolId (s : State) : Nat := lowHandle s.pool

/-! Page tables (R216, R223). -/

/-- The entry of a vault-local page. -/
def vaultPte (n : Nat) : Pte := { tier := 0, pfn := vaultPa n / 2 ^ 21 }
/-- The entry of a scratch page. -/
def scratchPte (n : Nat) : Pte := { tier := 1, pfn := scratchPa (n / 4) (n % 4) / 2 ^ 21 }
/-- The entry of a far-memory page. -/
def farPte (n : Nat) : Pte := { tier := 2, pfn := n }
/-- The entry of the k-th page of a list of frames with `slots` slots each. -/
def framePte (frames : List Nat) (slots k : Nat) : Pte := { tier := 0, ilv := true, slot := k % slots, pfn := nth frames (k / slots) }

/-- The entries of plan pages of one kind, in the plan's order. -/
def zipPages (vpns : List Nat) (es : List Pte) : Tbl Pte := vpns.zip es

/-- The plan's pages of a tier, and of a logical cupola where the tier has one. -/
def planVpns (p : Plan) (t : Tier) (c : Option Nat) : List Nat :=
  (p.pages.filter fun g => g.tier = t && c.all (· = g.lcup)).map (·.vpn)

/-- What a reservation grants. -/
structure Grant where
  pt : Tbl Pte
  vpages : List Nat
  ringPool : List Pte
  freed : List Pte
  copies : List Pte
  spills : List (List Nat)
  backs : List Nat
deriving DecidableEq, Repr

/-- The page table and pools from what was reserved: vault pages per logical cupola (the plan's pages, then its ring pool pages, its
prefix pages; past VLOCAL its copy pages, its spill pages, its backing pages), frames, scratch pages, far pages. -/
def grantPages (s : State) (p : Plan) (vps : List (List Nat)) (frames dsp far : List Nat) (cups : List Nat) : Grant :=
  let n := p.members.length
  let slots := frameSlots s
  let plan := fun (c : Nat) => planVpns p .vault (some c)
  let pools := fun (c : Nat) => (p.poolPages.filter (· = c)).length
  let at_ := fun (c i : Nat) => vaultPte (nth (vps.getD c []) i)
  let fv := planVpns p .frame none
  let nth_ := fun (l : List Nat) (i : Nat) => (l.take i).filter (· = nth l i) |>.length
  let ilvs := fun (l : List Nat) (i : Nat) => (l.take i).filter (32 ≤ ·) |>.length
  let cs := p.prefixes.map (·.lcup)
  { pt := (((List.range n).flatMap fun c => zipPages (plan c) ((vps.getD c []).map vaultPte))
        ++ zipPages fv ((List.range fv.length).map (framePte frames slots))
        ++ ((List.range n).flatMap fun c =>
              zipPages (planVpns p .dome (some c)) ((dsp.filter fun d => d / 4 = nth cups c).map scratchPte))
        ++ zipPages (planVpns p .far none) (far.map farPte)).foldl (fun t e => tset t e.1 e.2) []
    vpages := vps.flatten
    ringPool := (List.range p.poolPages.length).map fun i =>
      let c := nth p.poolPages i
      if c < 32 then at_ c ((plan c).length + nth_ p.poolPages i)
      else framePte frames slots (fv.length + ilvs p.poolPages i)
    freed := (List.range p.prefixes.length).map fun i =>
      if nth cs i < 32 then at_ (nth cs i) ((plan (nth cs i)).length + pools (nth cs i) + nth_ cs i)
      else framePte frames slots (fv.length + (p.poolPages.filter (32 ≤ ·)).length + ilvs cs i)
    copies := ((List.range n).flatMap fun c => (List.range (copyPages p c)).map fun k => at_ c (nth p.vlocal c + k))
      ++ (List.range (sumN ((p.prefixes.filter fun x => 32 ≤ x.lcup).map (·.vpns.length)))).map fun k =>
          framePte frames slots (framesFor s p.vframes * slots + k)
    spills := (List.range n).map fun c => ((vps.getD c []).drop (nth p.vlocal c + copyPages p c)).take (spillPages s p cups c)
    backs := (List.range n).flatMap fun c => (vps.getD c []).drop (nth p.vlocal c + copyPages p c + spillPages s p cups c) }

/-- The address map names no more pages of a kind than the record reserves (R223), within the ranges of Table MEM-5. -/
def mapFits (p : Plan) : Bool :=
  let n := p.members.length
  p.pages.all (fun g => g.vpn < 2 ^ 27 && (g.tier = .frame || g.tier = .far || g.lcup < n))
  && ((List.range n).all fun c =>
        (planVpns p .vault (some c)).length + (p.poolPages.filter (· = c)).length + (p.prefixes.filter fun x => x.lcup = c).length
          ≤ nth p.vlocal c
        && (planVpns p .dome (some c)).length ≤ nth p.dspages c && nth p.dspages c ≤ 4
        && nth p.dscways c + 4 * nth p.dspages c ≤ 16 && nth p.sems c ≤ 256)
  && p.poolPages.all (fun c => c < n || 32 ≤ c) && p.prefixes.all (fun x => x.lcup < n || 32 ≤ x.lcup)
  && (planVpns p .frame none).length + (p.poolPages.filter (32 ≤ ·)).length + (p.prefixes.filter fun x => 32 ≤ x.lcup).length
    ≤ 32 * p.vframes
  && (planVpns p .far none).length ≤ p.farPages && p.ovfs.length ≤ 64

end Sys2Proof.Machine
end

