-- ==== Sys2Proof/Machine/Models.lean ====
section
/-! DEFINITION. The model hot set and its cache in the shared pool (09 R226; 13 R301 to R303; 16 Table HST-9; 17 R385). A handle
names a model's hot-set entry and its cached copy alike (log 28). -/
namespace Sys2Proof.Machine

/-- A MARGIN in progress holds dispatch, admissions, releases and loads (10 R251). -/
def noMargin (s : State) : Bool := s.glb.margin.isNone

/-- Handles in use by entries and by cached copies. -/
def modelHandles (s : State) : List Nat := s.models.map (·.1) ++ (s.pool.filter fun u => u.2.kind = 0).map (·.2.owner)

/-- The lowest unused model handle. -/
def modelHandle (s : State) : Nat :=
  let u := modelHandles s
  (((List.range (u.length + 1)).map (· + 1)).find? fun h => !u.contains h).getD 0

/-- Frames for a model image of `size` bytes. -/
def modelFrames (s : State) (size : Nat) : Nat := cdiv size (frameSlots s * 2 ^ 21)

/-- Frames claimed for a load; nothing when they stay short or there is no interleave set. -/
def framesTake (s : State) (taken : List Nat) (n : Nat) : State × Option (List Nat) :=
  if (ilvSet s).isNone then (s, none) else framesClaim taken n (s.models.length + 1) s

/-- A load starts: frames are held, and with CACHE a unit of the pool (R301, R302); false when there is no space. -/
def loadStart (s : State) (h fn size src addr : Nat) (cache : Bool) (pins : Nat) (ws : List CmdRef) : State × Bool :=
  match framesTake s [] (modelFrames s size) with
  | (s, none) => (s, false)
  | (s, some fr) =>
    let m : Model := { fn := fn, st := .loading, size := size, frames := fr, pins := pins, src := src, srcAddr := addr, cache := cache
                       waits := ws }
    let s := { s with models := tset s.models h m }
    if src = 0 then (cachePin s h true, true)
    else if !cache then (s, true)
    else
      match farTake s (cdiv size (2 ^ 21)) with
      | (s, none) => (fr.foldl zeroFrame { s with models := tdel s.models h }, false)
      | (s, some ps) =>
        let u : PUnit := { fn := fn, kind := 0, owner := h, set := 0, pages := ps, pins := 1, size := size }
        (ps.foldl (farNewOwner bootKeySlot) { s with pool := tset s.pool (poolId s) u }, true)

/-- MODEL_LOAD's body. -/
def modelLoadBody (s : State) (r : CmdRef) (w : Nat) : State :=
  let start := fun (h fn size src addr : Nat) (cache : Bool) =>
    match loadStart s h fn size src addr cache 0 [r] with
    | (s, true) => s
    | (s, false) => complete s r 0x0601 0 0
  if !bitOf w 8 then
    if fld w 447 384 = 0 then complete s r 0x0801 0 0 else start (modelHandle s) r.fn (fld w 447 384) 1 (fld w 511 448) (bitOf w 9)
  else if s.farFenced then complete s r 0x0300 5 0
  else
    let h := fld w 383 352
    match tfind s.models h, cachedOf s h with
    | some m, some _ =>
      if m.fn != r.fn then complete s r 0x0803 0 0
      else if m.st = .loading then { s with models := tset s.models h { m with waits := m.waits ++ [r] } }
      else complete s r 0 0 h
    | some m, none => complete s r (if m.fn != r.fn then 0x0803 else 0x0606) 0 0
    | none, some u => if u.2.fn != r.fn then complete s r 0x0803 0 0 else start h r.fn u.2.size 0 0 false
    | none, none => complete s r 0x0606 0 0

/-- The head of a job's queue held on the load of a model (13 R301). -/
def heldHead (x : Job) (h : Nat) : Option Req := if x.models.contains h then x.queue.head?.filter (·.waited) else none

/-- Requests that wait for a load that is abandoned end (13 Table SCH-6): at the head of a queue, or saved with their restore held. -/
def heldEnd (s : State) (h st : Nat) : State :=
  (s.jobs.map (·.1)).foldl (fun s j =>
    match jobOf s j with
    | some x =>
      match heldHead x h, (if x.saved && x.models.contains h then x.running.filter (·.waited) else none) with
      | some q, none => queuedEnd s j x q st 0
      | _, some r => stopEnd s j x r st 0 id none
      | none, none => s
    | none => s) s

/-- Does a load name an entry that is EVICTING: it is held until the eviction ends (Table SCH-6)? -/
def loadHeld (s : State) (w : Nat) : Bool := bitOf w 8 && (tfind s.models (fld w 383 352)).any fun m => m.st = .evicting

/-- The model of a handle for a function. -/
def withModel (s : State) (r : CmdRef) (h : Nat) (body : Model → State) : State :=
  match tfind s.models h with
  | none => complete s r 0x0804 0 0
  | some m => if m.fn != r.fn then complete s r 0x0803 0 0 else body m

/-- One pin more (Tables SCH-5, SCH-6). -/
def modelPin1 (s : State) (h : Nat) : State :=
  match tfind s.models h with
  | none => s
  | some m => { s with models := tset s.models h { m with pins := m.pins + 1, st := if m.st = .resident then .pinned else m.st } }

/-- MODEL_PIN's body. -/
def modelPinBody (s : State) (r : CmdRef) (w : Nat) : State :=
  withModel s r (fld w 383 352) fun m =>
    if m.st = .evicting then complete s r 0x0604 0 0 else complete (modelPin1 s (fld w 383 352)) r 0 0 0

/-- MODEL_PIN (13 R301). -/
def execModelPin (f q : Nat) (e : Entry) (s : State) : Out := hostExec 0x0B s f q e true 0 false noResv modelPinBody

/-- MODEL_UNPIN's body. -/
def modelUnpinBody (s : State) (r : CmdRef) (w : Nat) : State :=
  withModel s r (fld w 383 352) fun m =>
    if m.pins = 0 then complete s r 0x0801 0 0 else complete (modelUnpin1 s (fld w 383 352)) r 0 0 0

/-- MODEL_UNPIN (13 R301). -/
def execModelUnpin (f q : Nat) (e : Entry) (s : State) : Out := hostExec 0x0C s f q e true 0 false noResv modelUnpinBody

/-- MODEL_EVICT's body (Table SCH-6): a load without pins is abandoned, whatever its USES. -/
def modelEvictBody (s : State) (r : CmdRef) (w : Nat) : State :=
  let h := fld w 383 352
  withModel s r h fun m =>
    if m.st = .evicting then complete s r 0x0604 0 0
    else if 0 < m.pins then complete s r 0x0602 0 0
    else if m.st = .loading then complete (modelEvicting (heldEnd (modelWaitsEnd (loadUnhold s h) h 0x0604) h 0x0604) h) r 0 0 0
    else if 0 < m.uses then complete s r 0x0603 0 0
    else complete (modelEvicting s h) r 0 0 0

/-- MODEL_EVICT (13 R303). -/
def execModelEvict (f q : Nat) (e : Entry) (s : State) : Out := hostExec 0x0D s f q e true 0 false noResv modelEvictBody

/-- A model image's bytes at its source: the cached copy, or host memory. -/
def modelBytes (s : State) (h : Nat) (m : Model) : List Nat :=
  if m.src = 1 then hostRead s m.srcAddr m.size
  else
    match cachedOf s h with
    | some u => (u.2.pages.flatMap fun p => rdBytes (paByte s) (p * 2 ^ 21) (2 ^ 21)).take m.size
    | none => []

/-- Bytes written into the pages of a model's frames, in the order of its virtual pages. -/
def framesPut (s : State) (frames : List Nat) (bs : List Nat) : State :=
  (cutAt 4096 (bs.length + 1) 0 bs).foldl (fun s c => paPut s (ptePa s (framePte frames (frameSlots s) (c.1 / 2 ^ 21)) (c.1 % 2 ^ 21)) c.2) s

/-- Runs of far memory written where one of them meets a fenced channel: status and parameter (10 R249). -/
def fillFenced (s : State) (runs : List (Nat × Nat)) : Option (Nat × Nat) :=
  if !s.farFenced then none
  else (runs.filterMap fun r => farBad s r.1 r.2).head?.map fun b => match b with
    | .err st pa => (st, fld pa 47 16)
    | .fault c va => (c, va)

/-- The far-memory runs of a model's cached copy. -/
def copyRuns (s : State) (h : Nat) (m : Model) : List (Nat × Nat) :=
  ((cachedOf s h).map fun u => (pieces (2 ^ 21) 0 m.size).map fun p => (nth u.2.pages (p.1 / 2 ^ 21) * 2 ^ 21, p.2)).getD []

/-- The device addresses of a model's image in its frames. -/
def imageRuns (s : State) (m : Model) : List (Nat × Nat) :=
  (pieces 4096 0 m.size).map fun p => (ptePa s (framePte m.frames (frameSlots s) (p.1 / 2 ^ 21)) (p.1 % 2 ^ 21), p.2)

/-- Does a load also fill a cached copy? -/
def fillsCopy (m : Model) : Bool := m.cache && m.src = 1 && !m.reload

/-- A model's cached copy evicted. -/
def evictCopy (h : Nat) (s : State) : State := { s with pool := s.pool.filter fun u => !(u.2.kind = 0 && u.2.owner = h) }

/-- Bytes written into far-memory pages. -/
def pagesPut (s : State) (pages : List Nat) (bs : List Nat) : State :=
  (cutAt (2 ^ 21) (pages.length + 1) 0 bs).foldl (fun s c => paPut s (nth pages (c.1 / 2 ^ 21) * 2 ^ 21) c.2) s

/-- A load succeeds; the copy that it fills is evicted where it meets a fenced channel (09 R231, 10 R249). -/
def loadDone (s : State) (h : Nat) (m : Model) (bs : List Nat) : State :=
  let s := framesPut s m.frames bs
  let s := match fillsCopy m, cachedOf s h with
    | true, some u => if (fillFenced s (copyRuns s h m)).isSome then evictCopy h s else pagesPut s u.2.pages bs
    | _, _ => s
  let s := if fillsCopy m || m.src = 0 then cachePin s h false else s
  let s := { s with models := tset s.models h { m with st := if 0 < m.pins then .pinned else .resident, waits := [], reload := false
                                                       digest := imgDigest bs, signer := signerOf bs } }
  m.waits.foldl (fun s c => complete s c 0 0 h) s

/-- A load ends: its seal and its WT codes are checked (R385, 02 R33). -/
def loadEnd (s : State) (h : Nat) (m : Model) : State :=
  let bs := modelBytes s h m
  if !sealPass bs || (m.src = 0 && (cachedOf s h).isNone) then modelFail s h 0x0600
  else if Config.wtIllegal (bodyOf bs) then modelFail s h 0x0605
  else loadDone s h m bs

/-- Can a load meet an event? It reads host memory or the cached copy, and merges the last codeword of its frames and the last line of a copy that
it fills, where the image ends within them (10 R236, R247). -/
def loadMeets (s : State) (h : Nat) (m : Model) (e : AccEv) : Bool :=
  let copy := copyRuns s h m
  let frames := imageRuns s m
  let far := fun (pa : Nat) => copy.any fun r => if m.src = 0 then runHits 256 r pa else fillsCopy m && runMerges 256 r pa
  evLoad e && match e with
  | .vaultUe pa => frames.any (runMerges 64 · pa)
  | .domeUe pa cls => lineOk s 0 pa cls && (frames ++ copy).any (runHits 256 · pa)
  | .farUe pa => far pa
  | .farTimeout pa => far pa || (fillsCopy m && copy.any (runHits 256 · pa))
  | .hostErr _ _ => m.src = 1
  | _ => true

/-- What an event makes of a load: it goes on, fails, or stays as it is, to be done again. -/
inductive LoadEnd where
  | on | fails | stays
deriving DecidableEq, Repr

/-- One access event of a load. A failure of far memory evicts the cached copy, and a load that reads it fails (09 R231); an uncorrectable merge
leaves the entry LOADING (Table MEM-6); a device fault ends all. -/
def loadEv (s : State) (h : Nat) (m : Model) (e : AccEv) : State × LoadEnd :=
  match evMild s none e with
  | some s => (s, .on)
  | none =>
    let src := if m.src = 0 then LoadEnd.fails else .on
    match e with
    | .vaultUe pa => (vaultUeRec s pa 1, .stays)
    | .domeUe pa cls => (domeUncorrectable s 0 pa cls, .stays)
    | .farUe pa => (farUeFence s pa (evictCopy h), src)
    | .farTimeout pa => (farTimeoutFence s pa (evictCopy h), src)
    | .hostErr _ _ => (s, .fails)
    | _ => (s, .on)

/-- Does a MARGIN hold the traffic of a load: its frames, and the copy that it reads or fills (10 R251)? -/
def loadMargin (s : State) (h : Nat) (m : Model) : Bool :=
  marginFrames s m.frames || (s.glb.margin.isSome && (cachedOf s h).any fun u => u.2.pages.any fun p => marginHolds s (p * 2 ^ 21) (2 ^ 21))

/-- A load with the errors that its accesses meet, up to the first by which it fails or stays (13 Table SCH-6). -/
def loadRun (h : Nat) (m : Model) : State → List AccEv → State
  | s, [] => loadEnd s h m
  | s, e :: es =>
    match loadEv s h m e with
    | (s, .on) => loadRun h m s es
    | (s, .stays) => s
    | (s, .fails) => if (tfind s.models h).any fun k => k.st = .loading then modelFail s h 0x0600 else s

end Sys2Proof.Machine
end

