-- ==== Sys2Proof/Machine/Admit.lean ====
section
/-! DEFINITION. Admission and release (09 R223 to R225; 13 R287 to R290, R295; 14 R315, R320; 12 R281, R282; 16 Table HST-10;
17 R388, R394). -/
namespace Sys2Proof.Machine

/-! The job parameter block (16 Table HST-10). -/

/-- Bytes of a job parameter block: 64, then the fabric addresses. -/
def blockRead (s : State) (a : Nat) : List Nat :=
  let h := hostRead s a 64
  h ++ hostRead s (a + 64) (2 * recFld h 8 2)

/-- Grid axes of a block. -/
def blockGrid (b : List Nat) : List Nat := (List.range 4).map fun i => fld (recFld b 0xC 2) (4 * i + 3) (4 * i)

/-- Are a block's fields legal? -/
def blockOk (b : List Nat) : Bool :=
  let m := recFld b 8 2
  nth b 0 ≤ 1 && recFld b 2 2 ≤ 6000 && nth b 4 < 16 && recFld b 5 3 = 0 && 1 ≤ m && m ≤ 8192 && recFld b 0xA 2 < m
  && recFld b 0xE 2 = 0 && 2 ^ sumN (blockGrid b) = m && (blockGrid b).all (· ≤ 13) && (m = 1) = (recFld b 0x10 8 = 0)
  && (recFld b 0x28 8 + recFld b 0x30 8 + recFld b 0x38 8 = 0)

/-- The job of a block, before anything is reserved. -/
def blockJob (fn img : Nat) (p : Plan) (b : List Nat) : Job :=
  let m := recFld b 8 2
  { fn := fn, img := img, plan := p, lc := nth b 0 = 1, weight := if nth b 1 = 0 then 16 else nth b 1
    collWdog := if recFld b 2 2 = 0 then 200 else recFld b 2 2
    strict := bitOf (nth b 4) 0, steal := bitOf (nth b 4) 1, compat := bitOf (nth b 4) 2, trace := bitOf (nth b 4) 3
    m := m, l := recFld b 0xA 2, grid := blockGrid b, fabId := recFld b 0x10 8
    fas := (List.range m).map fun i => recFld b (0x40 + 2 * i) 2
    models := ((List.range 4).map fun i => recFld b (0x18 + 4 * i) 4).filter (· != 0), block := b }

/-! Checks of the plan. -/

/-- R165's checks of a ring, with R157's of its pattern. -/
def ringBad (p : Plan) (r : PlanRing) : Bool :=
  r.base % 2 ^ 21 != 0 || r.pfxRows % 16384 != 0 || 2 ^ 31 ≤ r.pfxRows + ringNr r || r.ringPages = 0 || r.ctl % 128 != 0
  || !(planVpns p .dome none).contains (r.ctl / 2 ^ 21) || patIllegal (ringPat r)

/-- R320: an illegal group record. -/
def grpBad (grid : List Nat) (g : Grp) : Bool :=
  ((List.range 4).any fun a => nth grid a < nth g.z a) || g.nslot = 0 || g.nslot < g.nred || 64 < g.nred || g.slotUnits = 0
  || 262144 < g.slotUnits

/-- PATTERN_ILLEGAL at admission: R23, R157, R165, R179, R223, R227, R320. -/
def planBad (x : Job) : Bool :=
  let p := x.plan
  let used := (p.shapes.filter (·.used)).map (·.sreg)
  p.members.isEmpty || 32 < p.members.length || p.members.any (fun m => m = 0 || 8 < m)
  || (p.cups.any fun c => c.length < p.members.length || c.eraseDups.length < c.length || c.any (32 ≤ ·)) || used.eraseDups.length < used.length
  || (x.lc && !p.ovfs.isEmpty) || !mapFits p || p.rings.any (ringBad p) || p.groups.any fun g => 16 ≤ g.1 || grpBad x.grid g.2

/-- Is a member of a job not reachable from a port (R315)? A port without a TOWERS frame knows its own tower only (R313). -/
def memberOut (p : Port) (fa : Nat) : Bool :=
  if fa / 64 = p.tower then (tfind p.present (fa % 64)).isNone || p.towers.any fun t => !t.contains (fa / 64)
  else p.towers.all fun t => !t.contains (fa / 64)

/-- FABRIC_DOWN (R315). -/
def fabricDown (s : State) (x : Job) : Bool :=
  1 < x.m && (((List.range 4).any fun i => (portOf s i).st != .ready || x.fas.any (memberOut (portOf s i)))
    || (refPort s).all fun p => nth x.fas x.l != p.fa)

/-- GROUP_SPAN (R320): a single-hop or switch-reduced group of the device spans towers. -/
def groupSpan (x : Job) : Bool :=
  1 < x.m && x.plan.groups.any fun g => (g.2.hop1 || g.2.swred)
    && ((List.range (grpSize g.2)).map fun r => nth x.fas (rankDev x.grid g.2.z x.l r) / 64).eraseDups.length != 1

/-- Does a plan place a receive area in a scratchpad? -/
def raInSp (p : Plan) : Bool := p.groups.any (·.2.raSp)

/-- The largest tabulated time of an image in compatibility mode (R130). -/
def compatGrain (p : Plan) : Nat :=
  maxN ((p.progs.mapIdx fun l ws => ws.mapIdx fun i w => tabTime true (tget [] (tget [] p.decls l) i) w).flatten)

/-- GRAIN_CYC of a job (R289, R130). -/
def jobGrain (x : Job) : Nat := if x.compat then compatGrain x.plan else x.plan.grainCyc

/-- A word that a pre-empted BE job must not hold beside an LC job (R288, R327). -/
def unboundedWord (ds : List OpDecl) (w : Nat) : Bool :=
  (isOp .fence w && (bitOf w 126 || bitOf w 127)) || isOp .xsend w || ds.any fun d => d.jv && clsOf d == .host

/-- PREEMPT_UNBOUNDED's condition on an image. -/
def unboundedImage (p : Plan) : Bool :=
  (p.progs.mapIdx fun l ws => (ws.mapIdx fun i w => unboundedWord (tget [] (tget [] p.decls l) i) w).any id).any id

/-- A model handle that a function may name: its entry or its cached copy exists. -/
def modelStatus (s : State) (fn h : Nat) : Nat :=
  match tfind s.models h, cachedOf s h with
  | some m, _ => if m.fn = fn then 0 else 0x0803
  | none, some u => if u.2.fn = fn then 0 else 0x0803
  | none, none => 0x0804

/-- The checks of an admission before anything is reserved (log 29 gives their order): status and parameter. -/
def admitChecks (s : State) (x : Job) : Option (Nat × Nat) :=
  let p := x.plan
  let bad := fun (c : Bool) (st : Nat) => if c then some ((st, 0) : Nat × Nat) else none
  ((x.models.map (modelStatus s x.fn)).find? (· != 0) |>.map fun st => (st, 0))
  <|> bad (x.models.length < p.models.length) 0x0804
  <|> bad (64 ≤ s.jobs.length) 0x030A
  <|> bad (planBad x) 0x0301
  <|> bad (p.rings.any fun r => patTooLong (ringPat r)) 0x0302
  <|> bad (x.strict && !p.orderFree) 0x0303
  <|> bad (x.lc && (tfind p.certs (enspCount s)).isNone) 0x0304
  <|> bad (p.preempt && x.compat && 4096 < compatGrain p) 0x0202
  <|> bad (p.preempt && raInSp p) 0x0305
  <|> bad (fabricDown s x) 0x0308
  <|> bad (groupSpan x) 0x0309
  <|> (if (ilvSet s).isNone then some (0x0300, 4) else none)

/-! The deadline test (13 R290, R295), in lantern cycles. -/

/-- t_disp and t_cmp. -/
def tDisp : Nat := 40000
/-- t_cmp. -/
def tCmp : Nat := 16000

/-- C of an LC job at a clock. -/
def lcCyc (s : State) (p : Plan) (mhz : Nat) : Nat := cdiv ((tfind p.certs (enspCount s)).getD 0 * 1600) mhz

/-- Bytes that a BE job gives up in one slice to another job, at most. -/
def yieldBytes (a b : Job) : Nat :=
  maxN (a.cups.map fun c => (a.dsp.filter fun n => n / 4 = c && b.dsp.contains n).length * 2 ^ 21)

/-- The device switch time of R295 from BE job `a` to a fresh dispatch of LC job `b`, rounded up to a lantern cycle. -/
def switchCyc (a b : Job) (mhz : Nat) : Nat :=
  let l := 8192 + 131072 * b2n a.plan.accLive + liveMax a.plan + 8192
  cdiv (jobGrain a * 1600 * 3750 + 640 * mhz * 3750 + l * 25 * mhz + yieldBytes a b * 3 * mhz) (mhz * 3750)

/-- t_pre: the largest switch time from any BE co-tenant. -/
def tPre (s : State) (others : List Job) (b : Job) : Nat :=
  maxN ((others.filter fun a => !a.lc).map fun a => switchCyc a b (setMhz s b.cups))

/-- Requests in dispatch order with their certified bounds; nothing when one would miss its deadline. -/
def lcBounds : Nat → List Req → Option (List Req)
  | _, [] => some []
  | t, q :: rest =>
    let t := t + tDisp + q.c + tCmp
    if q.abs < t then none else (lcBounds t rest).map ({ q with bound := t } :: ·)

/-- A request placed in a queue by absolute deadline, after equal ones. -/
def lcInsert (q : Req) : List Req → List Req
  | [] => [q]
  | a :: rest => if a.abs ≤ q.abs then a :: lcInsert q rest else q :: a :: rest

/-- Where the test starts: the bound of the running request, or now with t_pre. -/
def lcStart (s : State) (x : Job) (pre : Nat) : Nat :=
  match x.running with
  | some r => r.req.bound
  | none => cycNow s + pre

/-- The members of a group other than a job. -/
def mates (s : State) (j : Nat) : List Job :=
  match s.groups.find? fun g => g.2.jobs.contains j with
  | some g => (g.2.jobs.filter (· != j)).filterMap (jobOf s)
  | none => []

/-- R288: would the single request of an LC plan fail with an empty queue and its shortest deadline? -/
def lcInfeasible (s : State) (x : Job) (others : List Job) : Bool :=
  x.plan.dlMin * 1600 < tPre s others x + tDisp + lcCyc s x.plan (setMhz s x.cups) + tCmp

/-- R295: would an accepted request of the group's LC job fail once a BE job joins? -/
def lcBroken (s : State) (x : Job) (others : List Job) : Bool :=
  others.any fun o => o.lc && (lcBounds (lcStart s o (tPre s (x :: others) o)) o.queue).isNone

/-! Admission. -/

/-- V of a BE job that joins a group (R293). -/
def joinV (others : List Job) : Nat :=
  match (others.filter fun o => !o.lc && (o.running.isSome || !o.queue.isEmpty)).map (·.v) with
  | [] => 0
  | v :: vs => vs.foldl min v

/-- The quarter of the system area that a new job's page table takes: one that no other job with its first cupola has, of at most four (09 R216;
13 R287), where there are several by `Config.tablePlace` (log 50). -/
def tableFree (s : State) (x : Job) : Nat :=
  let free := (List.range 4).filter fun q => !s.jobs.any fun k => nth k.2.cups 0 = nth x.cups 0 && k.2.tableAt % 4 = q
  nth free (Config.tablePlace x.handle % free.length)

/-- A job that has been granted everything: its pages zero, its semaphores zero, its spires IDLE, its gates on, its keys drawn. A scratch
page that another job has is away, in its backing page. -/
def admitPlace (s : State) (j : Nat) (x : Job) (g : Option Nat) : State :=
  let kem := Config.mlkemKeygen (Config.entropy s.boot.draws 64)
  let x := { x with tableAt := tableFree s x, dk := kem.1, ek := kem.2, beatWin := s.now, away := x.dsp.filter fun n => !(dspHolders s n).isEmpty }
  let s := x.vpages.foldl (fun s n => zeroMem s (vaultPa n) (2 ^ 21)) s
  let s := x.frames.foldl zeroFrame s
  let s := x.dsp.foldl (fun s n => if x.away.contains n then s else zeroMem s (scratchPa (n / 4) (n % 4)) (2 ^ 21)) s
  let s := x.far.foldl (farNewOwner j) { s with farKeys := tset s.farKeys j (s.boot.draws + 1) }
  let s := { s with jobs := tset s.jobs j x, boot := { s.boot with draws := s.boot.draws + 2 } }
  let s := zeroSems s x
  let s := (jobSpires x).foldl (fun s p => modSp s p fun y =>
    { y with st := if y.st = .off then .idle else y.st, compatReg := if y.st = .off then x.compat else y.compatReg }) s
  let gi := g.getD (lowHandle s.groups)
  let grp : CoGrp := match tfind s.groups gi with
    | some y => { y with jobs := y.jobs ++ [j] }
    | none => { cups := x.cups, jobs := [j], since := s.now, took := s.now, quantum := s.quantum }
  let s := x.cups.foldl (fun s sl => jobPartWrite s j sl) { s with groups := tset s.groups gi grp }
  x.cups.foldl (fun s c => gateWrite s c true) s

/-- The words of a ring's control block that come from the plan (06 Table ATN-2). -/
def ringWords (s : State) (j : Nat) (r : PlanRing) : State :=
  vaPut s j (r.ctl + 0x1C) (leBytes 4 r.ringPages ++ leBytes 4 r.pfxRows ++ leBytes 4 0 ++ leBytes 8 r.patVa)

/-- A load of an absent model from its cached copy (R301); false without a copy, without space, or while far memory is fenced
(10 R249). -/
def loadCached (s : State) (h : Nat) : State × Bool :=
  match cachedOf s h with
  | some u => if s.farFenced then (s, false) else loadStart s h u.2.fn u.2.size 0 0 false 0 []
  | none => (s, false)

/-- Loads of models of a list until none is absent, one that an earlier load evicted among them; each is changed by `pin` as its load starts.
What was loaded, and whether every load found space. Fuel bounds the loads: an entry that is loading is not evicted. -/
def loadsLoop (pin : State → Nat → State) (hs : List Nat) : Nat → State → List Nat → State × List Nat × Bool
  | 0, s, done => (s, done, true)
  | fuel + 1, s, done =>
    match hs.find? fun h => (tfind s.models h).isNone with
    | none => (s, done, true)
    | some h =>
      match loadCached s h with
      | (t, true) => loadsLoop pin hs fuel (pin t h) (done ++ [h])
      | (t, false) => (t, done, false)

/-- Models that are not present: their loads start from the cached copies (R301). -/
def loadsStart (s : State) (hs : List Nat) : State × Bool :=
  let r := loadsLoop (fun s _ => s) hs (hs.length + 1) s []
  (r.1, r.2.2)

/-- The models of an admission: those present are pinned for an LC job, then those absent start to load, pinned as they do; what an LC
job has pinned, and whether every load found space (R301). -/
def admitModels (s : State) (x : Job) : State × List Nat × Bool :=
  let pin := fun (s : State) (h : Nat) => if x.lc then modelPin1 s h else s
  let here := (jobModels x).filter fun h => (tfind s.models h).isSome
  loadsLoop pin x.models (x.models.length + 1) (here.foldl pin s) here

/-- Does a plan declare a far-memory operand (10 R250), or a far auxiliary base, which an operand in the scratchpad has too (04 R131)? -/
def farOperand (p : Plan) : Bool :=
  p.decls.any fun t => t.2.any fun l => l.2.any fun d =>
    (d.jv && [d.cls, d.scaleCls].contains (some .far)) || [d.auxCls, d.outrecCls, d.shadowCls, d.fbCls].contains (some .far)

/-- R225: placement, semaphores, dome store, vault, far memory; the job with its grant, or the status of the first shortfall. What was
evicted stays evicted. -/
def admitReserve (s : State) (x : Job) : State × (Nat × Nat) × Option (Job × Option Nat) :=
  let no := fun (s : State) (st p : Nat) => (s, (st, p), none)
  let p := x.plan
  match chooseCups s x.lc p with
  | none => no s 0x0300 1
  | some (cups, g) =>
    let others := ((g.bind (tfind s.groups)).map fun y => y.jobs.filterMap (jobOf s)).getD []
    let place := placeSpires s p cups
    if raInSp p && carriesTwo place then no s 0x0305 0
    else if !x.lc && others.any (·.lc) && unboundedImage p then no s 0x0306 0
    else
      match semBases s p cups with
      | none => no s 0x0300 2
      | some sb =>
        match domeReserve s x.lc p cups with
        | none => no s 0x0300 3
        | some (dsp, ways) =>
          match vaultReserve s p cups with
          | none => no s 0x0300 4
          | some vps =>
            match framesTake s vps.flatten (jobFrames s p) with
            | (s, none) => no s 0x0300 4
            | (s, some fr) =>
              if (s.farFenced && p.farPages != 0) || (x.lc && farOperand p && (farUp s).length < 60) then no s 0x0300 5
              else
                match farTake s p.farPages with
                | (s, none) => no s 0x0300 5
                | (s, some far) =>
                  let gr := grantPages s p vps fr dsp far cups
                  let x := { x with
                    cups := cups, place := place, semBase := sb, dsp := dsp, ways := ways, frames := fr, far := far, pt := gr.pt
                    vpages := gr.vpages, ringPool := gr.ringPool, freed := gr.freed, copyAll := gr.copies, copies := gr.copies
                    spills := gr.spills, backs := gr.backs
                    v := joinV others }
                  if x.lc && lcInfeasible s x others then no s 0x0307 0
                  else if !x.lc && lcBroken s x others then no s 0x0307 0
                  else (s, (0, 0), some (x, g))

/-- The lowest free job slot. -/
def freeSlot (s : State) : Nat := ((freeKeys s.jobs 64).head?).getD 0

/-- Is a model of a job neither loaded nor being loaded? -/
def modelGone (s : State) (x : Job) : Bool := x.models.any fun h => (tfind s.models h).isNone

/-- Are every model of a job loaded? -/
def modelsIn (s : State) (x : Job) : Bool :=
  x.models.all fun h => (tfind s.models h).any fun m => m.st = .resident || m.st = .pinned

/-- Does a loaded model differ from the digest that the plan requires (17 R385)? -/
def digestBad (s : State) (x : Job) : Bool :=
  (x.plan.models.zip x.models).any fun q => !q.1.digest.isEmpty && !q.1.digest.all (· = 0)
    && (tfind s.models q.2).any fun m => m.digest != q.1.digest

/-- JOB_CTRL of an admitted job (12 Table DET-6). -/
def jobCtrlBits (x : Job) : Nat :=
  x.handle * 2 ^ 48 + b2n x.trace * 16 + b2n x.compat * 8 + b2n x.steal * 4 + b2n x.strict * 2 + 1

/-- The digests of a job's models in the order of the parameter block, empty for an unused handle; its reports hold them for its life (17 R386,
R389). -/
def modelDigests (s : State) (x : Job) : List (List Nat) :=
  (List.range 4).map fun i => ((tfind s.models (recFld x.block (0x18 + 4 * i) 4)).map (·.digest)).getD []

/-- The refusal of a load that an admission needs: NO_CAPACITY tier 5 once far memory is fenced (10 R249), else HOTSET_FULL. -/
def loadRefusal (s : State) : Nat × Nat := if s.farFenced then (0x0300, 5) else (0x0601, 0)

/-- A waiting admission completes once its cupolas are ON and its models loaded (R301, 19 R419); one that was evicted meanwhile is loaded
again. -/
def admitCheck1 (s : State) (j : Nat) : State :=
  match jobOf s j with
  | none => s
  | some x =>
    match x.admCmd with
    | none => s
    | some c =>
      if modelGone s x then
        match loadsStart s x.models with
        | (s, true) => s
        | (s, false) => releaseJob (complete s c (loadRefusal s).1 (loadRefusal s).2 0) j
      else if !(x.cups.all fun g => (gateOf s g).st = 2) || !modelsIn s x then s
      else if digestBad s x then releaseJob (complete s c 0x0206 0 0) j
      else
        let s' := modJob s j fun x => { x with admCmd := none, ready := true, digests := modelDigests s x }
        complete { s' with jobRegs := tset s.jobRegs j (jobCtrlBits x) } c 0 0 (jobHandle s j)

/-- Every waiting admission tested. -/
def admitCheck (s : State) : State := (s.jobs.map (·.1)).foldl admitCheck1 s

/-- MODEL_LOAD (13 R301); waiting admissions are tested, whose models it may have evicted. -/
def execModelLoad (f q : Nat) (e : Entry) (s : State) : Out :=
  hostExec 0x0A s f q e ((s.boot.admitReady || !loadCache e.toNat) && noMargin s && !loadHeld s e.toNat) 0 false noResv
    fun s r w => admitCheck (modelLoadBody s r w)

/-- HOTSET_EVICTION_END (13 Table SCH-5); its zeroisation waits while a MARGIN holds a channel (10 R251).
Waiting admissions are tested, which may load the model anew. -/
def execHotsetEvictionEnd (h : Nat) (s : State) : Out :=
  match tfind s.models h with
  | some m => guardNext (fwUp s && m.st = .evicting && !marginFrames s m.frames) .notEnabled (admitCheck (dropModel s h))
  | none => .refused .notEnabled

/-- An admission whose block is legal. -/
def admitGo (s : State) (r : CmdRef) (x : Job) : State :=
  match admitChecks s x with
  | some b => complete s r b.1 b.2 0
  | none =>
    match admitReserve s x with
    | (s, b, none) => complete s r b.1 b.2 0
    | (s, _, some (y, g)) =>
      let j := freeSlot s
      let h := nextHandle 16 s.jobSeq (s.jobs.map (·.2.handle))
      let s := admitPlace { s with jobSeq := h + 1 } j { y with handle := h, admCmd := some r } g
      let s := y.plan.rings.foldl (fun s q => ringWords s j q) s
      match admitModels s y with
      | (s, done, false) =>
        releaseJob (complete (modJob s j fun z => { z with models := done }) r (loadRefusal s).1 (loadRefusal s).2 0) j
      | (s, _, true) => admitCheck1 s j

/-- JOB_ADMIT's body. -/
def jobAdmitBody (s : State) (r : CmdRef) (w : Nat) : State :=
  let h := fld w 447 416
  match tfind s.images h with
  | none => complete s r 0x0804 0 0
  | some i =>
    if i.fn != r.fn then complete s r 0x0803 0 0
    else
      let b := blockRead s (fld w 511 448)
      if !blockOk b then complete s r 0x0801 0 0 else admitCheck (admitGo s r (blockJob r.fn h i.plan b))

/-- Does a job's parameter block name a model that is EVICTING (Table SCH-6)? -/
def admitHeld (s : State) (w : Nat) : Bool :=
  let b := blockRead s (fld w 511 448)
  (List.range 4).any fun i => (tfind s.models (recFld b (0x18 + 4 * i) 4)).any fun m => m.st = .evicting

/-- JOB_ADMIT (09 R225). -/
def execJobAdmit (f q : Nat) (e : Entry) (s : State) : Out :=
  hostExec 0x08 s f q e (s.boot.admitReady && noMargin s && !admitHeld s e.toNat) 0 false noResv jobAdmitBody

/-- JOB_RELEASE's body. -/
def jobReleaseBody (s : State) (r : CmdRef) (w : Nat) : State :=
  withJob s r (fld w 63 48) fun j _ => complete (endByRelease s j) r 0 0 0

/-- JOB_RELEASE (17 R394). -/
def execJobRelease (f q : Nat) (e : Entry) (s : State) : Out := hostExec 0x09 s f q e (noMargin s) 0 false noResv jobReleaseBody

/-- MODEL_LOAD_COMPLETE (13 R301): the load ends, well or by an error that its accesses met, and waiting admissions are tested. -/
def execModelLoadComplete (h : Nat) (ev : List AccEv) (s : State) : Out :=
  if !ev.all evLoad then .refused .illFormed
  else
    match tfind s.models h with
    | some m => guardNext (fwUp s && m.st = .loading && !loadMargin s h m && ev.all (loadMeets s h m)) .notEnabled (admitCheck (loadRun h m s ev))
    | none => .refused .notEnabled

end Sys2Proof.Machine
end

