-- ==== Sys2Proof/Machine/Arbiter.lean ====
section
/-! DEFINITION. The commands of the arbiters (11 R264 to R272). -/
namespace Sys2Proof.Machine

/-- An instance changed, in the window that its next cycle belongs to. -/
def arbMod (s : State) (a : Nat) (f : Arb → Arb) : State := { s with arbs := tset s.arbs a (f (arbRoll (arbOf s a))) }

/-- ARB_GRANT (11 R265 to R267): one cycle of an instance. -/
def execArbGrant (a : Nat) (ins : List ArbIn) (last : UnitEnd) (s : State) : Out :=
  let reqs := ins.map (arbIdx a)
  if !arbPresent a || !(reqs.all (arbReqOk a)) || reqs.eraseDups != reqs then .refused .illFormed
  else guardNext (clocksOn s && arbHoldOk s.netMode a (arbRoll (arbOf s a)) reqs last) .notEnabled
    (arbMod s a fun x => arbCycle s.netMode (arbReqs a) x reqs last)

/-- The requester of a request. -/
def arbReqOf (a : Nat) (q : ArbReq) : Nat :=
  match q with
  | .granted r _ | .parked r => arbIdx a r

/-- The live requests beside a withdrawal. -/
def arbLive (a : Nat) (q : ArbReq) : List Nat :=
  match q with
  | .granted _ live => live.map (arbIdx a)
  | .parked _ => []

/-- ARB_WITHDRAW (11 R268): of the granted request or of a parked one. -/
def execArbWithdraw (a : Nat) (r : ArbReq) (s : State) : Out :=
  let live := arbLive a r
  if !arbPresent a || arbReqs a ≤ arbReqOf a r || !(live.all (arbReqOk a)) || live.eraseDups != live then .refused .illFormed
  else guardNext (clocksOn s && arbHolds a (arbReqs a) (arbRoll (arbOf s a)) r) .notEnabled (arbMod s a fun x => arbDrop a (arbReqs a) x r)

/-- ARB_WINDOW_END (11 R271, R272): a window that has had its cycles ends. -/
def execArbWindowEnd (a : Nat) (s : State) : Out :=
  if !arbPresent a then .refused .illFormed
  else guardNext (clocksOn s && arbFull (arbOf s a)) .notEnabled { s with arbs := tset s.arbs a (arbWindow (arbOf s a)) }

/-- The lantern takes a signal (R270 step 3): a record at most once per instance in a 1 s window, the signals not recorded counted into the
next one. -/
def arbSignal (s : State) (a : Nat) : State :=
  let x := arbOf s a
  if x.lastRec = some (secWindow s) then { s with arbs := tset s.arbs a { x with sigs := x.sigs.drop 1, unrec := x.unrec + 1 } }
  else
    evrAdd { s with arbs := tset s.arbs a { x with sigs := x.sigs.drop 1, unrec := 0, lastRec := some (secWindow s) } }
      0x0710 1 0 [a, x.cur, s.netMode, x.unrec]

/-- ARB_STARVE_FLAG (11 R270): the lantern takes the signal of a requester's flag. -/
def execArbStarveFlag (a r : Nat) (s : State) : Out :=
  if !arbPresent a || arbReqs a ≤ r then .refused .illFormed
  else guardNext (fwUp s && (arbOf s a).sigs.head? = some r) .notEnabled (arbSignal s a)

/-- NET_ARB_MODE (11 R267): the lantern writes the mode. -/
def execNetArbMode (mode : Nat) (s : State) : Out :=
  if 4 ≤ mode then .refused .illFormed else guardNext (fwUp s) .notRunning { s with netMode := mode }

end Sys2Proof.Machine
end

