-- ==== Sys2Proof/Machine/Video.lean ====
section
/-! DEFINITION. The video island (15): streams, frames, pools, motion search. -/
namespace Sys2Proof.Machine

/-! Frame buffers (R339, R340). -/

/-- A plane laid out in UINT16 form, its rows padded with zeros to the pitch (R339). -/
def planeBytes (w h bd : Nat) (ss : List Nat) : List Nat :=
  (List.range h).flatMap fun y =>
    ((List.range w).flatMap fun x => leBytes 2 (nth ss (y * w + x) % 2 ^ bd)) ++ List.replicate (vPitch w - 2 * w) 0

/-- A picture's samples laid out as its frame buffer. -/
def picLay (c w h bd : Nat) (ss : List Nat) : List Nat :=
  let d := chromaDim c w h
  planeBytes w h bd ss ++ planeBytes d.1 d.2 bd (ss.drop (w * h)) ++ planeBytes d.1 d.2 bd (ss.drop (w * h + d.1 * d.2))

/-- A sample as a BF16 container (R339). -/
def bfSample (bd n : Nat) : Nat :=
  let q := encQ true 8 7 false (n % 2 ^ bd) (2 ^ bd - 1) 0
  if n % 2 ^ bd = 0 then 0 else q

/-- A BF16 container read as a sample (R340). -/
def sampleOf (bd b : Nat) : Nat :=
  let v := bf16 b
  if fpIsNan v || fpLe v fpZero then 0
  else
    match v with
    | .fin false m e =>
      let k := 2 ^ bd - 1
      let n := if 0 ≤ e then m * 2 ^ e.toNat * k else rneDiv (m * k) (2 ^ (-e).toNat)
      min k n
    | _ => 2 ^ bd - 1

/-- Every 16-bit container of a picture changed by a function. -/
def mapCont (f : Nat → Nat) : List Nat → List Nat
  | a :: b :: t => leBytes 2 (f (a + 256 * b)) ++ mapCont f t
  | l => l

/-! Stream records (Tables VID-1, VID-4; R342, R343). -/

/-- Every field within its range. -/
def streamFields (r : List Nat) : Bool :=
  let kind := nth r 0
  let enc := kind == 2
  let b := fun off lo hi => lo ≤ nth r off && nth r off ≤ hi
  b 0 1 3 && (if kind = 3 then nth r 1 = 0 else b 1 1 3) && b 5 0 3 && b 6 1 64 && nth r 7 < 4
    && (nth r 4 = 10 || (nth r 4 = 8 && !enc))
    && 16 ≤ recFld r 8 2 && recFld r 8 2 ≤ 8192 && recFld r 8 2 % 2 = 0
    && 16 ≤ recFld r 0xA 2 && recFld r 0xA 2 ≤ 4352 && recFld r 0xA 2 % 2 = 0
    && recFld r 0x10 8 % 256 = 0 && recFld r 0x1D 3 = 0 && recFld r 0x30 16 = 0
    && (if enc then
          b 2 1 2 && (nth r 1 != 1 || nth r 2 = 1) && b 3 20 61 && 1 ≤ recFld r 0x18 2 && b 0x1A 0 3 && b 0x1B 0 1
            && (nth r 1 != 2 || nth r 0x1C ≤ 63)
            && 1 ≤ recFld r 0x28 4 && recFld r 0x28 4 ≤ 240000 && 1 ≤ recFld r 0x2C 4 && recFld r 0x2C 4 ≤ 1001
        else recFld r 0x28 4 = 0 && recFld r 0x2C 4 = 0)

/-- Does Table VID-1 decode a chroma format of a standard: AV1, HEVC, VVC (log 9)? -/
def decodable (std chroma : Nat) : Bool := if std = 1 then chroma != 1 else if std = 2 then true else chroma = 0 || chroma = 3

/-- Does Table VID-1 hold the combination (log 9)? -/
def streamSupported (r : List Nat) : Bool :=
  let chroma := nth r 5
  match nth r 0, nth r 1 with
  | 1, std => decodable std chroma
  | 2, 1 => chroma = 0
  | 2, 2 => if nth r 2 = 1 then chroma = 0 else chroma = 1
  | 2, _ => false
  | _, _ => true

/-- Does the pool lie in vault pages that the job has reserved (R342)? -/
def poolIn (x : Job) (r : List Nat) : Bool :=
  let a := recFld r 0x10 8
  let n := nth r 6 * streamFsz r
  a + n ≤ 2 ^ 48 && ((List.range ((a + n - 1) / 2 ^ 21 + 1 - a / 2 ^ 21)).all fun i =>
    (tfind x.pt (a / 2 ^ 21 + i)).any fun e => e.tier == 0 && !e.wp && !e.shr)

/-- The handle of a stream context (log 16). -/
def streamHandle (c : Nat) : Nat := c + 1
/-- The context that a handle names. -/
def streamOf (s : State) (h : Nat) : Option Nat := if h = 0 then none else (tfind s.video.streams (h - 1)).map fun _ => h - 1

/-- The record that was read with a codec command. -/
def fetchedRec (s : State) (f q : Nat) (e : Entry) : List Nat := ((fetchedOf s f q e).map (·.recd)).getD []

/-- The bits that rate control gives a frame on average, in units of 1/FPS_NUM of a bit, in which BITRATE × 1,000 × FPS_DEN / FPS_NUM is exact
(R343). -/
def frameBudget (r : List Nat) : Nat := recFld r 0x20 4 * 1000 * recFld r 0x2C 4

/-- The size of the buffer model of a stream, in the same units. -/
def bufferBits (r : List Nat) : Nat := recFld r 0x24 4 * 1000 * recFld r 0x28 4
/-- What the buffer model, filled at BITRATE, holds after a frame of `n` bits. -/
def bufferNext (t : Stream) (n : Nat) : Nat :=
  if nth t.recd 0x1B = 1 then min (bufferBits t.recd) (t.full + frameBudget t.recd) - n * recFld t.recd 0x28 4 else 0

/-- CODEC_OPEN's body (R341, R342; 16 R370): what the buffer model holds at first is a free value within its size, fixed by the stream's record
alone (R338). -/
def codecOpenBody (recd : List Nat) (s : State) (r : CmdRef) (w : Nat) : State :=
  let h := recFld recd 0xC 4
  if fld w 63 48 != h then complete s r 0x0801 0 0
  else withJob s r h fun j x =>
    if !streamFields recd || !poolIn x recd then complete s r 0x0700 0 0
    else if !streamSupported recd then complete s r 0x0701 0 0
    else
      match freeKeys s.video.streams 256 with
      | [] => complete s r 0x070A 0 0
      | c :: _ =>
        let st : Stream := { fn := r.fn, job := j, recd := recd, bd := nth recd 4
                             full := if nth recd 0x1B = 1 then Config.videoFull recd % (bufferBits recd + 1) else 0
                             coding := if nth recd 0 = 1 then [] else Config.videoInit recd }
        let es := s.video.engines.map fun e => if e.2.last = some c then (e.1, { e.2 with last := none }) else e
        complete { s with video := { s.video with streams := tset s.video.streams c st, engines := es } } r 0 0 (streamHandle c)

/-- CODEC_OPEN. -/
def execCodecOpen (f q : Nat) (e : Entry) (s : State) : Out :=
  hostExec 0x48 s f q e true 1 false noResv (codecOpenBody (fetchedRec s f q e))

/-! Joining the queue of a stream (R345). -/

/-- A command joins its stream's queue. -/
def vEnqueue (s : State) (f : VFrame) : State :=
  let s := setVideo s fun v => { v with queue := v.queue ++ [{ f with num := v.num + 1 }], num := v.num + 1 }
  vAdvance s.video.queue.length s f.stream

/-- The stream that a codec command names for its function; `gone` is the status for one that does not exist. -/
def withStream (s : State) (r : CmdRef) (h : Nat) (hdr gone : Nat) (body : Nat → Stream → State) : State :=
  match streamOf s h with
  | none => complete s r gone 0 0
  | some c =>
    match tfind s.video.streams c with
    | none => complete s r gone 0 0
    | some t =>
      if t.fn != r.fn then complete s r 0x0803 0 0
      else if hdr != jobHandle s t.job then complete s r 0x0801 0 0
      else body c t

/-- CODEC_CLOSE's body: NO_SUCH_HANDLE for a stream that does not exist (16 R368). -/
def codecCloseBody (s : State) (r : CmdRef) (w : Nat) : State :=
  withStream s r (fld w 383 352) (fld w 63 48) 0x0804 fun c _ =>
    vEnqueue s { fn := r.fn, qp := r.qp, cmd := r.cmd, num := 0, stream := c, close := true }

/-- CODEC_CLOSE (R341). -/
def execCodecClose (f q : Nat) (e : Entry) (s : State) : Out := hostExec 0x49 s f q e true 1 false noResv codecCloseBody

/-- CODEC_RELEASE's body. -/
def codecReleaseBody (s : State) (r : CmdRef) (w : Nat) : State :=
  withStream s r (fld w 383 352) (fld w 63 48) 0x0707 fun c t =>
    if nth t.recd 6 ≤ fld w 351 346 then complete s r 0x0700 0 0
    else vEnqueue s { fn := r.fn, qp := r.qp, cmd := r.cmd, num := 0, stream := c, rel := some (fld w 351 346) }

/-- CODEC_RELEASE (R347). -/
def execCodecRelease (f q : Nat) (e : Entry) (s : State) : Out := hostExec 0x4B s f q e true 1 false noResv codecReleaseBody

/-! Frame records (Table VID-5, R344). -/

/-- Is an address legal: the pool-index form only with a buffer of the pool? -/
def frAddrOk (t : Stream) (a : Nat) : Bool := a < 2 ^ 48 || (bitOf a 63 && a % 2 ^ 63 < nth t.recd 6)

/-- The frame record is one that its stream permits. -/
def frameOk (t : Stream) (r : List Nat) : Bool :=
  let flags := recFld r 0 2
  let ty := flags % 16
  let kind := nth t.recd 0
  (ty = 3 || (ty = 1 && kind = 1) || (ty = 2 && kind = 2)) && fld flags 7 4 = 0 && fld flags 15 14 = 0 && recFld r 2 2 = 0
    && frAddrOk t (recFld r 8 8) && frAddrOk t (recFld r 0x18 8)
    && (ty = 1 || recFld r 0x10 8 = 0)
    && (ty != 3 || (frAddrOk t (recFld r 0x28 8) && (!bitOf flags 13 || frAddrOk t (recFld r 0x30 8))))
    && (!bitOf flags 10 || recFld r 0x38 8 < 2 ^ 48) && (!bitOf flags 11 || recFld r 0x40 8 < 2 ^ 48)

/-- CODEC_FRAME's body. -/
def codecFrameBody (recd : List Nat) (s : State) (r : CmdRef) (w : Nat) : State :=
  withStream s r (recFld recd 4 4) (fld w 63 48) 0x0707 fun c t =>
    if !frameOk t recd then complete s r 0x0700 0 0
    else vEnqueue s { fn := r.fn, qp := r.qp, cmd := r.cmd, num := 0, stream := c, recd := recd }

/-- CODEC_FRAME (R344, R345). -/
def execCodecFrame (f q : Nat) (e : Entry) (s : State) : Out :=
  hostExec 0x4A s f q e true 1 false noResv (codecFrameBody (fetchedRec s f q e))

/-! Starting a frame (R345, R346). -/

/-- Is an address not one of a dome semaphore of the job: PAGE_FAULT (09 R219)? -/
def semBad (s : State) (x : Job) (va : Nat) : Bool := (xlate s x va).all fun t => t.1.tier != 1

/-- Does the wait of a frame name no dome semaphore? -/
def waitBad (s : State) (f : VFrame) (x : Job) : Bool := bitOf (recFld f.recd 0 2) 11 && semBad s x (recFld f.recd 0x40 8)

/-- Is a frame ready (R345)? One whose wait cannot be read faults its job when an engine takes it. -/
def frReady (s : State) (f : VFrame) : Bool :=
  match tfind s.video.streams f.stream with
  | none => false
  | some t =>
    !strRunning s f.stream && s.video.queue.find? (·.stream == f.stream) == some f
      && (!bitOf (recFld f.recd 0 2) 11
        || ((jobOf s t.job).any fun x => waitBad s f x || semReached (va32 s x (recFld f.recd 0x40 8)) (recFld f.recd 0x48 4)))

/-- An engine may take a frame: powered, idle, not in its reset, its island in lock. -/
def engReady (s : State) (n : Nat) : Bool :=
  let e := tget {} s.video.engines n
  n < 4 && fwUp s && (gateOf s (32 + n)).st = 2 && !s.power.videoOut && e.run.isNone && e.st = 0

/-- A frame ends: completion, count, the stream's next commands. -/
def frDone (s : State) (n : Nat) (f : VFrame) (status param result : Nat) : State :=
  let s := setVideo s fun v => { v with engines := tmod {} v.engines n fun e =>
    { e with run := none, buf := none, st := 0, frames := satAdd 32 e.frames 1 } }
  let s := setVideo s fun v => { v with streams := v.streams.map fun t =>
    if t.1 = f.stream && t.2.st = 1 then (t.1, { t.2 with st := 0 }) else t }
  let s := complete s ⟨f.fn, f.qp, f.cmd⟩ status param result
  vAdvance s.video.queue.length s f.stream

/-- The frame that an idle engine takes (R345 item 3). -/
def frChoose (s : State) : Option VFrame := s.video.queue.find? (frReady s)

/-- An engine takes a frame: the context is loaded when the stream changes, a DECODE or ENCODE takes the lowest free buffer. In ERROR a
DECODE needs none: a key picture clears every mark and takes buffer 0, any other ends with CODEC_STREAM_ERROR (R348; log 9). -/
def frStart (s : State) (n : Nat) (f : VFrame) (t : Stream) : State :=
  let e := tget {} s.video.engines n
  let ty := recFld f.recd 0 2 % 16
  let sw := e.last != some f.stream
  let e' := { e with last := some f.stream, ctx := f.stream, switches := satAdd 8 e.switches (b2n sw), run := some f
                     st := 1 + ty, since := s.now, loads := sw, saves := sw && e.last.isSome }
  let s := setVideo s fun v => { v with queue := v.queue.erase f }
  if ty = 3 then
    let t' := { t with st := if t.st = 2 then 2 else 1 }
    setVideo s fun v => { v with engines := tset v.engines n e', streams := tset v.streams f.stream t' }
  else
    match (List.range (nth t.recd 6)).filter fun b => (tget {} t.pool b).marks = 0 with
    | [] =>
      if ty = 1 && t.st = 2 then setVideo s fun v => { v with engines := tset v.engines n e' }
      else frDone (setVideo s fun v => { v with engines := tset v.engines n e' }) n f 0x0704 0 0
    | b :: _ =>
      let t' := { t with st := if t.st = 2 then 2 else 1, pool := tset t.pool b { frame := f.num, marks := 1 } }
      setVideo s fun v => { v with engines := tset v.engines n { e' with buf := some b }, streams := tset v.streams f.stream t' }

/-- An engine takes a frame, or its wait faults the job (09 R219). -/
def frTake (s : State) (n : Nat) (f : VFrame) (t : Stream) : State :=
  if (jobOf s t.job).any (waitBad s f) then jobFault s t.job 0x0503 0 (recFld f.recd 0x40 8) else frStart s n f t

/-- FRAME_START (R345): of idle engines the lowest. -/
def execFrameStart (n : Nat) (s : State) : Out :=
  if 4 ≤ n then .refused .illFormed
  else
    match frChoose s with
    | none => .refused .notEnabled
    | some f =>
      match tfind s.video.streams f.stream with
      | none => .refused .notEnabled
      | some t => guardNext (engReady s n && (List.range n).all fun m => !engReady s m) .notEnabled (frTake s n f t)

/-! Pictures and motion search (R351 to R353). -/

/-- Luma sample reader of a picture at an address, with edge extension. -/
def lumaAt (rd : Nat → Nat) (bf : Bool) (bd w h base : Nat) (x y : Int) : Nat :=
  let cx := if x < 0 then 0 else min x.toNat (w - 1)
  let cy := if y < 0 then 0 else min y.toNat (h - 1)
  let v := rdLe rd (base + cy * vPitch w + 2 * cx) 2
  if bf then sampleOf bd v else v

/-- Absolute difference. -/
def absDiff (a b : Nat) : Nat := (a - b) + (b - a)

/-- A decimated sample (R352). -/
def decAt (p : Int → Int → Nat) (x y : Int) : Nat :=
  (sumN ((List.range 16).map fun k => p (4 * x + (k / 4 : Nat)) (4 * y + (k % 4 : Nat))) + 8) / 16

/-- A candidate of a search stage: cost, then |dx| + |dy|, then dy, then dx. -/
def candLt (a b : Nat × Int × Int) : Bool :=
  let na := a.2.1.natAbs + a.2.2.natAbs
  let nb := b.2.1.natAbs + b.2.2.natAbs
  if a.1 != b.1 then a.1 < b.1
  else if na != nb then na < nb
  else if a.2.2 != b.2.2 then a.2.2 < b.2.2
  else a.2.1 < b.2.1

/-- The integers from `lo` to `hi`. -/
def intRange (lo hi : Int) : List Int := (List.range ((hi + 1 - lo).toNat)).map fun i => lo + (i : Nat)

/-- The best of the candidates (dx, dy) by a cost. -/
def bestOf (xs ys : List Int) (cost : Int → Int → Nat) : Nat × Int × Int :=
  let all := ys.flatMap fun dy => xs.map fun dx => (cost dx dy, dx, dy)
  match all with
  | [] => (0, 0, 0)
  | c :: rest => rest.foldl (fun b c => if candLt c b then c else b) c

/-- The sum over a 16 × 16 block. -/
def sum16 (n : Nat) (f : Int → Int → Nat) : Nat :=
  sumN ((List.range (n * n)).map fun k => f ((k % n : Nat) : Int) ((k / n : Nat) : Int))

/-- The vector and cost of one block against one reference (R352): mvx, mvy, cost. -/
def motionBlock (c f : Int → Int → Nat) (bx by_ : Nat) : Int × Int × Nat :=
  let x0 : Int := (16 * bx : Nat)
  let y0 : Int := (16 * by_ : Nat)
  let s1 := bestOf (intRange (-119) 119) (intRange (-55) 55) fun dx dy =>
    sum16 4 fun i j => absDiff (decAt c (x0 / 4 + i) (y0 / 4 + j)) (decAt f (x0 / 4 + i + dx) (y0 / 4 + j + dy))
  let d1x := s1.2.1
  let d1y := s1.2.2
  let lim := fun (l : List Int) (m : Int) => l.filter fun d => -m ≤ d && d ≤ m
  let s2 := bestOf (lim (intRange (4 * d1x - 3) (4 * d1x + 3)) 476) (lim (intRange (4 * d1y - 3) (4 * d1y + 3)) 220) fun dx dy =>
    sum16 16 fun i j => absDiff (c (x0 + i) (y0 + j)) (f (x0 + i + dx) (y0 + j + dy))
  let d2x := s2.2.1
  let d2y := s2.2.2
  let pred := fun (qx qy x y : Int) =>
    let fx := (qx % 4).toNat
    let fy := (qy % 4).toNat
    let ix := x + qx / 4
    let iy := y + qy / 4
    ((4 - fx) * (4 - fy) * f ix iy + fx * (4 - fy) * f (ix + 1) iy + (4 - fx) * fy * f ix (iy + 1) + fx * fy * f (ix + 1) (iy + 1) + 8) / 16
  let s3 := bestOf (lim (intRange (4 * d2x - 3) (4 * d2x + 3)) 1904) (lim (intRange (4 * d2y - 3) (4 * d2y + 3)) 880) fun qx qy =>
    sum16 16 fun i j => absDiff (pred qx qy (x0 + i) (y0 + j)) (c (x0 + i) (y0 + j))
  (s3.2.1, s3.2.2, min 65535 s3.1)

/-- A number of 16 bits in two's complement. -/
def int16 (v : Int) : Nat := (v % 65536).toNat

/-- The bytes of one motion result (R353). -/
def motionBytes (f32fmt : Bool) (r : Nat) (m : Int × Int × Nat) : List Nat :=
  if f32fmt then
    leBytes 4 (r32 (fpScale (fpOfInt m.1) (-2))) ++ leBytes 4 (r32 (fpScale (fpOfInt m.2.1) (-2)))
      ++ leBytes 4 (r32 (fpOfNat m.2.2 0)) ++ leBytes 4 0
  else leBytes 8 (r * 2 ^ 48 + m.2.2 * 2 ^ 32 + int16 m.2.1 * 65536 + int16 m.1)

/-! Ending a frame (R346 to R348). -/

/-- A frame that fails after it has run: the context and marks as before, undefined memory where it may have written (R348). -/
def frFail (s : State) (n : Nat) (f : VFrame) (t : Stream) (status param : Nat) (ran : Bool) : State :=
  let b := (tget {} s.video.engines n).buf
  let t' := match b with
    | some i => { t with pool := tmod {} t.pool i fun e => { e with marks := 0 } }
    | none => t
  let t' := if status = 0x0702 then { t' with st := 2 } else t'
  let s := setVideo s fun v => { v with streams := tset v.streams f.stream t' }
  frDone (frUndef s t f (if ran && t.st = 2 && recFld f.recd 0 2 % 16 = 1 then some (b.getD 0) else b) ran) n f status param 0

/-- The access checks of a frame, and what follows when one fails: the job faults or the frame ends. -/
def frAccess (s : State) (n : Nat) (f : VFrame) (t : Stream) (x : Job) (checks : List (Bool × Nat × Nat)) (ok : State) : State :=
  match (checks.filterMap fun c => accBad s x c.1 c.2.1 c.2.2).head? with
  | some (.fault cause va) => jobFault s t.job cause 0 va
  | some (.err status pa) => frFail s n f t status (fld pa 47 16) true
  | none => ok

/-- The semaphore of a successful frame (R348). -/
def frSignal (s : State) (f : VFrame) (x : Job) : State :=
  if bitOf (recFld f.recd 0 2) 10 then
    let va := recFld f.recd 0x38 8
    match xlate s x va with
    | some (_, pa) => paPut s pa (leBytes 4 ((va32 s x va + recFld f.recd 0x4C 4) % 2 ^ 32))
    | none => s
  else s

/-- A successful frame: the stream as it then stands, the result, the semaphore; one that is no dome semaphore faults the job (09 R219). -/
def vFrameOk (s : State) (n : Nat) (f : VFrame) (t : Stream) (x : Job) (result : Nat) : State :=
  if bitOf (recFld f.recd 0 2) 10 && semBad s x (recFld f.recd 0x38 8) then jobFault s t.job 0x0503 0 (recFld f.recd 0x38 8)
  else frDone (frSignal (setVideo s fun v => { v with streams := tset v.streams f.stream t }) f x) n f 0 0 result

/-- A buffer of the pool after the standard's reference process (R346): a reference cleared, or a short-term one that becomes long-term. -/
def poolMark (o : VidOut) (long : Bool) (e : PoolEnt) : PoolEnt :=
  if e.marks = 0 then e
  else if o.cleared.contains e.pic then { e with marks := e.marks / 8 % 2 * 8 }
  else if long && o.longs.contains e.pic && bitOf e.marks 1 then { e with marks := e.marks / 8 % 2 * 8 + 4 } else e

/-- The pool after a frame (R346): references cleared, the new picture's marks set; AV1 slots and references of an encoded stream are
short-term. -/
def poolAfter (t : Stream) (b num : Nat) (o : VidOut) (fresh : Bool) (dec : Bool) (size bd : Nat) : Tbl PoolEnt :=
  let p := t.pool.map fun e => (e.1, if fresh then { e.2 with marks := 0 } else poolMark o (dec && nth t.recd 1 != 1) e.2)
  let m := (if o.mark = 0 then 0 else if o.mark = 2 && dec && nth t.recd 1 != 1 then 4 else 2) + (if o.pend && dec then 8 else 0)
  tset p b { frame := num, order := o.order, marks := m, pic := t.pics, size := size, bd := bd }

/-- The buffers of pictures by number. -/
def bufsOf (pool : Tbl PoolEnt) (pics : List Nat) : List Nat :=
  pics.filterMap fun k => (pool.find? fun e => e.2.marks != 0 && e.2.pic = k).map (·.1)

/-- Pictures still to be output, by output order (R347: EOS). -/
def remaining (pool : Tbl PoolEnt) (outs : List Nat) : List Nat :=
  ((pool.filter fun e => e.2.marks / 8 % 2 = 1 && !e.2.listed && !outs.contains e.1).mergeSort fun a b => a.2.order ≤ b.2.order).map (·.1)

/-- Does a picture's address name the pool, by a buffer's number or by a virtual address within it? Its samples are UINT16 there (R339). -/
def inPool (r : List Nat) (a : Nat) : Bool :=
  bitOf a 63 || (recFld r 0x10 8 ≤ a && a < recFld r 0x10 8 + nth r 6 * streamFsz r)

/-- Are the samples at a picture's address in BF16 form: SRCFMT, outside the pool (R339)? -/
def isBf (r : List Nat) (a : Nat) : Bool := !inPool r a && nth r 7 / 2 = 1

/-- What output writes, as offsets from DST and bytes (R347): in COPY mode the k-th picture at k times its own buffer size, in KEEP mode the
list entries. -/
def outWrites (s : State) (x : Job) (t : Stream) (dst : Nat) (pool : Tbl PoolEnt) (cur : Nat) (pic : List Nat) (outs : List Nat) : List (Nat × List Nat) :=
  if nth t.recd 7 % 2 = 1 then [(0, outs.flatMap fun b => leBytes 8 (b + (tget {} pool b).order % 2 ^ 32 * 2 ^ 32))]
  else outs.zipIdx.map fun o =>
    let e := tget {} pool o.1
    let bytes := if o.1 = cur then pic else rdBytes (vaByte s x) (poolAddr t.recd o.1) e.size
    let off := o.2 * bytes.length
    (off, if isBf t.recd (dst + off) then mapCont (bfSample e.bd) bytes else bytes)

/-- The bytes from DST that such writes reach. -/
def outLen (ws : List (Nat × List Nat)) : Nat := maxN (ws.map fun w => w.1 + w.2.length)

/-- Output written, in order. -/
def outPut (s : State) (j dst : Nat) (ws : List (Nat × List Nat)) : State := ws.foldl (fun s w => vaPut s j (dst + w.1) w.2) s

/-- The pool once pictures are output: a picture that is kept awaits its RELEASE (R347). -/
def poolOut (keep : Bool) (pool : Tbl PoolEnt) (outs : List Nat) : Tbl PoolEnt :=
  pool.map (fun e => if !outs.contains e.1 then e
    else if keep then (e.1, { e.2 with marks := e.2.marks % 8 + 8, listed := true }) else (e.1, { e.2 with marks := e.2.marks % 8 }))

/-- Does Table VID-1 decode a profile of a standard with a chroma format and a bit depth (log 9)? -/
def profileOk (std : Nat) (p : VidProfile) (chroma bd : Nat) : Bool :=
  match p with
  | .av1Main => std = 1 && (chroma = 0 || chroma = 3) && (bd = 8 || bd = 10)
  | .av1High => std = 1 && chroma = 2 && (bd = 8 || bd = 10)
  | .hevcMain => std = 2 && chroma = 0 && bd = 8
  | .hevcMain10 => std = 2 && chroma = 0 && bd ≤ 10
  | .hevcMain422 => std = 2 && chroma != 2 && bd ≤ 10
  | .hevcMain444 => std = 2 && bd ≤ 10
  | .vvcMain10 => std = 3 && (chroma = 0 || chroma = 3) && bd ≤ 10
  | .other => false

/-- Does a bitstream ask for what the device or the stream's record excludes: a profile, format or depth that Table VID-1 lacks, a level above
6.1, layers, large-scale tiles, a picture larger than WIDTH × HEIGHT (R336, R343), or than a buffer of the pool (DEDUCED, log 9)? -/
def picBad (t : Stream) (o : VidOut) : Bool :=
  61 < o.level || o.layered || o.largeTile || !profileOk (nth t.recd 1) o.profile o.chroma o.bd || recFld t.recd 8 2 < o.w
    || recFld t.recd 0xA 2 < o.h || streamFsz t.recd < vSize o.chroma o.w o.h

/-- A DECODE frame ends. -/
def decodeEnd (s : State) (n : Nat) (f : VFrame) (t : Stream) (x : Job) (b : Nat) : State :=
  let src := frAddr t (recFld f.recd 8 8)
  let len := recFld f.recd 0x10 8
  let dst := frAddr t (recFld f.recd 0x18 8)
  frAccess s n f t x [(false, src, len)]
    (match Config.videoDecode (nth t.recd 1) t.coding (rdBytes (vaByte s x) src len) with
     | .error (.bitstream key) => frFail s n f t (if t.st = 2 && !key then 0x0703 else 0x0702) 0 true
     | .error (.unsupported key) => frFail s n f t (if t.st = 2 && !key then 0x0703 else 0x0701) 0 true
     | .ok o =>
       if t.st = 2 && !o.key then frFail s n f t 0x0703 0 false
       else if picBad t o then frFail s n f t 0x0701 0 true
       else
         let pic := picLay o.chroma o.w o.h o.bd o.pic
         let pool := poolAfter t b f.num o (t.st = 2) true pic.length o.bd
         let outs := bufsOf pool o.outs
         let outs := if bitOf (recFld f.recd 0 2) 9 then outs ++ remaining pool outs else outs
         let ws := outWrites s x t dst pool b pic outs
         if recFld f.recd 0x20 8 < outLen ws then frFail s n f t 0x0705 0 true
         else frAccess s n f t x ((true, poolAddr t.recd b, pic.length) :: ws.map fun w => (true, dst + w.1, w.2.length))
           (vFrameOk (outPut (vaPut s t.job (poolAddr t.recd b) pic) t.job dst ws) n f
             { t with st := 0, coding := o.state, pics := t.pics + 1, bd := o.bd, pool := poolOut (nth t.recd 7 % 2 = 1) pool outs }
             x outs.length))

/-- The samples of a plane in memory. -/
def planeSamples (rd : Nat → Nat) (bf : Bool) (bd w h base : Nat) : List Nat :=
  (List.range h).flatMap fun y => (List.range w).map fun x =>
    let v := rdLe rd (base + y * vPitch w + 2 * x) 2
    if bf then sampleOf bd v else v % 2 ^ bd

/-- A picture's samples (R339, R340): of a pool buffer, or of one outside the pool in the SRCFMT form. -/
def picSamples (s : State) (x : Job) (t : Stream) (a : Nat) : List Nat :=
  let w := recFld t.recd 8 2
  let h := recFld t.recd 0xA 2
  let d := chromaDim (nth t.recd 5) w h
  let base := frAddr t a
  let plane := planeSamples (vaByte s x) (isBf t.recd a) t.bd
  plane w h base ++ plane d.1 d.2 (base + vPitch w * h) ++ plane d.1 d.2 (base + vPitch w * h + vPitch d.1 * d.2)

/-- The bitstream of an encoded frame: sequence-level headers stand in a stream's first frame, and after each key frame (R355). -/
def encBits (t : Stream) (o : VidOut) : List Nat :=
  let h := Config.seqHeaders t.recd
  (if t.pics = 0 then h else []) ++ o.bits ++ (if o.key then h else [])

/-- An ENCODE frame ends. -/
def encodeEnd (s : State) (n : Nat) (f : VFrame) (t : Stream) (x : Job) (b : Nat) : State :=
  let dst := frAddr t (recFld f.recd 0x18 8)
  frAccess s n f t x [(false, frAddr t (recFld f.recd 8 8), streamFsz t.recd)]
    (let o := Config.videoEncode t.recd t.coding (frameBudget t.recd) t.full (fld (recFld f.recd 0 2) 9 8) (picSamples s x t (recFld f.recd 8 8))
     let pic := picLay (nth t.recd 5) (recFld t.recd 8 2) (recFld t.recd 0xA 2) t.bd o.pic
     let bits := encBits t o
     if recFld f.recd 0x20 8 < bits.length then frFail s n f t 0x0705 0 true
     else frAccess s n f t x [(true, poolAddr t.recd b, pic.length), (true, dst, bits.length)]
       (vFrameOk (vaPut (vaPut s t.job (poolAddr t.recd b) pic) t.job dst bits) n f
         { t with st := 0, coding := o.state, pics := t.pics + 1, full := bufferNext t (8 * bits.length)
                  pool := poolAfter t b f.num o false false pic.length t.bd } x bits.length))

/-- An EXPORT frame ends (R352, R353). -/
def exportEnd (s : State) (n : Nat) (f : VFrame) (t : Stream) (x : Job) : State :=
  let flags := recFld f.recd 0 2
  let w := recFld t.recd 8 2
  let h := recFld t.recd 0xA 2
  let nref := 1 + b2n (bitOf flags 13)
  let addrs := [recFld f.recd 8 8, recFld f.recd 0x28 8, recFld f.recd 0x30 8].take (1 + nref)
  let luma := fun a => lumaAt (vaByte s x) (isBf t.recd a) t.bd w h (frAddr t a)
  let fmt := bitOf flags 12
  let bw := cdiv w 16
  let total := bw * cdiv h 16 * nref * (if fmt then 16 else 8)
  let dst := frAddr t (recFld f.recd 0x18 8)
  if recFld f.recd 0x20 8 < total then frFail s n f t 0x0705 0 true
  else frAccess s n f t x ((addrs.map fun a => (false, frAddr t a, vPitch w * h)) ++ [(true, dst, total)])
    (let bytes := (List.range (bw * cdiv h 16)).flatMap fun k => (List.range nref).flatMap fun r =>
       motionBytes fmt r (motionBlock (luma (nth addrs 0)) (luma (nth addrs (1 + r))) (k % bw) (k / bw))
     vFrameOk (vaPut s t.job dst bytes) n f { t with st := if t.st = 2 then 2 else 0 } x total)

/-- The running frame of an engine ends. -/
def frEnd (s : State) (n : Nat) (f : VFrame) : State :=
  match tfind s.video.streams f.stream with
  | none => frDone s n f 0x0707 0 0
  | some t =>
    match jobOf s t.job with
    | none => frDone s n f 0x0708 0 0
    | some x =>
      match recFld f.recd 0 2 % 16, (tget {} s.video.engines n).buf with
      | 1, b => decodeEnd s n f t x (b.getD 0)
      | 2, some b => encodeEnd s n f t x b
      | _, _ => exportEnd s n f t x

/-- A running frame is lost (R350): CODEC_CONTEXT_LOST, the stream closes, the event; what it wrote is undefined (R348). -/
def codecLost (s : State) (n : Nat) (f : VFrame) : State :=
  let job := ((tfind s.video.streams f.stream).map fun t => jobHandle s t.job).getD 0
  let s := engUndef s (tget {} s.video.engines n)
  let s := setVideo s fun v => { v with lost := satAdd 16 v.lost 1 }
  let s := setVideo s fun v => { v with engines := tmod {} v.engines n fun e =>
    { e with run := none, buf := none, st := 0, frames := satAdd 32 e.frames 1 } }
  let s := complete s ⟨f.fn, f.qp, f.cmd⟩ 0x0709 0 0
  evrAdd (endStream s f.stream) 0x0910 2 8 [streamHandle f.stream, job, n, f.stream]

/-- The ranges of job memory that a frame reads, its pool for references among them, and writes. -/
def frRanges (f : VFrame) (t : Stream) : List (Nat × Nat) × List (Nat × Nat) :=
  let pool := (recFld t.recd 0x10 8, nth t.recd 6 * streamFsz t.recd)
  let dst := (frAddr t (recFld f.recd 0x18 8), recFld f.recd 0x20 8)
  let ty := recFld f.recd 0 2 % 16
  let src := fun a => frAddr t (recFld f.recd a 8)
  let luma := vPitch (recFld t.recd 8 2) * recFld t.recd 0xA 2
  if ty = 1 then ([(src 8, recFld f.recd 0x10 8), pool], [dst, pool])
  else if ty = 2 then ([(src 8, streamFsz t.recd), pool], [dst, pool])
  else ([(src 8, luma), (src 0x28, luma)] ++ (if bitOf (recFld f.recd 0 2) 13 then [(src 0x30, luma)] else []), [dst])

/-- Can a frame meet an event? An uncorrectable vault error in the system area is one in its stream's context (R341; log 50). -/
def frMeets (s : State) (f : VFrame) (e : AccEv) : Bool :=
  (tfind s.video.streams f.stream).any fun t => (jobOf s t.job).any fun x =>
    evTouch s x (frRanges f t).1 (frRanges f t).2 e

/-- Does a MARGIN hold the traffic of a frame (10 R251)? -/
def frHeld (s : State) (f : VFrame) : Bool :=
  s.glb.margin.isSome && (tfind s.video.streams f.stream).any fun t => (jobOf s t.job).any fun x =>
    ((frRanges f t).1 ++ (frRanges f t).2).any fun r => marginVa s x r.1 r.2

/-- Does an engine still run a frame? -/
def engRuns (s : State) (n : Nat) (f : VFrame) : Bool := (tget {} s.video.engines n).run == some f

/-- A failure of far memory or of the host ends the frame that met it (R348). -/
def frErr (n : Nat) (f : VFrame) (status pa : Nat) (s : State) : State :=
  match engRuns s n f, tfind s.video.streams f.stream with
  | true, some t => frFail s n f t status (fld pa 47 16) true
  | _, _ => s

/-- An access event of a frame that ends it, its stream or its job (R348, R350). -/
def frEv (n : Nat) (f : VFrame) (s : State) (e : AccEv) : State :=
  match engRuns s n f, streamJob s f.stream with
  | true, some j =>
    match e with
    | .vaultUe pa => if 2032 ≤ (pa % 2 ^ 32) / 2 ^ 21 then codecLost (vaultUeRec s pa 2) n f else vaultUncorrectable s (some j) pa
    | .domeUe pa cls => if cls = 1 then s else domeUncorrectable s j pa cls
    | .farUe pa => farUeFence s pa (frErr n f 0x0403 pa)
    | .farTimeout pa => farTimeoutFence s pa (frErr n f 0x0404 pa)
    | .farLost pa => frErr n f 0x0406 pa s
    | .hostErr status pa => frErr n f status pa s
    | _ => s
  | _, _ => s

/-- A frame ends: with its effect where the events that its accesses met end nothing, else by them, faults first. -/
def frFinish (s : State) (n : Nat) (f : VFrame) (ev : List AccEv) : State :=
  let t := ev.foldl (fun s e => (evMild s none e).getD s) s
  if ev.all fun e => (evMild s none e).isSome then frEnd t n f
  else ((ev.filter evFatal) ++ ev.filter fun e => !evFatal e).foldl (frEv n f) t

/-- Has the engine loaded the context of the frame's stream: 6 µs after a switch (R345)? -/
def engLoaded (s : State) (e : Engine) : Bool := !e.loads || e.since + 6 ≤ s.now

/-- FRAME_END (R346 to R348, R350). -/
def execFrameEnd (r : EngineRun) (s : State) : Out :=
  if 4 ≤ r.n then .refused .illFormed
  else
    let e := tget {} s.video.engines r.n
    match e.run with
    | none => .refused .notEnabled
    | some f =>
      if !r.ev.all (frMeets s f) then .refused .illFormed
      else guardNext (fwUp s && !s.power.videoOut && engLoaded s e && !frHeld s f) .notEnabled (frFinish s r.n f r.ev)

/-- The bytes that the motion lane of an engine fetches for a picture and `refs` references (R351): for each row of superblocks the whole window
of 1,024 × 512 samples, then a strip of 64 columns for each further superblock. -/
def laneBytes (w h refs : Nat) : Nat := cdiv h 64 * (1024 * 512 * 2 + (cdiv w 64 - 1) * (64 * 512 * 2)) * refs

/-- CODEC_ENGINE_HANG (R350): no progress for 1 s; the engine is in reset for the microsecond that runs (log 9). -/
def execCodecEngineHang (n : Nat) (s : State) : Out :=
  if 4 ≤ n then .refused .illFormed
  else
    match (tget {} s.video.engines n).run with
    | none => .refused .notEnabled
    | some f => guardNext (fwUp s && (tget {} s.video.engines n).since + 1000000 ≤ s.now) .notEnabled
        (setVideo (codecLost s n f) fun v => { v with engines := tmod {} v.engines n fun e => { e with st := 6 } })

end Sys2Proof.Machine
end

