-- ==== Sys2Proof/Machine/Host2.lean ====
section
/-! DEFINITION. Host windows, DMA, queries and margining (16 R371, R372, Table HST-11; 17 R391, R392; 10 R251, R252). -/
namespace Sys2Proof.Machine

/-- The job of a handle once its admission has completed. -/
def withReady (s : State) (r : CmdRef) (h : Nat) (body : Nat → Job → State) : State :=
  withJob s r h fun j x => if x.ready then body j x else complete s r 0x0804 0 0

/-! Windows (16 R371). -/

/-- The first page frame number of window `w`. -/
def winPfn (w : Nat) : Nat := 0x100000000000 / 2 ^ 21 + w * 2 ^ 15

/-- Page-table entries of a window's pages. -/
def winPages (w vpn n : Nat) : Tbl Pte := (List.range n).map fun i => (vpn + i, { tier := 3, pfn := winPfn w + i })

/-- A run of pages put into a page table. -/
def ptInsert (pt new : Tbl Pte) (vpn n : Nat) : Tbl Pte := (pt.filter fun e => e.1 < vpn) ++ new ++ pt.filter fun e => vpn + n ≤ e.1

/-- Are WINDOW_MAP's address fields illegal: alignment, size, or past the end of the virtual addresses? -/
def winFieldsBad (host va n : Nat) : Bool := host % 4096 != 0 || va % 2 ^ 21 != 0 || n = 0 || 32768 < n || 2 ^ 27 < va / 2 ^ 21 + n

/-- WINDOW_MAP's body: a job holds at most 256 windows, and no more than its reservation record names (09 R223; log 29). A protected one needs the
tenant's key (17 R389). -/
def windowMapBody (s : State) (r : CmdRef) (w : Nat) : State :=
  withReady s r (fld w 63 48) fun j x =>
    let host := fld w 511 448
    let vpn := fld w 447 400 / 2 ^ 21
    let n := fld w 399 384
    if winFieldsBad host (fld w 447 400) n || (bitOf w 10 && x.kt.isEmpty) || x.pt.any fun e => vpn ≤ e.1 && e.1 < vpn + n then complete s r 0x0801 0 0
    else if x.running.isSome then complete s r 0x0806 0 0
    else if min 256 x.plan.windows ≤ (s.wins.filter fun k => k.2.job = j).length then complete s r 0x0807 0 0
    else
      match freeKeys s.wins 3840 with
      | [] => complete s r 0x0807 0 0
      | i :: _ =>
        let k : Win := { job := j, base := host, pages := n, va := vpn * 2 ^ 21, rd := bitOf w 8, wr := bitOf w 9, gcm := bitOf w 10 }
        let s := modJob { s with wins := tset s.wins i k } j fun x => { x with pt := ptInsert x.pt (winPages i vpn n) vpn n }
        complete s r 0 0 i

/-- WINDOW_MAP (16 R371). -/
def execWindowMap (f q : Nat) (e : Entry) (s : State) : Out := hostExec 0x10 s f q e true 0 false noResv windowMapBody

/-- A window's pages out of a page table. -/
def winUnmap (pt : Tbl Pte) (i : Nat) : Tbl Pte := pt.filter fun e => !(e.2.tier = 3 && e.2.pfn / 2 ^ 15 = winPfn i / 2 ^ 15)

/-- WINDOW_UNMAP's body: no such window, another function's, another job's than the header names (R368). -/
def windowUnmapBody (s : State) (r : CmdRef) (w : Nat) : State :=
  withReady s r (fld w 63 48) fun j x =>
    let i := fld w 383 372
    match tfind s.wins i with
    | none => complete s r 0x0804 0 0
    | some k =>
    if (jobOf s k.job).any fun y => y.fn != r.fn then complete s r 0x0803 0 0
    else if k.job != j then complete s r 0x0801 0 0
    else if x.running.isSome then complete s r 0x0806 0 0
    else complete (modJob { s with wins := tdel s.wins i } j fun x => { x with pt := winUnmap x.pt i }) r 0 0 0

/-- WINDOW_UNMAP (16 R371). -/
def execWindowUnmap (f q : Nat) (e : Entry) (s : State) : Out := hostExec 0x11 s f q e true 0 false noResv windowUnmapBody

/-! DMA (16 R372; 17 R391, R392). -/

/-- What stops a DMA on one page: status and failing address. -/
def dmaPageBad (s : State) (x : Job) (wr : Bool) (va len : Nat) : Option (Nat × Nat) :=
  match xlate s x va with
  | none => some (0x0801, 0)
  | some (e, pa) =>
    if e.tier = 3 || paKind pa = .reserved then some (0x0801, 0)
    else if wr && e.wp then some (0x0504, 0)
    else
      match paKind pa, farBad s pa len with
      | .far, some (.err st a) => some (st, fld a 47 16)
      | _, _ => none

/-- The first thing that stops a DMA. -/
def dmaBad (s : State) (x : Job) (wr : Bool) (va len : Nat) : Option (Nat × Nat) :=
  if 2 ^ 48 < va + len then some (0x0801, 0)
  else ((pieces (2 ^ 21) va len).filterMap fun p => dmaPageBad s x wr p.1 p.2).head?

/-- Host bytes of a transfer: plain, or the verified units of a protected range. -/
def dmaIn (s : State) (x : Job) (j host len : Nat) (gcm : Bool) : Option (List Nat) :=
  if gcm then ((List.range (len / 4096)).mapM fun k => gcmUnit s x.kt (jobHandle s j) host len k false).map List.flatten
  else some (hostRead s host len)

/-- Bytes written to host memory by a transfer, unit by unit where protected. -/
def dmaOut (s : State) (j host len : Nat) (gcm : Bool) (bs : List Nat) : State :=
  if gcm then (cutAt 4096 (len / 4096) 0 bs).foldl (fun s c => (gcmWrite s j host len c.1 c.2).getD s) s
  else hostPut s host bs

/-- A DMA's transfer, once nothing stops it. -/
def dmaMove (s : State) (r : CmdRef) (w j : Nat) (x : Job) : State :=
  let host := fld w 511 448
  let va := fld w 447 384
  let len := fld w 383 320
  let gcm := bitOf w 9
  if bitOf w 8 then complete (dmaOut s j host len gcm (rdBytes (vaByte s x) va len)) r 0 0 len
  else
    match dmaIn s x j host len gcm with
    | some bs => complete (vaPut s j va bs) r 0 0 len
    | none =>
      let v := freshVal s 32
      complete v.2 r 0x0409 v.1 0

/-- DMA's body: refused fields, pages that stop it, the errors that its accesses meet, the transfer. -/
def dmaBody (ev : List AccEv) (s : State) (r : CmdRef) (w : Nat) : State :=
  withReady s r (fld w 63 48) fun j x =>
    let len := fld w 383 320
    if len = 0 || 2 ^ 36 < len || (bitOf w 9 && (x.kt.isEmpty || fld w 511 448 % 4096 != 0 || len % 4096 != 0)) then complete s r 0x0801 0 0
    else
      match dmaBad s x (!bitOf w 8) (fld w 447 384) len with
      | some b => complete s r b.1 b.2 0
      | none =>
        match dmaEvs j s ev with
        | (s, some b) => complete s r b.1 b.2 0
        | (s, none) => dmaMove s r w j ((jobOf s j).getD x)

/-- Does a MARGIN hold a DMA (10 R251 item 5)? -/
def dmaWaits (s : State) (w : Nat) : Bool :=
  ((slotOf s (fld w 63 48)).bind (jobOf s)).any fun x => marginVa s x (fld w 447 384) (fld w 383 320)

/-- Can a DMA meet an event: of host memory, or of the range of job memory that it reads or writes (10 R236, R247)? -/
def dmaMeets (s : State) (w : Nat) (e : AccEv) : Bool :=
  let r := (fld w 447 384, fld w 383 320)
  evDma e && match e with
  | .hostErr _ _ => true
  | e => ((slotOf s (fld w 63 48)).bind (jobOf s)).all fun x => if bitOf w 8 then evTouch s x [r] [] e else evTouch s x [] [r] e

/-- DMA (16 R372). `ev`: the errors its accesses meet. -/
def execDma (f q : Nat) (e : Entry) (ev : List AccEv) (s : State) : Out :=
  if !ev.all (dmaMeets s e.toNat) then .refused .illFormed else hostExec 0x41 s f q e (!dmaWaits s e.toNat) 1 false (fun w => fld w 319 64) (dmaBody ev)

/-! Queries (16 R372, Table HST-11). -/

/-- DEV_ID.REVISION (20 Table REG-4). -/
def revision (s : State) : Nat := if s.fuse.stepB1 then 0xB1 else 0xB0

/-- KIND 0: ordering code, enabled spires, stepping, operating hours, unique identity, far-memory size (18 R408; log 19). -/
def qIdentity (s : State) : List Nat :=
  strBytes (if s.fuse.gradeB then "UBH-224B" else "UBH-240A") ++ leBytes 2 (enspCount s) ++ [revision s, 0]
    ++ leBytes 4 (opSecs s / 3600) ++ leBytes 8 s.fuse.uid ++ leBytes 8 (farSize s)

/-- A counter of a job with what its live spires hold (12 R279). -/
def ctrHere (s : State) (j : Nat) (x : Job) : Ctr → Nat
  | .orderChoices => detSum s j x .orderChoices (·.ord)
  | .placementChoices => detSum s j x .placementChoices (·.place)
  | .ordContests => detSum s j x .ordContests (·.ordContests)
  | .ordSwredArr => detSum s j x .ordSwredArr (·.ordSwred)
  | .plStolen => detSum s j x .plStolen (·.plStolen)
  | .plChanges => detSum s j x .plChanges (·.plChanges)
  | .pageCopies => ctrGet x .cowCopies
  | c => ctrGet x c

/-- A counter of a job, summed over its member devices (12 R279, 13 R304, 14 R334); REQ_ORDER_CHOICES holds that sum already. -/
def ctrNow (s : State) (j : Nat) (x : Job) (c : Ctr) : Nat :=
  satAdd (ctrWidth c) (ctrHere s j x c) (if c == .reqOrderChoices then 0 else otherCount s x c)

/-- KIND 1. -/
def qCounters (s : State) (j : Nat) (x : Job) : List Nat := Ctr.all.flatMap fun c => leBytes 8 (ctrNow s j x c)

/-- STATE of a hot-set record (13 Table SCH-11). -/
def hotCode : HotState → Nat
  | .loading => 0
  | .resident => 1
  | .pinned => 2
  | .evicting => 3

/-- A hot-set entry record (13 Table SCH-11). -/
def hotRec (h : Nat) (m : Model) : List Nat :=
  leBytes 8 (hotCode m.st + m.src * 64 + min m.uses 65535 * 2 ^ 48)
    ++ leBytes 8 (min m.pins 65535 + m.frames.length * 2 ^ 16 + h * 2 ^ 32) ++ leBytes 8 m.age ++ leBytes 8 m.size

/-- A pool entry record (15 Table VID-6). -/
def poolRec (i : Nat) (e : PoolEnt) : List Nat := leBytes 8 (e.marks + i * 256 + e.order % 2 ^ 32 * 2 ^ 32) ++ leBytes 8 e.frame

/-- In-service pages of a vault; a cupola out of service is reported like a vault out of service (10 R239, 19 R418). -/
def qPages (s : State) (v : Nat) : Nat := if cupUp s v then 2048 - 32 * vaultK s v else 0

/-- FAR_CHANn (10 Table VLT-9). -/
def farChanReg (s : State) (c : Nat) : Nat :=
  let x := fchOf s c
  x.ue * 2 ^ 48 + x.ce * 2 ^ 24 + c / 4 * 2 ^ 12 + x.density * 2 ^ 10 + b2n x.hot * 2 ^ 9 + x.st

/-- The records of a query written to its buffer. -/
def queryOut (s : State) (r : CmdRef) (w : Nat) (bs : List Nat) : State :=
  let n := fld w 447 416
  let s := hostPut s (fld w 511 448) (bs.take n)
  if n < bs.length then complete s r 0x0808 0 bs.length else complete s r 0 0 0

/-- A job query: a function's own jobs, or any for the PF. -/
def queryJob (s : State) (r : CmdRef) (h : Nat) (body : Nat → Job → State) : State :=
  match (slotOf s h).bind fun j => (jobOf s j).map fun x => (j, x) with
  | none => complete s r 0x0804 0 0
  | some (j, x) => if r.fn != 0 && x.fn != r.fn then complete s r 0x0803 0 0 else body j x

/-- A stream query. -/
def queryStream (s : State) (r : CmdRef) (h : Nat) (body : Stream → State) : State :=
  match (streamOf s h).bind (tfind s.video.streams) with
  | none => complete s r 0x0804 0 0
  | some t => if r.fn != 0 && t.fn != r.fn then complete s r 0x0803 0 0 else body t

/-- QUERY's body. -/
def queryBody (s : State) (r : CmdRef) (w : Nat) : State :=
  let h := fld w 407 376
  let out := queryOut s r w
  match fld w 415 408 with
  | 0 => out (qIdentity s)
  | 1 => queryJob s r h fun j x => out (qCounters s j x)
  | 2 => queryJob s r h fun _ x => out (x.place.map (· % 256))
  | 3 => out ((s.models.filter fun m => m.2.fn = r.fn).flatMap fun m => hotRec m.1 m.2)
  | 4 => queryStream s r h fun t => out ((List.range (nth t.recd 6)).flatMap fun i => poolRec i (tget {} t.pool i))
  | 5 => if r.fn != 0 then complete s r 0x0802 0 0 else out ((List.range 32).flatMap fun v => leBytes 2 (qPages s v))
  | 6 => if r.fn != 0 then complete s r 0x0802 0 0 else out ((List.range 64).flatMap fun c => leBytes 8 (farChanReg s c))
  | _ => complete s r 0x0801 0 0

/-- QUERY (16 R372). -/
def execQuery (f q : Nat) (e : Entry) (s : State) : Out := hostExec 0x18 s f q e true 2 false noResv queryBody

/-! Margining (10 R251, R252). -/

/-- MARGIN's body: field ranges, then no request dispatched; it then holds dispatch until it completes. -/
def marginBody (s : State) (r : CmdRef) (w : Nat) : State :=
  let p := fld w 447 320
  let ch := fld p 22 17
  let v := fld p 16 12
  let far := bitOf p 0
  if fld p 95 32 != 0 || fld p 11 1 != 0 then complete s r 0x0801 0 0
  else if fld p 31 27 < 20 then complete s r 0x0411 0 0
  else if s.jobs.any fun k => k.2.running.isSome then complete s r 0x0410 0 0
  else
    let l := layerOf s v (ch / 16)
    let t := freshVal s 16
    let s := if far then t.2 else s
    let temp := if far then t.1 else (l.temp % 65536).toNat
    let m : MarginRun := ⟨r, fld w 511 448, p, s.now, temp, if far then (fchOf s ch).hot else l.hot⟩
    { s with glb := { s.glb with margin := some m }, netMode := 2 }

/-- MARGIN (10 R251). -/
def execMargin (f q : Nat) (e : Entry) (s : State) : Out := hostExec 0x20 s f q e (noMargin s) 0 true noResv marginBody

/-- Lane entries of a margin result. -/
def marginLanes (m : MarginRun) : Nat := if bitOf m.par 0 then 24 else 74

/-- Does a physical lane carry a logical one (10 R237)? -/
def laneUsed (x : VChan) (i : Nat) : Bool := (List.range 72).any fun l => physLane x l = i

/-- NOTRAIN and STEERED of a physical lane: a fenced, untrained or disabled channel, or an unused spare; a steered lane. -/
def laneMarks (s : State) (m : MarginRun) (i : Nat) : Bool × Bool :=
  let ch := fld m.par 22 17
  if bitOf m.par 0 then ((fchOf s ch).st != 2, false)
  else
    let x := vchOf s (fld m.par 16 12) ch
    (x.dis || (72 ≤ i && !laneUsed x i), x.f0 = some i || x.f1 = some i)

/-- A lane entry (Table VLT-7) from its HIGH, LOW and ERRS. -/
def laneRec (s : State) (m : MarginRun) (i : Nat) (e : Nat × Nat × Nat) : List Nat :=
  let k := laneMarks s m i
  let d := if k.1 then (0, 0, 0) else e
  leBytes 8 (i * 2 ^ 56 + b2n k.1 * 2 ^ 51 + b2n k.2 * 2 ^ 50 + b2n (d.1 = 127) * 2 ^ 49 + b2n (d.2.1 = 129) * 2 ^ 48 + d.1 * 2 ^ 40
    + d.2.1 * 2 ^ 32 + min d.2.2 (2 ^ 32 - 1))

/-- The result header (Table VLT-6). -/
def marginHead (s : State) (m : MarginRun) : List Nat :=
  leBytes 8 (m.par % 2 ^ 32 + marginLanes m * 2 ^ 32 + b2n m.hot * 2 ^ 39 + m.temp * 2 ^ 48) ++ leBytes 8 (s.now - m.start)

/-- The result written and the hold lifted; the arbiters leave mode 2 (11 R267). -/
def marginEnd (s : State) (m : MarginRun) (lanes : List (Nat × Nat × Nat)) : State :=
  let s' := hostPut s m.buf (marginHead s m ++ (lanes.mapIdx fun i e => laneRec s m i e).flatten)
  complete { s' with glb := { s'.glb with margin := none }, netMode := if s'.boot.admitReady then 0 else 1 } m.ref 0 0 0

/-- MARGIN_COMPLETE (10 R251): the sweep's measurements as HIGH and LOW in 8-bit two's complement, −127 to 127, and ERRS, one per lane. -/
def execMarginComplete (lanes : List (Nat × Nat × Nat)) (s : State) : Out :=
  if !(lanes.all fun e => e.1 < 256 && e.1 != 128 && e.2.1 < 256 && e.2.1 != 128) then .refused .illFormed
  else
    match s.glb.margin with
    | none => .refused .notEnabled
    | some m => guardNext (fwUp s && lanes.length = marginLanes m) .notEnabled (marginEnd s m lanes)

end Sys2Proof.Machine
end

