-- ==== Sys2Proof/Machine/Power.lean ====
section
/-! DEFINITION. Gates, thermal levels, package power, the core rail, trips, shutdown, loss of lock (19; 21 R451). -/
namespace Sys2Proof.Machine

/-! Gates (19 R419, R420). -/

/-- Does the lantern write EN of a gate so (R419; Table PWR-4: far memory powers up in training only)? -/
def gateMay (s : State) (n : Nat) (en : Bool) : Bool :=
  if n < 32 then en || !s.jobs.any fun k => k.2.cups.contains n
  else if n < 36 then en || (s.video.queue.isEmpty && (tget {} s.video.engines (n - 32)).run.isNone)
  else if n < 40 then true
  else !en && (fchOf s (n - 40)).st != 2

/-- A fabric port's EN follows its gate; a change takes the port down (R419, 14 R335). -/
def portGate (s : State) (n : Nat) : State :=
  let en := (gateOf s n).en
  if n < 36 || 40 ≤ n || (portOf s (n - 36)).en = en then s
  else linkLost (modPort s (n - 36) fun p => { p with en := en }) (n - 36)

/-- PWR_GATE_EN (R420). -/
def execPwrGateEn (n : Nat) (en : Bool) (s : State) : Out :=
  if 104 ≤ n then .refused .illFormed
  else guardNext (fwUp s && gateMay s n en) .notEnabled (portGate (gateWrite s n en) n)

/-- A gate whose transition has ended; a pending request starts (R420). -/
def gateDone (g : Gate) : Gate :=
  let st := if g.st = 1 then 2 else 0
  if g.pend then { g with st := if g.en then 1 else 3, pend := false } else { g with st := st }

/-- A cupola's scratchpads read zero after power-up (Table PWR-4). -/
def cupGated (s : State) (c : Nat) (on : Bool) : State :=
  if on then (List.range 8).foldl (fun s m => modSp s (c * 8 + m) fun y => { y with sp := {} }) s else s

/-- A gate's transition ends; a cupola that is ON lets waiting admissions proceed. -/
def gateEnd (s : State) (n : Nat) : State :=
  let g := gateOf s n
  let s := { s with gates := tset s.gates n (gateDone g) }
  if n < 32 then admitCheck (setVdd (cupGated s n (g.st = 1))) else s

/-- GATE_TRANSITION_END (R420). -/
def execGateTransitionEnd (n : Nat) (s : State) : Out :=
  if 104 ≤ n then .refused .illFormed
  else guardNext (fwUp s && ((gateOf s n).st = 1 || (gateOf s n).st = 3)) .notEnabled (gateEnd s n)

/-! Levels (19 R423 to R425). -/

/-- Levels that islands are to run at: a cupola at max(TL, DEV_LEVEL), the video island (32) at its TL. -/
def levelTarget (s : State) (c : Nat) : Nat := if c < 32 then max (thermOf s c).tl s.power.devLevel else (thermOf s c).tl

/-- Level changes start where the target differs. -/
def retarget (s : State) : State :=
  (List.range 33).foldl (fun s c =>
    let t := levelTarget s c
    let x := thermOf s c
    { s with therms := tset s.therms c { x with pend := if t = x.run then none else some t } }) s

/-- Every accepted or running request marked throttled where a predicate holds (R425). -/
def markThrottled (s : State) (slow : Job → Req → Bool) : State :=
  { s with jobs := s.jobs.map fun k =>
      let m := fun (q : Req) => { q with throttled := q.throttled || slow k.2 q }
      (k.1, { k.2 with queue := k.2.queue.map m, running := k.2.running.map fun r => { r with req := m r.req } }) }

/-- Requests whose cupolas run below the clock of their acceptance. -/
def markSlow (s : State) : State := markThrottled s fun x q => setMhz s x.cups < q.fs

/-- A thermal state after one update (R423), temperatures in 0.125 °C; `dram` absent for the video island. -/
def thermStep (x : Therm) (die : Int) (dram : Option Int) : Therm :=
  let held := x.held + 1
  let dr := dram.getD 0
  let tl := if 824 < die || (dram.any fun d => 744 < d) then min 11 (x.tl + 1)
    else if die ≤ 800 && (dram.all fun d => d ≤ 720) && 10 ≤ held then x.tl - 1 else x.tl
  { x with tl := tl, held := if tl = x.tl then held else 0, tDie := die, tDram := dr
           throtMs := satAdd 24 x.throtMs (b2n (0 < x.tl)) }

/-- An integer as a 32-bit parameter. -/
def param32 (t : Int) : Nat := (t % 2 ^ 32).toNat

/-- T_dram(n): the highest of the four layers (R421). -/
def tDram (s : State) (v : Nat) : Int := (List.range 4).foldl (fun m l => max m (layerOf s v l).temp) (layerOf s v 0).temp

/-- One island's thermal update, with THERM_THROTTLE on a rise, at most once in a window per source. -/
def thermIsland (s : State) (c : Nat) (die : Int) (dram : Option Int) : State :=
  let x := thermOf s c
  let y := thermStep x die dram
  let s := { s with therms := tset s.therms c y
                    power := { s.power with alert := if 0 < y.tl then s.power.alert ||| 2 else s.power.alert } }
  if x.tl < y.tl && x.lastRec != some (secWindow s) then
    let s := { s with therms := tset s.therms c { y with lastRec := some (secWindow s) } }
    match dram with
    | some d => evrAdd s 0x0C10 1 9 [c, y.tl, param32 die, param32 d]
    | none =>
      let v := freshVal s 32
      evrAdd v.2 0x0C10 1 9 [c, y.tl, param32 die, v.1]
  else s

/-- The highest of a cupola's three die sensors. -/
def tDie (temps : List Int) (c : Nat) : Int := max (temps.getD (3 * c) 0) (max (temps.getD (3 * c + 1) 0) (temps.getD (3 * c + 2) 0))

/-- THERMAL_LEVEL_UPDATE (R423): the readings of sensors 0 to 95 and the highest of 96 to 127. -/
def execThermalLevelUpdate (temps : List Int) (video : Int) (s : State) : Out :=
  if temps.length != 96 then .refused .illFormed
  else guardNext (fwUp s) .notRunning
    (markSlow (retarget (thermIsland ((List.range 32).foldl (fun s c => thermIsland s c (tDie temps c) (some (tDram s c))) s) 32 video
      none)))

/-- POWER_ESTIMATE (R424): the last ten estimates are kept. -/
def execPowerEstimate (watts : Nat) (s : State) : Out :=
  if 2 ^ 16 ≤ watts then .refused .illFormed
  else guardNext (fwUp s) .notRunning
    { s with power := { s.power with ests := (s.power.ests ++ [watts]).drop (s.power.ests.length + 1 - 10) } }

/-- The device level after a mean of ten estimates with sum `sum` (R424). -/
def devStep (p : Power) (sum : Nat) : Nat :=
  if p.plimit * 10 < sum then min 11 (p.devLevel + 1)
  else if sum < (p.plimit - 50) * 10 && 10 ≤ p.devHeld + 1 then p.devLevel - 1 else p.devLevel

/-- The device level updated, with POWER_LIMIT on a rise. -/
def devUpdate (s : State) : State :=
  let p := s.power
  let sum := sumN p.ests
  let l := devStep p sum
  let s := { s with power := { p with devLevel := l, devHeld := if l = p.devLevel then p.devHeld + 1 else 0, pkgW := sum / 10
                                      alert := if 0 < l then p.alert ||| 4 else p.alert } }
  let s := markSlow (retarget s)
  if p.devLevel < l && p.lastRec != some (secWindow s) then
    evrAdd { s with power := { s.power with lastRec := some (secWindow s) } } 0x0C12 1 9 [p.plimit, sum / 10, l, 0]
  else s

/-- DEV_LEVEL_UPDATE (R424). -/
def execDevLevelUpdate (s : State) : Out := guardNext (fwUp s && s.power.ests.length = 10) .notEnabled (devUpdate s)

/-- CORE_CURRENT_ESTIMATE (R424): above 2,400 A one clock edge in two is suppressed, which counts as throttling. -/
def execCoreCurrentEstimate (amps : Nat) (s : State) : Out :=
  let c := decide (2400 < amps)
  let t := { s with power := { s.power with clamp := c, clampUs := satAdd 16 s.power.clampUs (b2n c) } }
  guardNext (fwUp s) .notRunning (if c then markThrottled t fun _ _ => true else t)

/-- LEVEL_CHANGE_DONE (R425). -/
def execLevelChangeDone (c : Nat) (s : State) : Out :=
  match (thermOf s c).pend with
  | none => .refused .notEnabled
  | some l => guardNext (fwUp s && c < 33) .notEnabled
      (markSlow (setVdd { s with therms := tset s.therms c { thermOf s c with run := l, pend := none } }))

/-! Trip, shutdown, alert (19 R426, R427, R433). -/

/-- THERM_TRIP written to flash, where flash writes may run (19 R417); a device fault that has not ended is abandoned (Table PWR-6). -/
def tripRecord (s : State) (sensor : Nat) (temp : Int) : State :=
  if !fwUp s && s.boot.stage != .fault then s
  else evrFlushAll { s with evr := evrEnter s.evr (mkRec s 0x0C11 3 9 [sensor, param32 temp, 0, 0]) }

/-- The effects of a trip. -/
def doTrip (s : State) (sensor : Nat) (temp : Int) : State :=
  let s := tripRecord s sensor temp
  { s with boot := { s.boot with stage := .stopped, thermtripN := false, linkUp := false } }

/-- THERMAL_TRIP (R426): a die sensor (0 to 127) at 115 °C or a layer sensor (128 to 255) at 105 °C, or more. -/
def execThermalTrip (sensor : Nat) (temp : Int) (s : State) : Out :=
  if 256 ≤ sensor then .refused .illFormed
  else guardNext (s.boot.pwrgd && s.boot.stage != .stopped && (if sensor < 128 then decide (920 ≤ temp) else decide (840 ≤ temp)))
    .notEnabled (doTrip s sensor temp)

/-- An orderly shutdown, steps 1 and 2 and the record of step 3 (R427); a second request has no effect. -/
def doShutdown (s : State) : State :=
  if s.power.shutdown then s
  else
    let n := s.jobs.length
    let s := { s with power := { s.power with shutdown := true } }
    let s := (s.jobs.map (·.1)).foldl endByRelease s
    evrAdd s 0x0C16 0 9 [n, 0, 0, 0]

/-- Does a shutdown wait for its flash writes, and may they run (R417)? -/
def shutdownDue (s : State) : Bool := fwUp s && s.power.shutdown && !s.power.quiesced && s.boot.perstN

/-- The end of an orderly shutdown: the RAM ring flushed and the store written, from the next microsecond with PERST_N high, so that a trip or a warm
reset can come before it (log 57); then, with every flash operation ended, or after the 2 s that bound them, QUIESCED (R427 steps 3 and 4). -/
def shutdownEnd (s : State) : State :=
  match s.power.closing with
  | none =>
    let s := storeWrite (evrFlushAll s) .done
    { s with power := { s.power with closing := some s.now } }
  | some t =>
    let s := evrFlushAll s
    if s.flashOps.isEmpty || t + 2000000 ≤ s.now then
      let s := flashTick true s
      { s with power := { s.power with quiesced := true } }
    else s

/-- SHUTDOWN (R427): a write of 1 to PWR_CTRL.SHUTDOWN; only the PF reaches the register, another write is discarded (R436). -/
def execShutdown (f : Nat) (s : State) : Out :=
  if 17 ≤ f then .refused .illFormed else guardNext (hostUp s && fnUp s f) .notRunning (if f = 0 then doShutdown s else s)

/-- ALERT_CAUSE_CLEAR (R433, R436): a W1C write by the PF; another write is discarded. -/
def execAlertCauseClear (f mask : Nat) (s : State) : Out :=
  if 17 ≤ f || 256 ≤ mask then .refused .illFormed
  else guardNext (hostUp s && fnUp s f) .notRunning
    (if f = 0 then { s with power := { s.power with alert := s.power.alert - (s.power.alert &&& mask) } } else s)

/-! Loss of lock and rails (19 R418, R430, Table PWR-3). -/

/-- Clock islands of a kind (01 Table LVL-2). -/
def islandCount (k : Nat) : Nat := [256, 32, 1, 1, 4, 1, 1].getD k 0

/-- A cupola out of service. -/
def cupOutAdd (s : State) (c : Nat) : State :=
  { s with power := { s.power with cupOut := if s.power.cupOut.contains c then s.power.cupOut else s.power.cupOut ++ [c] } }

/-- Jobs that a spire island's loss ends: those placed on it, and saved ones with a reservation in its cupola (Table PWR-6). -/
def spireJob (p : Nat) (x : Job) : Bool := x.place.contains p || (x.saved && x.cups.contains (p / 8))

/-- The outcome of a loss of lock. -/
def lockLost (s : State) (k n : Nat) : State :=
  match k with
  | 0 => setVdd (faultJobs (cupOutAdd s (n / 8)) 0x0004 (spireJob n)).1
  | 1 =>
    let s := cupOutAdd { s with power := { s.power with uncoreOut := s.power.uncoreOut ++ [n] } } n
    setVdd (faultJobs s 0x0501 fun x => x.cups.contains n).1
  | 2 =>
    let cs := (List.range 64).filter fun c => (fchOf s c).st = 2
    cs.foldl (fun s c => fenceOut (fenceChan s c 0) (farOut s c) id) s
  | 3 => pfReset s
  | 4 => linkLost s n
  | _ =>
    let es := s.video.engines.filterMap fun e => e.2.run.map fun f => (e.1, f)
    let s := es.foldl (fun s e => codecLost s e.1 e.2) s
    { s with power := { s.power with videoOut := true } }

/-- A loss of lock: its alert cause, its outcome, CLOCK_LOCK_LOST; in the lantern island a device fault. -/
def pllLost (s : State) (k n : Nat) : State :=
  let s := { s with power := { s.power with alert := s.power.alert ||| 8 } }
  if k = 6 then deviceFault (evrAdd s 0x0C13 2 9 [k, n, s.jobs.length, 0]) 0x0501 9 0
  else
    let t := lockLost s k n
    evrAdd t 0x0C13 2 9 [k, n, s.jobs.length - t.jobs.length, 0]

/-- PLL_LOCK_LOST (R418): the island kind in the order of Table LVL-2 and its instance. -/
def execPllLockLost (k n : Nat) (s : State) : Out :=
  if 7 ≤ k || islandCount k ≤ n then .refused .illFormed else guardNext (fwUp s) .notRunning (pllLost s k n)

/-- RAIL_OUT_OF_TOLERANCE (R430): the voltage sensor and its reading in 0.5 mV. VDD_IO, once out of its tolerance, stays so until PWRGD falls
(DESIGN CHOICE, log 46). -/
def execRailOutOfTolerance (rail mv : Nat) (s : State) : Out :=
  if 64 ≤ rail || 2 ^ 16 ≤ mv then .refused .illFormed
  else
    let t := { s with power := { s.power with ioOut := s.power.ioOut || Config.vddIoSensor rail } }
    guardNext (fwUp s) .notRunning (deviceFault (evrAdd t 0x0C17 3 9 [rail, mv, 0, 0]) 0x0501 9 0)

end Sys2Proof.Machine
end

