-- ==== Sys2Proof/Machine/Security.lean ====
section
/-! DEFINITION. The DOE mailbox, certificates, reports and key delivery (16 R377; 17 R384 to R389). -/
namespace Sys2Proof.Machine

/-- A DOE object's vendor and type (log 8: the object header of the PCI Express base specification). -/
def doeProto (o : List Nat) : Nat × Nat := (ofLe (o.take 2), nth o 2)

/-- A response object with its header. -/
def doeObj (vendor type : Nat) (payload : List Nat) : List Nat :=
  let n := cdiv (8 + payload.length) 4
  leBytes 2 vendor ++ [type, 0] ++ leBytes 4 n ++ payload ++ List.replicate (4 * n - 8 - payload.length) 0

/-- A mailbox answers. -/
def doeAnswer (s : State) (f : Nat) (o : List Nat) : State := modFn s f fun x => { x with doeResp := o }

/-- May a function's mailbox take an object? -/
def doeReady (s : State) (f : Nat) : Bool := hostUp s && fnUp s f

/-- DOE Discovery's answer for an index: protocol 0 is Discovery, 1 Usior attestation (log 8). -/
def discovery (i : Nat) : List Nat :=
  if i = 0 then doeObj 1 0 [1, 0, 0, 1] else if i = 1 then doeObj 1 0 [0x9C, 0x1F, 1, 0] else doeObj 1 0 [0xFF, 0xFF, 0, 0]

/-- DOE_DISCOVERY (16 R377). -/
def execDoeDiscovery (f : Nat) (obj : List Byte) (s : State) : Out :=
  let o := obj.map BitVec.toNat
  if 17 ≤ f || doeProto o != (1, 0) || o.length != 12 then .refused .illFormed
  else guardNext (doeReady s f) .notRunning (doeAnswer s f (discovery (nth o 8)))

/-- DOE_ABORT (16 R377): the request in progress, its response and the error are discarded. -/
def execDoeAbort (f : Nat) (s : State) : Out :=
  if 17 ≤ f then .refused .illFormed
  else guardNext (doeReady s f) .notRunning (modFn s f fun x => { x with doeResp := [], doeErr := false })

/-- Is an object one the mailbox supports: a known protocol, of at most 64 KiB? -/
def doeKnown (o : List Nat) : Bool := (doeProto o == (1, 0) || doeProto o == (0x1F9C, 1)) && o.length ≤ 65536

/-- DOE_UNSUPPORTED_OBJECT (16 R377): no response, DOE Error. -/
def execDoeUnsupportedObject (f : Nat) (obj : List Byte) (s : State) : Out :=
  if 17 ≤ f || doeKnown (obj.map BitVec.toNat) then .refused .illFormed
  else guardNext (doeReady s f) .notRunning (modFn s f fun x => { x with doeResp := [], doeErr := true })

/-! Attestation messages (R387, Table SEC-6). -/

/-- The message of an attestation object: code, job handle, offset, payload. -/
def attMsg (o : List Nat) : Nat × Nat × Nat × List Nat := (nth o 8, recFld o 12 4, recFld o 16 8, o.drop 24)

/-- An attestation object with a code. -/
def isAtt (o : List Nat) (code : Nat) : Bool := doeProto o == (0x1F9C, 1) && o.length ≤ 65536 && 24 ≤ o.length && (attMsg o).1 == code

/-- An attestation answer. -/
def attAnswer (s : State) (f : Nat) (o : List Nat) (status : Nat) (payload : List Nat) : State :=
  let m := attMsg o
  doeAnswer s f (doeObj 0x1F9C 1 ([m.1, status, 0, 0] ++ leBytes 4 m.2.1 ++ leBytes 8 m.2.2.1 ++ payload))

/-- The certificate chain (R384). -/
def certChain (s : State) : List Nat := Config.factoryChain (rdBytes (flashByte s) 0x1000000 0x100000) ++ s.boot.cert

/-- GET_CERTS (R387). -/
def getCerts (s : State) (f : Nat) (o : List Nat) : State :=
  let m := attMsg o
  let c := certChain s
  if m.2.2.2.length != 0 then attAnswer s f o 3 []
  else if c.length ≤ m.2.2.1 then attAnswer s f o 4 []
  else attAnswer s f o 0 ((c.drop m.2.2.1).take 65000)

/-- GET_CERTS. -/
def execGetCerts (f : Nat) (obj : List Byte) (s : State) : Out :=
  let o := obj.map BitVec.toNat
  if 17 ≤ f || !isAtt o 1 then .refused .illFormed else guardNext (doeReady s f) .notRunning (getCerts s f o)

/-- JOB_CTRL of a job slot (12 Table DET-6). -/
def jobCtrl (s : State) (j : Nat) : Nat := tget 0 s.jobRegs j

/-- A list cut or filled to `n` bytes. -/
def fitBytes (n : Nat) (l : List Nat) : List Nat := (l ++ List.replicate n 0).take n

/-- The job fields of a report, 0C0h to 8B3h (Table SEC-5). -/
def reportJob (s : State) (j : Option Nat) : List Nat :=
  match j.bind fun j => (jobOf s j).map fun x => (j, x) with
  | none => List.replicate 2036 0
  | some (j, x) =>
    let img := tfind s.images x.img
    leBytes 4 (jobHandle s j) ++ leBytes 4 x.fn ++ leBytes 8 (jobCtrl s j)
      ++ fitBytes 64 ((img.map (·.digest)).getD []) ++ fitBytes 64 ((img.map (·.signer)).getD [])
      ++ fitBytes 64 (Config.shake256 x.block 64)
      ++ (List.range 4).flatMap (fun i => fitBytes 64 (x.digests.getD i []))
      ++ fitBytes 1568 x.ek ++ leBytes 4 (b2n (!x.kt.isEmpty))

/-- The signed bytes of a report, 000h to 8BFh. -/
def reportBody (s : State) (nonce : List Nat) (j : Option Nat) : List Nat :=
  leBytes 4 1 ++ leBytes 4 2240 ++ leBytes 8 s.fuse.uid ++ fitBytes 32 nonce ++ leBytes 4 s.fuse.romVersion
    ++ leBytes 4 s.boot.version ++ [s.boot.svn, s.fuse.rollback, s.boot.slot, b2n s.boot.calUser + 2 * b2n s.fuse.debugLock]
    ++ leBytes 4 s.boot.pcyc ++ fitBytes 64 s.boot.body
    ++ fitBytes 64 (Config.shake256 (s.boot.cal.getD []) 64) ++ reportJob s j ++ List.replicate 12 0

/-- A report with its signature of 49,856 B by the alias key (R386). -/
def report (s : State) (nonce : List Nat) (j : Option Nat) : List Nat :=
  let b := reportBody s nonce j
  b ++ fitBytes 49856 (Config.slhSign .shake256f s.boot.aliasKey ([0, 10] ++ strBytes "ubh-attest" ++ b))

/-- The job that a message of a function names. -/
def attJob (s : State) (f h : Nat) : Option Nat := (slotOf s h).filter fun j => (jobOf s j).any fun x => x.fn == f && x.ready

/-- GET_REPORT (R386, R387). -/
def getReport (s : State) (f : Nat) (o : List Nat) : State :=
  let m := attMsg o
  let j := attJob s f m.2.1
  if m.2.1 != 0 && j.isNone then attAnswer s f o 1 []
  else if m.2.2.2.length != 32 then attAnswer s f o 3 []
  else attAnswer s f o 0 (report s m.2.2.2 j)

/-- GET_REPORT. -/
def execGetReport (f : Nat) (obj : List Byte) (s : State) : Out :=
  let o := obj.map BitVec.toNat
  if 17 ≤ f || !isAtt o 2 then .refused .illFormed else guardNext (doeReady s f) .notRunning (getReport s f o)

/-- K_T (R388 step 3). -/
def tenantKey (x : Job) (ct : List Nat) : List Nat :=
  Config.shake256 (strBytes "ubh tenant" ++ Config.mlkemDecap x.dk ct ++ Config.shake256 x.ek 64) 32

/-- KEY_DELIVER (R388, R389): the decapsulation key is erased. -/
def keyDeliver (s : State) (f : Nat) (o : List Nat) : State :=
  let m := attMsg o
  match attJob s f m.2.1 with
  | none => attAnswer s f o 1 []
  | some j =>
    match jobOf s j with
    | none => attAnswer s f o 1 []
    | some x =>
      if !x.kt.isEmpty then attAnswer s f o 2 []
      else if m.2.2.2.length != 1568 then attAnswer s f o 3 []
      else
        let kt := fitBytes 32 (tenantKey x m.2.2.2)
        attAnswer (setJob s j { x with kt := kt, dk := [] }) f o 0 (Config.shake256 (strBytes "ubh confirm" ++ kt) 32)

/-- KEY_DELIVER. -/
def execKeyDeliver (f : Nat) (obj : List Byte) (s : State) : Out :=
  let o := obj.map BitVec.toNat
  if 17 ≤ f || !isAtt o 3 then .refused .illFormed else guardNext (doeReady s f) .notRunning (keyDeliver s f o)

end Sys2Proof.Machine
end

