-- ==== Sys2Proof/Machine/RegMap.lean ====
section
/-! DEFINITION. Every BAR0 register as a function of the state (20 Tables REG-1 to REG-7; 03 Tables SPI-7 to SPI-10; 10 Tables VLT-8,
VLT-9; 11 Tables NET-5 to NET-8; 12 Tables DET-3, DET-4, DET-6; 13 Tables SCH-9, SCH-10; 14 Tables FAB-8, FAB-9; 15 Table VID-10; 16 Table
HST-3; 18 Table EVR-6; 19 Tables PWR-8 to PWR-11). -/
namespace Sys2Proof.Machine

/-! Identity, capability and global (20 Tables REG-3 to REG-6). -/

/-- PCI Express capabilities (16 Table HST-1). -/
inductive PcieCap where
  | pcie | powerManagement | msix | aer | sriov | ari | serialNumber | resizableBar | doe | dataLinkFeature | phy16 | phy32 | phy64
  | laneMargining
deriving DecidableEq, Repr

/-- A 32-bit mask from a predicate on its bits. -/
def bits32 (p : Nat → Bool) : Nat := sumN ((List.range 32).map fun i => b2n (p i) * 2 ^ i)

/-- DEV_ID. -/
def devId (s : State) : Nat :=
  enspCount s * 2 ^ 48 + (if s.fuse.gradeB then 0x42 else 0x41) * 2 ^ 40 + revision s * 2 ^ 32
    + (if s.fuse.gradeB then 0x0224 else 0x0240) * 2 ^ 16 + 0x1F9C

/-- DEV_FW. -/
def devFw (s : State) : Nat :=
  b2n s.boot.calUser * 2 ^ 51 + b2n s.fuse.debugLock * 2 ^ 50 + s.boot.slot * 2 ^ 48 + s.fuse.rollback * 2 ^ 40 + s.boot.svn * 2 ^ 32
    + s.boot.version

/-- DEV_ENSPn. -/
def devEnsp (s : State) (n : Nat) : Nat := sumN ((List.range 64).map fun i => b2n (spEnabled s (64 * n + i)) * 2 ^ i)

/-- What configuration space says of a function (16 Table HST-1): identifiers, class code, the sizes in bytes that it supports, tag bits, MSI-X
vectors, of SR-IOV the VFs and their stride, the Device Serial Number, the power state (0 D0, 3 D3hot) and No_Soft_Reset, the link's widths in lanes
and rates in tenths of GT/s, which a VF shares, capabilities in the order of the table. -/
structure PcieFn where
  vendor : Nat
  device : Nat
  revision : Nat
  classCode : Nat
  maxPayload : Nat
  maxReadRequest : Nat
  tagBits : Nat
  vectors : Nat
  vfs : Nat
  vfStride : Nat
  serial : Option Nat
  dState : Nat
  noSoftReset : Bool
  widths : List Nat
  rates : List Nat
  caps : List PcieCap
deriving DecidableEq, Repr

/-- Configuration space of a function (16 R357): function 0 is the PF. -/
def pcieFn (s : State) (f : Nat) : PcieFn :=
  { vendor := 0x1F9C, device := if f = 0 then (if s.fuse.gradeB then 0x0224 else 0x0240) else 0x02F0, revision := revision s
    classCode := 0x120000, maxPayload := 512, maxReadRequest := 4096, tagBits := 10, vectors := fnVectors f
    vfs := if f = 0 then 16 else 0, vfStride := if f = 0 then 1 else 0, serial := if f = 0 then some s.fuse.uid else none
    dState := if (fnOf s f).d3hot then 3 else 0, noSoftReset := false, widths := [8, 4, 2, 1], rates := [640, 320, 160, 80, 50, 25]
    caps := if f = 0 then [.pcie, .powerManagement, .msix, .aer, .sriov, .ari, .serialNumber, .resizableBar, .doe, .dataLinkFeature,
        .phy16, .phy32, .phy64, .laneMargining] else [.pcie, .msix, .aer, .ari, .doe] }

/-- In-service pages of a vault (R443). -/
def vaultPages (s : State) (v : Nat) : Nat := if vaultUp s v then 2048 - 32 * vaultK s v else 0

/-- DEV_SERVICE. -/
def devService (s : State) : Nat := bits32 (vaultUp s) * 2 ^ 32 + bits32 (cupUp s)

/-- DEV_MEM; its far-memory fields read zero until ADMIT_READY (R441). -/
def devMem (s : State) : Nat :=
  (if s.boot.admitReady then (farUp s).length * farGib s / 4 * 2 ^ 32 + (farUp s).length * 2 ^ 24 else 0)
    + sumN ((List.range 32).map (vaultPages s))

/-- DEV_CAP0. -/
def devCap0 : Nat := 3840 * 2 ^ 48 + 1024 * 2 ^ 32 + 256 * 2 ^ 16 + 64 * 2 ^ 8 + 1
/-- DEV_CAP1. -/
def devCap1 : Nat := 8192 * 2 ^ 48 + 4 * 2 ^ 40 + 4 * 2 ^ 32 + 16 * 2 ^ 24 + 32 * 2 ^ 16 + 0x1F

/-- GLB_STATUS. -/
def glbStatus (s : State) : Nat :=
  s.glb.badAccess * 2 ^ 32 + b2n s.boot.admitReady * 128 + b2n s.boot.calValid * 64 + s.boot.storeBank * 16 + b2n s.boot.warm * 8

/-- The identity and global block. -/
def regIdent (s : State) (o : Nat) : Nat :=
  match o / 8 with
  | 0 => devId s
  | 1 => s.fuse.uid
  | 2 => devFw s
  | 3 => s.fuse.romVersion
  | 4 => devEnsp s 0
  | 5 => devEnsp s 1
  | 6 => devEnsp s 2
  | 7 => devEnsp s 3
  | 8 => devService s
  | 9 => devMem s
  | 10 => devCap0
  | 11 => devCap1
  | 12 => glbStatus s
  | 14 => s.glb.scratch
  | _ => 0

/-! The host block (16 Table HST-3). -/

/-- A register of a function's host block. -/
def regHost (s : State) (f o : Nat) : Nat :=
  let x := fnOf s f
  match o / 8 with
  | 0 => x.asq
  | 1 => x.acq
  | 2 => x.acqLog * 2 ^ 16 + x.asqLog * 2 ^ 8 + b2n x.en
  | 3 => allotOf s f * 2 ^ 48 + x.qps.length * 2 ^ 32 + b2n x.err * 2 + b2n x.rdy
  | 4 => x.bar4Miss * 2 ^ 48 + x.evDropped * 2 ^ 32 + x.dbDropped
  | 5 => x.bar4
  | _ => 0

/-! The event recorder (18 Tables EVR-2, EVR-6). -/

/-- EVR_DATAk: bytes 4k to 4k + 3 of the record at INDEX; zero past the end (R400). -/
def evrData (s : State) (k : Nat) : Nat :=
  match (evrLog s.evr)[s.evr.index]? with
  | some r => recFld (recBytes r) (4 * k) 4
  | none => 0

/-- The 32-bit register at 4i of the event recorder block. -/
def evr32 (s : State) (i : Nat) : Nat :=
  let e := s.evr
  match i with
  | 0 => e.index
  | 1 => (evrLog e).length
  | 2 => b2n e.frozen * 2 ^ 31 + b2n e.flashFail * 2 ^ 30 + e.held.length * 2 ^ 15 + ((evrLog e).filter fun r => r.sev = 3).length
  | 3 => e.hold * 2 ^ 16 + e.full
  | 4 => opSecs s / 3600
  | 5 => s.boot.pcyc
  | _ => if 8 ≤ i && i < 16 then evrData s (i - 8) else 0

/-! Scheduler, power, video, fabric, far memory. -/

/-- The SUBMITs of a job that the lantern has read and not carried out. -/
def readSubmits (s : State) (x : Job) : Nat :=
  (s.fetched.filter fun k => k.fn == x.fn && k.qp != 0 && fld k.e.toNat 7 0 == 0x40 && hdrJob k.e == x.handle).length

/-- Requests of a class not completed: LC ones accepted, BE ones read. -/
def reqsOf (s : State) (lc : Bool) : Nat :=
  sumN ((s.jobs.filter fun k => k.2.lc == lc).map fun k =>
    k.2.queue.length + b2n k.2.running.isSome + k.2.enders.length + if lc then 0 else readSubmits s k.2)

/-- The scheduler block (13 Tables SCH-9, SCH-10). -/
def regSched (s : State) (o : Nat) : Nat :=
  match o / 8 with
  | 0 => s.quantum
  | 1 => (s.groups.filter fun g => 1 < g.2.jobs.length).length * 2 ^ 48 + reqsOf s true * 2 ^ 32 + reqsOf s false * 2 ^ 16
  | 2 => s.models.length * 2 ^ 48 + sumN (s.models.map fun m => m.2.frames.length) * 2 ^ 32 + (framesFree s []).length * 2 ^ 16
  | _ => 0

/-- PWR_CTRL (19 Table PWR-8): SHUTDOWN reads 1 until QUIESCED. -/
def pwrCtrl (s : State) : Nat := s.power.plimit * 2 ^ 32 + b2n (s.power.shutdown && !s.power.quiesced)

/-- PWR_STATUS (19 Table PWR-9). -/
def pwrStatus (s : State) : Nat :=
  let p := s.power
  p.alert * 2 ^ 56 + p.clampUs * 2 ^ 40 + p.devLevel * 2 ^ 36 + p.pkgW * 2 ^ 20 + b2n p.quiesced * 2 + b2n (fwUp s)

/-- ALERT_N is low while a cause bit is 1 (19 R433). -/
def alertN (s : State) : Bool := s.power.alert = 0

/-- PWR_GATEn (19 Table PWR-10). -/
def pwrGate (s : State) (n : Nat) : Nat :=
  let g := gateOf s n
  g.refused * 2 ^ 16 + g.st * 4 + b2n g.pend * 2 + b2n g.en

/-- THERM_CUPn (19 Table PWR-11). -/
def thermCup (s : State) (n : Nat) : Nat :=
  let t := thermOf s n
  (t.tDram % 65536).toNat * 2 ^ 48 + (t.tDie % 65536).toNat * 2 ^ 32 + t.throtMs * 2 ^ 8 + levelTarget s n * 16 + t.tl

/-- The power block. -/
def regPower (s : State) (o : Nat) : Nat :=
  if o = 0 then pwrCtrl s else if o = 8 then pwrStatus s
  else if 0x40 ≤ o && o < 0x40 + 8 * 104 then pwrGate s ((o - 0x40) / 8)
  else if 0x400 ≤ o && o < 0x500 then thermCup s ((o - 0x400) / 8) else 0

/-- VID_ENGn.STATE (15 Table VID-10): a switch takes 6 µs, the first 3 of them for saving, where there is a context to save (R345; log 9). -/
def engState (s : State) (e : Engine) : Nat :=
  if e.run.isNone || !e.loads || e.since + 6 ≤ s.now then e.st else if e.saves && s.now < e.since + 3 then 5 else 1

/-- The video block (15 Table VID-10); zero after loss of lock in the video island (R440). -/
def regVideo (s : State) (o : Nat) : Nat :=
  let v := s.video
  let run := (v.engines.filter fun e => e.2.run.isSome).length
  if s.power.videoOut then 0
  else if o = 0 then
    v.streams.length * 2 ^ 48 + min ((v.queue.filter fun f => f.rel.isNone && !f.close).length + run) 65535 * 2 ^ 32 + v.lost * 2 ^ 16
  else
    let e := tget {} v.engines (o / 8 - 1)
    e.frames * 2 ^ 32 + min e.switches 255 * 2 ^ 24 + e.ctx * 2 ^ 16 + engState s e

/-- The code of a port state (14 Table FAB-8). -/
def portCode : PortState → Nat
  | .down => 0
  | .training => 1
  | .link => 2
  | .ready => 3
  | .mismatch => 4
  | .disabled => 5

/-- A register of a port block (14 Tables FAB-8, FAB-9). -/
def regPort (p : Port) (o : Nat) : Nat :=
  match o / 8 with
  | 0 => b2n p.noDegrade * 128 + p.media * 4 + b2n p.en
  | 1 => p.fa * 2 ^ 48 + p.gen % 65536 * 2 ^ 32 + p.width * 16 + portCode p.st
  | 2 => p.w3 * 2 ^ 16 + p.w2 * 2 ^ 8 + p.w1
  | 3 => p.retries * 2 ^ 32 + p.fcsErr
  | 4 => p.stray * 2 ^ 32 + p.linkDowns
  | 5 => p.swRefused * 2 ^ 32 + p.swGranted
  | _ => 0

/-- The fabric block. -/
def regFabric (s : State) (o : Nat) : Nat :=
  if o = 0 then s.etherType * 2 ^ 32 + b2n s.vlanEn * 2 ^ 31 + s.vlanId * 2 ^ 16
  else if 0x40 ≤ o then regPort (portOf s (o / 64 - 1)) (o % 64) else 0

/-- The far-memory block. -/
def regFar (s : State) (o : Nat) : Nat :=
  if o = 0 then s.ueFence else if 0x200 ≤ o then farChanReg s ((o - 0x200) / 8) else 0

/-! MSI-X table and pending bits (PCI Express; log 30). -/

/-- A 4-byte word of the PF's MSI-X table. -/
def msix32 (s : State) (i : Nat) : Nat :=
  if i % 4 = 3 then b2n (!(fnOf s 0).openv.contains (i / 4)) else tget 0 (fnOf s 0).msixT i

/-- 64 pending bits. -/
def msixPend (s : State) (i : Nat) : Nat := sumN ((List.range 64).map fun k => b2n ((fnOf s 0).pendv.contains (64 * i + k)) * 2 ^ k)

/-! Per-instance blocks. -/

/-- The code of a spire state (03 Table SPI-5). -/
def spCode : SpState → Nat
  | .off => 0
  | .idle => 1
  | .loading => 2
  | .running => 3
  | .blocked => 4
  | .saving => 5
  | .halted => 6
  | .faulted => 7

/-- The registers of a spire (03 Tables SPI-7 to SPI-10). -/
def regSpire (s : State) (p o : Nat) : Nat :=
  let x := spOf s p
  match o / 8 with
  | 0 => b2n (spEnabled s p) * 2 ^ 19 + (if spEnabled s p then (enabledIn s (p / 8)).idxOf p else 0) * 2 ^ 16 + p % 8 * 2 ^ 13
      + p / 8 * 2 ^ 8 + p
  | 1 => b2n x.compatReg * 128 + b2n x.saveReq * 4
  | 2 => x.logRun * 2 ^ 24 + x.logOther * 2 ^ 16 + b2n (1 < x.progs.length) * 2 ^ 15 + x.infl.length * 2 ^ 11 + spCode x.st
  | 3 => x.cycles
  | 4 => x.eccBank * 2 ^ 35 + x.eccSrc * 2 ^ 32 + x.eccCnt
  | 5 => x.stalls
  | 6 => x.hangShift
  | _ => x.param % 2 ^ 32 * 2 ^ 32 + x.cause

/-- The determinism registers of a spire (12 Tables DET-3, DET-4). -/
def regDet (s : State) (p o : Nat) : Nat :=
  let x := spOf s p
  match o / 8 with
  | 0 => x.ord
  | 1 => x.place
  | 2 => x.ordSwred * 2 ^ 32 + x.ordContests
  | _ => x.plStolen * 2 ^ 32 + x.plChanges

/-- The registers of a slice (09 Table MEM-4, 20 Table REG-7). -/
def regSlice (s : State) (sl o : Nat) : Nat :=
  let x := tget {} s.slices sl
  if o < 0x40 then tget 0 s.dsPart (sl * 8 + o / 8)
  else if o = 0x40 then x.ce * 2 ^ 48 + x.ueClean * 2 ^ 32 + x.ueCount * 2 ^ 16 + b2n x.conflict
  else if o = 0x48 then x.ueReg else 0

/-- VLT_CHANn (10 Table VLT-8). -/
def vltChan (s : State) (v c : Nat) : Nat :=
  let x := vchOf s v c
  let f := fun (l : Option Nat) => match l with
    | some i => 128 + i
    | none => 0
  x.ue * 2 ^ 48 + x.ce * 2 ^ 24 + f x.f1 * 2 ^ 10 + f x.f0 * 2 ^ 2 + b2n (layerOf s v (c / 16)).hot * 2 + b2n x.dis

/-- VLT_STATUS (20 Table REG-7). OFFLINE reads 0 until training has told which vaults are in service. -/
def vltStatus (s : State) (v : Nat) : Nat :=
  b2n ((List.range 4).any fun l => (layerOf s v l).hot) * 2 ^ 25 + b2n (s.boot.trained && !vaultUp s v) * 2 ^ 24 + vaultK s v * 2 ^ 16
    + vaultPages s v

/-- The registers of a vault. -/
def regVault (s : State) (v o : Nat) : Nat :=
  if o < 0x200 then vltChan s v (o / 8) else if o = 0x200 then vltStatus s v
  else if o = 0x208 then (tget {} s.vaults v).ueReg else 0

/-- ARB_CFG as it reads: the value last written. -/
def arbCfg (x : Arb) : Nat :=
  let y := match x.next with
    | some v => arbLoad x v
    | none => x
  y.burst * 2 ^ 40 + y.winLog * 2 ^ 27 + b2n y.ie * 2 ^ 24 + y.thr

/-- The registers of an arbiter instance (11 Tables NET-5 to NET-7); one that is absent, or in a cupola uncore out of service, reads zero
(20 R438, R440). -/
def regArb (s : State) (a o : Nat) : Nat :=
  let x := arbOf s a
  if !arbPresent a || (arbCup a).any (uncoreOut s) then 0
  else
    match o / 8 with
    | 0 => arbCfg x
    | 1 => x.cur * 2 ^ 32 + x.flags
    | 2 => x.dead * 2 ^ 48 + x.pqFull * 2 ^ 32 + x.grants
    | _ => 0

/-- A 4-byte read of the upper or the lower half of an 8-byte register (R439). -/
def halfOf (v off : Nat) : Nat := if off % 8 = 4 then v / 2 ^ 32 else v % 2 ^ 32

/-- The 64-bit register at an offset of the PF's BAR0 (Tables REG-1, REG-2); zero where the tables list none. -/
def bar0Read (s : State) (o : Nat) : Nat :=
  if o < 0x1000 then (if o < 0x78 then regIdent s o else 0)
  else if o < 0x1040 then regHost s 0 (o - 0x1000)
  else if 0x2000 ≤ o && o < 0x2040 then evr32 s ((o - 0x2000) / 4) + evr32 s ((o - 0x2000) / 4 + 1) * 2 ^ 32
  else if 0x3000 ≤ o && o < 0x3020 then regSched s (o - 0x3000)
  else if 0x4000 ≤ o && o < 0x4200 then jobCtrl s ((o - 0x4000) / 8)
  else if 0x5000 ≤ o && o < 0x5500 then regPower s (o - 0x5000)
  else if o = 0x6000 then s.netMode
  else if 0x7000 ≤ o && o < 0x7028 then regVideo s (o - 0x7000)
  else if 0x8000 ≤ o && o < 0x8140 then regFabric s (o - 0x8000)
  else if 0x9000 ≤ o && o < 0x9400 then regFar s (o - 0x9000)
  else if 0x10000 ≤ o && o < 0x14000 then msix32 s ((o - 0x10000) / 4) + msix32 s ((o - 0x10000) / 4 + 1) * 2 ^ 32
  else if 0x14000 ≤ o && o < 0x14080 then msixPend s ((o - 0x14000) / 8)
  else if 0x20000 ≤ o && o < 0x24000 then
    (if uncoreOut s ((o - 0x20000) / 512) then 0 else regSpire s ((o - 0x20000) / 64) (o % 64))
  else if 0x24000 ≤ o && o < 0x26000 then
    (if uncoreOut s ((o - 0x24000) / 256) then 0 else regDet s ((o - 0x24000) / 32) (o % 32))
  else if 0x30000 ≤ o && o < 0x31000 then
    (if uncoreOut s ((o - 0x30000) / 128) then 0 else regSlice s ((o - 0x30000) / 128) (o % 128))
  else if 0x40000 ≤ o && o < 0x48000 then
    (if uncoreOut s ((o - 0x40000) / 1024) then 0 else regVault s ((o - 0x40000) / 1024) (o % 1024))
  else if 0x100000 ≤ o && o < 0x100000 + 32 * 2404 then regArb s ((o - 0x100000) / 32) (o % 32)
  else 0

end Sys2Proof.Machine
end

