-- ==== Sys2Proof/Machine/Regs.lean ====
section
/-! DEFINITION. Register writes through BAR0 (20 R437 to R442 and the access rules of each block). Writer 17 is the lantern, which alone
writes most registers; 0 to 16 are the host functions. -/
namespace Sys2Proof.Machine

/-- Is an access of a legal size and alignment (R439)? -/
def accessOk (off size : Nat) : Bool := (size = 4 || size = 8) && off % size = 0

/-- The size of a function's BAR0 (16 Table HST-2). -/
def bar0Size (f : Nat) : Nat := if f = 0 || f = 17 then 0x2000000 else 0x10000

/-- BAR0_BAD_ACCESS (R439): it completes successfully, reads zero or writes nothing, and is counted. -/
def execBar0BadAccess (f off size : Nat) (_write : Bool) (s : State) : Out :=
  if 17 ≤ f || accessOk off size || size = 0 || bar0Size f ≤ off then .refused .illFormed
  else guardNext (hostUp s && fnUp s f) .notRunning { s with glb := { s.glb with badAccess := satAdd 32 s.glb.badAccess 1 } }

/-! The host block (16 R359, R360, Table HST-3). -/

/-- LOG2 of an admin ring: 6 to 12, else 6. -/
def adminLog (v : Nat) : Nat := if 6 ≤ v && v ≤ 12 then v else 6

/-- HST_ACTRL written: sizes are kept while EN is 1, then EN acts. -/
def hstCtrl (s : State) (f v : Nat) : State :=
  let s := if (fnOf s f).en then s
    else modFn s f fun x => { x with acqLog := adminLog (fld v 20 16), asqLog := adminLog (fld v 12 8) }
  if bitOf v 0 then adminEnable s f else adminDisable s f

/-- A host-block register written by its function. -/
def hostRegWrite (s : State) (f o v : Nat) : State :=
  match o / 8 with
  | 0 => if (fnOf s f).en then s else modFn s f fun x => { x with asq := v / 4096 * 4096 }
  | 1 => if (fnOf s f).en then s else modFn s f fun x => { x with acq := v / 4096 * 4096 }
  | 2 => hstCtrl s f v
  | 5 =>
    if f != 0 || fld v 47 21 * 2 ^ 21 % bar4Size s != 0 then s
    else modFn s 0 fun x => { x with bar4 := fld v 63 48 * 2 ^ 48 + fld v 47 21 * 2 ^ 21 + v % 2 }
  | _ => s

/-! Registers that the PF may write. -/

/-- A word of the MSI-X table written; a vector unmasked with its bit pending sends its message (PCI Express; log 30). -/
def msixWrite (s : State) (i v : Nat) : State :=
  if i % 4 != 3 then modFn s 0 fun x => { x with msixT := tset x.msixT i v }
  else
    let n := i / 4
    let x := fnOf s 0
    if v % 2 = 1 then setFn s 0 { x with openv := x.openv.erase n }
    else
      let s := setFn s 0 { x with openv := if x.openv.contains n then x.openv else x.openv ++ [n], pendv := x.pendv.erase n }
      if x.pendv.contains n then msix s 0 n else s

/-- PWR_STATUS.ALERT_CAUSE, W1C (19 R433). -/
def alertClear (s : State) (mask : Nat) : State :=
  { s with power := { s.power with alert := s.power.alert - (s.power.alert &&& mask) } }

/-- An 8-byte write by the PF outside its host block; all other registers discard it (R440). `halves` says which 4-byte halves were
written. -/
def pfRegWrite (s : State) (o v : Nat) (lo hi : Bool) : State :=
  if o = 0x70 then { s with glb := { s.glb with scratch := v } }
  else if o = 0x2000 then (if lo then { s with evr := { s.evr with index := v % 2 ^ 15 } } else s)
  else if o = 0x5000 then (if lo && bitOf v 0 then doShutdown s else s)
  else if o = 0x5008 then alertClear s (fld v 63 56)
  else if 0x10000 ≤ o && o < 0x14000 then
    let i := (o - 0x10000) / 4
    let s := if lo then msixWrite s i (v % 2 ^ 32) else s
    if hi then msixWrite s (i + 1) (v / 2 ^ 32) else s
  else s

/-! Registers that the lantern writes. -/

/-- SPIRE_CTRL: CLEAR, RUN, SAVE_REQ in this order (03 R92); SFN_COMPAT first, so that a RUN of the same write takes it (DESIGN CHOICE,
log 59). -/
def spireCtrl (s : State) (p v : Nat) : State :=
  let s := modSp s p fun x => compatX x (bitOf v 7)
  let s := if bitOf v 0 then clearReg s p else s
  let s := if bitOf v 1 then modSp s p runReg else s
  if bitOf v 2 then modSp s p saveReqX else s

/-- FAB_PCFG: a change of EN goes through the port's gate; a change of MEDIA takes the port down (14 R335). -/
def fabPcfg (s : State) (pi v : Nat) : State :=
  let media := (portOf s pi).media
  let s := modPort s pi fun p => { p with noDegrade := bitOf v 7, media := fld v 3 2 }
  let s := if fld v 3 2 = media then s else linkLost s pi
  portGate (gateWrite s (36 + pi) (bitOf v 0)) (36 + pi)

/-- A fabric register (14 Tables FAB-8, FAB-9). -/
def fabRegWrite (s : State) (o v : Nat) : State :=
  if o = 0 then { s with etherType := fld v 47 32, vlanEn := bitOf v 31, vlanId := fld v 27 16 }
  else if o < 0x40 then s
  else if o % 64 = 0 then fabPcfg s (o / 64 - 1) v
  else if o % 64 = 0x10 then
    modPort s (o / 64 - 1) fun p => { p with w3 := max 1 (fld v 23 16), w2 := max 1 (fld v 15 8), w1 := max 1 (fld v 7 0) }
  else s

/-- Is a spire of the job of a handle RUNNING, BLOCKED or SAVING? -/
def jobBusy (s : State) (h : Nat) : Bool :=
  (slotOf s h).any fun j => (jobOf s j).any fun x => (jobSpires x).any fun p =>
    (spOf s p).job == some j && ((spOf s p).st == .running || (spOf s p).st == .blocked || (spOf s p).st == .saving)

/-- A slice register (09 R220, 20 Table REG-7); a partition register is written only while its job's spires are still. -/
def sliceRegWrite (s : State) (sl o v : Nat) : State :=
  if o < 0x40 then
    if jobBusy s (fld v 47 32) || jobBusy s (fld (tget 0 s.dsPart (sl * 8 + o / 8)) 47 32) then s
    else partWrite s sl (o / 8) (setFld (setFld (setFld v 63 48 0) 30 16 0) 11 9 0)
  else if o = 0x40 && bitOf v 0 then { s with slices := tmod {} s.slices sl fun x => { x with conflict := false } }
  else if o = 0x48 && ueValid v then { s with slices := tmod {} s.slices sl fun x => { x with ueReg := ueClear x.ueReg } }
  else s

/-- The flags, counts and configuration of an arbiter (11 R272). -/
def arbRegWrite (s : State) (a o v : Nat) : State :=
  let x := arbOf s a
  if !arbPresent a || (arbCup a).any (uncoreOut s) then s
  else if o = 0 then { s with arbs := tset s.arbs a { x with next := some v } }
  else if o = 8 && v % 2 ^ 32 != 0 then
    { s with arbs := tset s.arbs a { x with flags := x.flags - (x.flags &&& v % 2 ^ 32), dead := 0, pqFull := 0, grants := 0 } }
  else s

/-- A power register (19 Tables PWR-8 to PWR-10): PLIMIT is held in 600 to 1,600; a gate is written as the table of R419 allows, and another write of it
is discarded (log 58). -/
def powerRegWrite (s : State) (o v : Nat) : State :=
  if o = 0 then
    let s := { s with power := { s.power with plimit := min 1600 (max 600 (fld v 47 32)) } }
    if bitOf v 0 then doShutdown s else s
  else if o = 8 then alertClear s (fld v 63 56)
  else if 0x40 ≤ o && o < 0x40 + 8 * 104 then
    let n := (o - 0x40) / 8
    if gateMay s n (bitOf v 0) then portGate (gateWrite s n (bitOf v 0)) n else s
  else s

/-- HANG_SHIFT is held in 20 to 40 (03 Table SPI-10). -/
def hangWrite (s : State) (p v : Nat) : State := modSp s p fun x => { x with hangShift := min 40 (max 20 (v % 64)) }

/-- JOB_CTRL (12 R281): while VALID is 1 a write is discarded unless it clears VALID. -/
def jobRegWrite (s : State) (j v : Nat) : State :=
  if bitOf (tget 0 s.jobRegs j) 0 && bitOf v 0 then s
  else { s with jobRegs := tset s.jobRegs j (fld v 63 48 * 2 ^ 48 + v % 32) }

/-- An 8-byte write by the lantern. -/
def lanternRegWrite (s : State) (o v : Nat) : State :=
  if 0x4000 ≤ o && o < 0x4200 then jobRegWrite s ((o - 0x4000) / 8) v
  else if o = 0x3000 then { s with quantum := max 1 (v % 65536) }
  else if 0x5000 ≤ o && o < 0x5500 then powerRegWrite s (o - 0x5000) v
  else if o = 0x6000 then { s with netMode := v % 4 }
  else if 0x8000 ≤ o && o < 0x8140 then fabRegWrite s (o - 0x8000) v
  else if o = 0x9000 then { s with ueFence := max 1 (v % 16) }
  else if 0x20000 ≤ o && o < 0x24000 then
    let p := (o - 0x20000) / 64
    if uncoreOut s (p / 8) then s else if o % 64 = 8 then spireCtrl s p v else if o % 64 = 0x30 then hangWrite s p v else s
  else if 0x30000 ≤ o && o < 0x31000 then
    (if uncoreOut s ((o - 0x30000) / 128) then s else sliceRegWrite s ((o - 0x30000) / 128) (o % 128) v)
  else if 0x40000 ≤ o && o < 0x48000 then
    (let n := (o - 0x40000) / 1024
     if o % 1024 = 0x208 && ueValid v && !uncoreOut s n then { s with vaults := tmod {} s.vaults n fun x => { x with ueReg := ueClear x.ueReg } } else s)
  else if 0x100000 ≤ o && o < 0x100000 + 32 * 2404 then arbRegWrite s ((o - 0x100000) / 32) (o % 32) v
  else s

/-! A write of 4 or 8 bytes. -/

/-- The 64-bit register of a writer at an 8-byte offset. -/
def regCur (s : State) (f o : Nat) : Nat := if f = 0 || f = 17 then bar0Read s o else if o < 0x40 then regHost s f o else 0

/-- A write as an 8-byte write whose other half carries the value that the register holds (R439). -/
def regWrite (s : State) (f off size v : Nat) : State :=
  let o := off / 8 * 8
  let cur := regCur s f o
  let w := if size = 8 then v else if off % 8 = 4 then v * 2 ^ 32 + cur % 2 ^ 32 else cur / 2 ^ 32 * 2 ^ 32 + v
  let lo := size = 8 || off % 8 = 0
  let hi := size = 8 || off % 8 = 4
  if f = 17 then lanternRegWrite s o w
  else if f = 0 then (if 0x1000 ≤ o && o < 0x1040 then hostRegWrite s 0 (o - 0x1000) w else pfRegWrite s o w lo hi)
  else if o < 0x40 then hostRegWrite s f o w else s

/-- REGISTER_WRITE (R439): by a host function, or by the lantern as writer 17. -/
def execRegisterWrite (f off size v : Nat) (s : State) : Out :=
  if 18 ≤ f || !accessOk off size || 2 ^ (8 * size) ≤ v || bar0Size f ≤ off then .refused .illFormed
  else guardNext (fwUp s && (f = 17 || (hostUp s && fnUp s f))) .notRunning (regWrite s f off size v)

end Sys2Proof.Machine
end

