-- ==== Sys2Proof/Machine/Mgmt.lean ====
section
/-! DEFINITION. The management pair and the flash behind it (21 R449; 18 R404), and the JTAG port (17 R393). `boot.mgmt` is what the next
private read returns. -/
namespace Sys2Proof.Machine

/-- The stage byte of STATUS (Table PKG-4). -/
def stageByte (s : State) : Nat :=
  match s.boot.stage with
  | .rom => 0
  | .recovery => 1
  | .firmware => if s.power.quiesced then 3 else 2
  | .fault => 2
  | .off | .stopped => 0

/-- Does the management pair answer: power is good and no trip has stopped the lantern? -/
def mgmtUp (s : State) : Bool := s.boot.pwrgd && s.boot.stage != .stopped

/-- Is a flash command of the pair under way, or does one wait for PERST_N? -/
def flashDue (s : State) : Bool := replyDue s || !s.boot.mgmtQ.isEmpty

/-- Does firmware run: a device fault has not reset it yet either (19 R430)? -/
def fwRuns (s : State) : Bool := fwUp s || s.boot.stage == .fault

/-- MGMT_STATUS (R449): the status byte is busy while a flash command of the pair is (DEDUCED, log 43). -/
def execMgmtStatus (s : State) : Out :=
  guardNext (mgmtUp s) .notRunning (mgmtReply s ([b2n (flashDue s), stageByte s] ++ leBytes 4 s.boot.version))

/-- MGMT_SHUTDOWN (R449, 19 R427): refused before firmware runs. -/
def execMgmtShutdown (s : State) : Out :=
  guardNext (mgmtUp s) .notRunning (if fwRuns s then mgmtReply (doShutdown s) [0] else mgmtReply s [2])

/-- Flash addresses that the pair accepts: the firmware slots. -/
def slotRange (a n : Nat) : Bool := a + n ≤ 0x1000000

/-- A flash command of the pair: accepted while firmware runs and where its condition holds, else refused (R449). Until PERST_N is deasserted the
device drives no QSPI pin (19 R417): the command waits and the status is 01h, busy. -/
def flashCmd (s : State) (ok : Bool) (c : FlashCmd) : State :=
  if !fwRuns s || !ok then mgmtReply s [2]
  else if s.boot.perstN then flashDo s c
  else { s with boot := { s.boot with mgmtQ := s.boot.mgmtQ ++ [c], mgmt := [1] } }

/-- FLASH_READ (R449). -/
def execFlashRead (addr len : Nat) (s : State) : Out :=
  if 2 ^ 32 ≤ addr || 2 ^ 16 ≤ len then .refused .illFormed
  else guardNext (mgmtUp s) .notRunning (flashCmd s (1 ≤ len && len ≤ 256 && slotRange addr len) (.read addr len))

/-- FLASH_ERASE (R449). -/
def execFlashErase (addr : Nat) (ok : Bool) (s : State) : Out :=
  if 2 ^ 32 ≤ addr then .refused .illFormed
  else guardNext (mgmtUp s) .notRunning (flashCmd s (addr % 65536 = 0 && slotRange addr 65536) (.erase addr ok))

/-- FLASH_PROGRAM (R449). -/
def execFlashProgram (addr : Nat) (bytes : List Byte) (ok : Bool) (s : State) : Out :=
  if 2 ^ 32 ≤ addr || 256 < bytes.length then .refused .illFormed
  else guardNext (mgmtUp s) .notRunning
    (flashCmd s (!bytes.isEmpty && slotRange addr bytes.length) (.program addr (bytes.map BitVec.toNat) ok))

/-- RECOVERY_DATA (R449): bytes into the image buffer, in recovery mode. -/
def execRecoveryData (off : Nat) (bytes : List Byte) (s : State) : Out :=
  if 2 ^ 32 ≤ off || 256 < bytes.length then .refused .illFormed
  else guardNext (mgmtUp s) .notRunning
    (if s.boot.stage = .recovery && !bytes.isEmpty then
       { s with boot := { s.boot with recImg := Memory.put (fun _ => some 0) s.boot.recImg off (bytes.map BitVec.toNat), mgmt := [0] } }
     else mgmtReply s [2])

/-! The sideband outputs (21 R445, Table PKG-2). -/

/-- What an output does: high-impedance, low, high, or driven by its protocol. -/
inductive PinLevel where
  | z
  | low
  | high
  | driven
deriving DecidableEq, Repr

/-- The sideband outputs of Table PKG-2; QSPI and AVS stand for their pins. -/
inductive OutPin where
  | alertN
  | faultN
  | thermtripN
  | presentN
  | i3cSda
  | qspi
  | uartTx
  | tdo
  | avs
deriving DecidableEq, Repr

/-- The outputs in their order. -/
def OutPin.all : List OutPin := [.alertN, .faultN, .thermtripN, .presentN, .i3cSda, .qspi, .uartTx, .tdo, .avs]

/-- What the boundary scan drives onto an output (R445); TDO and PRESENT_N are no cells of it. -/
def scanDrive (s : State) (p : OutPin) : Option Bool :=
  if s.boot.jtagOn && Config.jtagScan s.boot.jtagIr && p != .tdo then Config.jtagDrive s.boot.jtagIr s.boot.jtagDr (OutPin.all.idxOf p) else none

/-- An output's level. PRESENT_N is joined to VSS in the package; every other output is high-impedance while PWRGD is low and
while VDD_IO is outside its tolerance; a boundary scan may drive an output. An open-drain output is
low or released. The device drives the QSPI pins until the ROM has copied what it needs, and again from PERST_N deassertion (19 R417 step 3). TDO is
driven only while a scan shifts, which is inside one command. -/
def pinOut (s : State) (p : OutPin) : PinLevel :=
  let od := fun (up : Bool) => if up then PinLevel.z else .low
  if p = .presentN then .low
  else if !s.boot.pwrgd || s.power.ioOut then .z
  else
    match scanDrive s p with
    | some b => if b then .high else .low
    | none => match p with
      | .alertN => od (alertN s)
      | .faultN => od s.boot.faultN
      | .thermtripN => od s.boot.thermtripN
      | .qspi => if s.boot.stage == .rom || ((fwUp s || s.boot.stage == .fault) && s.boot.perstN) then .driven else .z
      | .avs => if fwUp s then .driven else .z
      | .uartTx => .driven
      | .i3cSda | .tdo | .presentN => .z

/-! JTAG (17 R393; 21 R445). -/

/-- A level as a number. -/
def PinLevel.code : PinLevel → Nat
  | .z => 0
  | .low => 1
  | .high => 2
  | .driven => 3

/-- The sideband pins that a scan captures: the outputs' levels, then the inputs PERST_N, PWRGD and STRAP_BOOT. -/
def pinsNow (s : State) : List Nat :=
  OutPin.all.map (fun p => (pinOut s p).code) ++ [b2n s.boot.perstN, b2n s.boot.pwrgd, s.boot.strap]

/-- JTAG_BOUNDARY_SCAN (R393, R445): the pins are captured, what TDO shifts out is held, the TAP's instruction and data registers are loaded, and a
boundary-scan instruction drives the outputs that it selects (`pinOut`). With DEBUG_LOCK an instruction that is none of those of IEEE 1149.1 and
1149.6 selects the bypass register, of one bit, which captures 0, and reaches nothing (log 46). -/
def execJtagBoundaryScan (ir dr : Nat) (s : State) : Out :=
  let locked := s.fuse.debugLock && !Config.jtagScan ir
  guardNext s.boot.pwrgd .notRunning
    { s with boot := { s.boot with
        jtagIr := ir, jtagDr := if locked then dr % 2 else dr, jtagOn := true
        jtagTdo := if locked then 0 else Config.jtagOut ir s.boot.jtagDr (pinsNow s) } }

/-! The wire form of the pair (R449). -/

/-- The target's static address, as an I3C target and, without a dynamic address, as an I2C target. -/
def mgmtAddr : Nat := 0x2C

/-- The command that a private write to the pair spells: its code, then its payload, little-endian (Table PKG-4). How an erase or a program ends, and
which lanes fail in a recovery boot, is the environment's. -/
def mgmtCmd (bs : List Nat) : Option Instr :=
  match nth bs 0, bs.length with
  | 0x01, 1 => some .mgmtStatus
  | 0x02, 1 => some .mgmtShutdown
  | 0x10, 7 => some (.flashRead (recFld bs 1 4) (recFld bs 5 2))
  | 0x11, 5 => some (.flashErase (recFld bs 1 4) true)
  | 0x12, n => if 6 ≤ n && n ≤ 261 then some (.flashProgram (recFld bs 1 4) ((bs.drop 5).map (BitVec.ofNat 8)) true) else none
  | 0x20, n => if 6 ≤ n && n ≤ 261 then some (.recoveryData (recFld bs 1 4) ((bs.drop 5).map (BitVec.ofNat 8))) else none
  | 0x21, 5 => some (.mgmtRecoveryBoot (recFld bs 1 4) { val := [] })
  | _, _ => none

end Sys2Proof.Machine
end

