-- ==== Sys2Proof/Machine/Yield.lean ====
section
/-! DEFINITION. Yieldable scratch pages and the partition registers as a co-tenant group changes its holder (09 R220; 13 R287, R294). -/
namespace Sys2Proof.Machine

/-- The cells and free ranges of one page of a store. -/
def pageOf (st : Store) (pa : Nat) : Store :=
  let n := 2 ^ 21
  { cells := st.cells.filter fun c => pa ≤ c.1 && c.1 < pa + n
    free := st.free.filterMap fun r =>
      let a := max r.1 pa
      let e := min (r.1 + r.2.1) (pa + n)
      if a < e then some (a, e - a, r.2.2) else none }

/-- The page at `a` copied to the page at `b`: its free ranges, oldest first, then its written bytes (log 23). -/
def copyPage (st : Store) (a b : Nat) : Store :=
  let pg := pageOf st a
  let z := pg.free.reverse.foldl (fun st r => st.mark (r.1 - a + b) r.2.1 r.2.2) (st.mark b (2 ^ 21) 0)
  pg.cells.foldl (fun st c => st.put (c.1 - a + b) [c.2.toNat]) z

/-- The backing page of a job's scratch page `n`. -/
def backOf (x : Job) (n : Nat) : Nat := vaultPa (nth x.backs (x.dsp.idxOf n))

/-- Step 2 of R294 for one page that goes to job `j`: what the job that has it holds there is written back to that job's backing page. -/
def pageOut (s : State) (j n : Nat) : State :=
  match s.jobs.find? fun k => k.1 != j && k.2.dsp.contains n && !k.2.away.contains n with
  | none => s
  | some (i, o) =>
    modJob { s with mem := copyPage s.mem (scratchPa (n / 4) (n % 4)) (backOf o n), wbulk := bulkAdd s (backOf o n) (2 ^ 21) } i fun y => { y with away := y.away ++ [n] }

/-- One page comes to job `j`: loaded from its backing page, or zero for a fresh dispatch. -/
def pageIn (s : State) (x : Job) (keep : Bool) (n : Nat) : State :=
  let pa := scratchPa (n / 4) (n % 4)
  if keep then { s with mem := copyPage s.mem (backOf x n) pa } else zeroMem s pa (2 ^ 21)

/-- The words of a job's ring control blocks that come from the plan, its rings empty (13 t_disp of R290). -/
def ringsFresh (s : State) (j : Nat) (x : Job) : State := x.plan.rings.foldl (fun s r => ringWords s j r) (resetRings s j)

/-- A job gets the pages of its own that are away: their holders' issued writes are performed and the pages written back, then they are
loaded (`keep`, a restore), or zeroed with the ring control blocks rewritten (a fresh dispatch). -/
def takePages (s : State) (j : Nat) (keep : Bool) : State :=
  match jobOf s j with
  | none => s
  | some x =>
    let os := (s.jobs.filter fun k => k.1 != j && x.away.any fun n => k.2.dsp.contains n).map (·.1)
    let s := x.away.foldl (fun s n => pageIn (pageOut s j n) x keep n) (os.foldl performAll s)
    let s := modJob s j fun y => { y with away := [] }
    if keep || x.away.isEmpty then s else ringsFresh s j x

/-- A switch counted for its outgoing job (13 R304), unless the group goes back to that job. -/
def noteOut (s : State) (o : Option Nat) (j : Nat) : State :=
  match o with
  | some i => if i = j then s else modJob s i fun y => ctrAdd y .switchesOut 1
  | none => s

/-- The group's holder set. The switch out of `out` is counted now, or where `j` is restored once its restore ends: one that is abandoned counts
as no switch where the group goes back (Table SCH-4). -/
def setHolder (s : State) (gi j : Nat) (keep : Bool) (out : Option Nat) : State :=
  match tfind s.groups gi with
  | some g =>
    let s := noteOut s g.outJob j
    let s := if keep then s else noteOut s out j
    { s with groups := tset s.groups gi { g with holder := some j, since := s.now, took := s.now, next := none
                                                 outJob := if keep then out else none } }
  | none => s

/-- RESUME to the members where PAUSE was sent (13 R299). -/
def resumeSend (s : State) (j : Nat) : State :=
  match jobOf s j with
  | some x => if x.pauseSent then modJob (ctlAll s x 3 x.l 0) j fun y => { y with pauseSent := false } else s
  | none => s

/-- Steps 2 and 3 of R294 with the group's service account: the group goes from job `out`, if any, to job `j`, to restore it (`keep`) or to
dispatch its request. -/
def takeGroup (s : State) (gi j : Nat) (keep : Bool) (out : Option Nat) : State :=
  let s := setHolder (takePages (chargeHolder s gi) j keep) gi j keep out
  let s := if keep then s else resumeSend s j
  match tfind s.groups gi with
  | some g => partsWrite s g
  | none => s

end Sys2Proof.Machine
end

