-- ==== Sys2Proof/Machine/Requests.lean ====
section
/-! DEFINITION. Requests (01 R28; 02 R61; 07 R179, R180; 08 R200; 11 R263; 13 R286, R290 to R292; 14 R318, R330; 16 R369): submission,
the agreement of member devices, dispatch, completion. -/
namespace Sys2Proof.Machine

/-! Agreement of the members (14 R318, R330). -/

/-- The SWRED groups of a job's plan. -/
def swGroups (x : Job) : List Nat := (x.plan.groups.filter (·.2.swred)).map (·.1)

/-- GO with its verdict to every member, and to this device itself. -/
def goSend (s : State) (j : Nat) (x : Job) (req verdict : Nat) : State :=
  modJob (ctlAll s x 1 req verdict) j fun x => { x with goGot := tset x.goGot req verdict }

/-- Device 0 has REQ_READY of a request from every member: it makes the switch claims, or sends GO. -/
def readyAll (s : State) (j req : Nat) : State :=
  match jobOf s j with
  | none => s
  | some x =>
    if !((List.range x.m).all fun l => x.readyFrom.contains (l, req)) then s
    else
      let gs := swGroups x
      let s := modJob s j fun x =>
        { x with readyFrom := x.readyFrom.filter fun e => e.2 != req
                 claims := x.claims ++ gs.map fun g => { req := req, group := g, answered := false, granted := false } }
      if gs.isEmpty then goSend s j x req 1 else gs.foldl (fun s g => claimSend s x g 0 req) s

/-- Readiness of member `l` for a request, at device 0. -/
def readyIn (s : State) (j l req : Nat) : State :=
  readyAll (modJob s j fun x => { x with readyFrom := if x.readyFrom.contains (l, req) then x.readyFrom else x.readyFrom ++ [(l, req)] })
    j req

/-- This device is ready for a request: it tells device 0. -/
def readySend (s : State) (j : Nat) (x : Job) (req : Nat) : State :=
  if x.m ≤ 1 then s else if x.l = 0 then readyIn s j 0 req else ctlSend s x 0 0 x.l req

/-- REQ_READY (R318). -/
def execReqReady (f : Frame) (l req : Nat) (s : State) : Out :=
  rx s f 5 0 fun s => ctlIn s f l fun s j x => if x.l = 0 then readyIn s j l req else s

/-- A claim without verdict of a request that has ended is answered: a granted one is released (R330). -/
def claimLate (s : State) (j : Nat) (x : Job) (c : Claim) (granted : Bool) : State :=
  let s := modJob s j fun x => { x with claims := x.claims.erase c }
  if granted then claimSend s x c.group 1 c.req else s

/-- The first unanswered claim of a group. -/
def claimIdx (x : Job) (g : Nat) : Option Nat := x.claims.findIdx? fun c => c.group = g && !c.answered

/-- A verdict at device 0; when all are in, GO. -/
def verdictIn (s : State) (pi j g : Nat) (granted : Bool) : State :=
  match jobOf s j with
  | none => s
  | some x =>
    match claimIdx x g with
    | none => s
    | some i =>
      let c := (x.claims[i]?).getD { req := 0, group := g, answered := false, granted := false }
      let s := modPort s pi fun p =>
        if granted then { p with swGranted := satAdd 32 p.swGranted 1 } else { p with swRefused := satAdd 32 p.swRefused 1 }
      if c.gone then claimLate s j x c granted
      else
        let s := modJob s j fun x => { x with claims := x.claims.modify i fun c => { c with answered := true, granted := granted } }
        match jobOf s j with
        | none => s
        | some y =>
          let mine := y.claims.filter fun d => d.req = c.req
          if mine.any fun d => !d.answered then s
          else if mine.all (·.granted) then goSend s j y c.req 1
          else goSend (claimsRelease s j c.req) j y c.req 0

/-- RED_VERDICT (R330). -/
def execRedVerdict (f : Frame) (g : Nat) (granted : Bool) (s : State) : Out :=
  if 16 ≤ g then .refused .illFormed
  else
    rx s f 7 0 fun s =>
      match frJob s f with
      | some (j, _) => verdictIn s f.port j g granted
      | none => stray s f.port

/-- GO (R318), from device 0. -/
def execGo (f : Frame) (req verdict : Nat) (s : State) : Out :=
  if 2 ≤ verdict then .refused .illFormed
  else rx s f 5 0 fun s => ctlIn s f 0 fun s j _ => modJob s j fun x => { x with goGot := tset x.goGot req verdict }

/-- A held completion of request `req` takes the status of member `l` where its index is lower; the host-window mark stays (09 R231). -/
def enderTake (l req status : Nat) (e : EndWait) : EndWait :=
  if e.num = req && l < e.who then { e with who := l, status := status, param := e.param / 2 ^ 31 * 2 ^ 31 } else e

/-- A member's request-end for a request that has ended here, its completion still held; a failure of 09 Table MEM-6 counts once (R232). -/
def enderIn (s : State) (j l req status : Nat) (e : EndWait) : State :=
  let s := if l < e.who && !memStatus e.status then memCount s j status else s
  modJob s j fun y => { y with enders := y.enders.map (enderTake l req status) }

/-- Member `l`'s request-end for a request that runs, waits, has ended with its completion held, or has not been submitted here yet; there the
member of lowest index is kept (07 R181, 09 R231, 14 R318). -/
def reqEndIn (s : State) (j l req status : Nat) : State :=
  match jobOf s j with
  | none => s
  | some x =>
    match x.running.filter fun r => r.req.num = req with
    | some r => stopEnd (memCount s j status) j x r status (b2n r.host * 2 ^ 31) id (some l)
    | none =>
      match x.queue.find? fun q => q.num = req with
      | some q =>
        endPoint (modJob (reqAnswer (claimsRelease (memCount s j status) j req) j x l req q.ref status 0) j fun x => queueGone x q) j
      | none =>
        match x.enders.find? fun e => e.num = req with
        | some e => enderIn s j l req status e
        | none =>
          if req < x.subs || (tfind x.reqEnds req).any (·.1 ≤ l) then s
          else modJob s j fun x => { x with reqEnds := tset x.reqEnds req (l, status) }

/-- REQ_END (07 R181). -/
def execReqEnd (f : Frame) (l req status : Nat) (s : State) : Out :=
  if 2 ^ 16 ≤ status then .refused .illFormed else rx s f 5 0 fun s => ctlIn s f l fun s j _ => reqEndIn s j l req status

/-- Every XRECV wait of a job that is blocked: saved with the job, or on its spires. While a restore fills those, the saved ones count. -/
def blockedRecv (s : State) (j : Nat) (x : Job) : Nat :=
  let n := fun (c : LCtx) => (c.waits.filter (·.recv)).length
  let o := fun (c : Option LCtx) => (c.map n).getD 0
  sumN (x.spill.map fun c => n c.2)
    + if x.saved then 0
      else sumN ((jobSpires x).map fun p => if (spOf s p).job = some j then o (spOf s p).run + o (spOf s p).other else 0)

/-- PAUSE (13 R299). -/
def execPause (f : Frame) (l : Nat) (s : State) : Out :=
  rx s f 5 0 fun s => ctlIn s f l fun s j x =>
    modJob s j fun y => ctrAdd { y with paused := y.paused ++ [l] } .collPreemptStalls (blockedRecv s j x)

/-- RESUME (13 R299). -/
def execResume (f : Frame) (l : Nat) (s : State) : Out :=
  rx s f 5 0 fun s => ctlIn s f l fun s j _ => modJob s j fun x => { x with paused := x.paused.erase l }

/-! SUBMIT (16 R369). -/

/-- The sixteen shape values of a request. -/
def shapeVals (s : State) (w : Nat) : List Nat :=
  let ext := if bitOf w 9 then (List.range 7).map fun i => ofLe (hostRead s (fld w 511 448 + 4 * i) 4) else List.replicate 7 0
  ((List.range 8).map fun i => fld w (223 + 32 * i) (192 + 32 * i)) ++ ext ++ [fld w 159 128]

/-- R180: does a value exceed its bound? A value whose entry is not used is not compared (DESIGN CHOICE, log 59). -/
def shapesOver (p : Plan) (vals : List Nat) : Bool :=
  (p.shapes.mapIdx fun i e => e.used && e.bound < nth vals i).any id

/-- A job one of whose requests ended at its submission, with no order choices (08 R200; 12 R279). -/
def submitGone (y : Job) (num pass : Nat) : Job :=
  { noteEnd y num pass false with subs := num + 1, reqEnds := tdel y.reqEnds num, ctrs := tset y.ctrs (ctrIdx .reqOrderChoices) 0 }

/-- A request that ends at its submission by member `who` (08 R200). -/
def submitEnd (s : State) (j : Nat) (x : Job) (who : Nat) (r : CmdRef) (num pass status : Nat) : State :=
  reqAnswer (modJob s j fun y => submitGone y num pass) j x who num r status 0

/-- A refused request of a multi-device job ends at every member (R318). -/
def refuseReq (s : State) (j : Nat) (x : Job) (r : CmdRef) (num pass status : Nat) : State :=
  submitEnd (if x.m ≤ 1 then s else ctlAll s x 4 status num) j x x.l r num pass status

/-- A prefix page entry that is not LIVE created anew, its page out of the job's pool (06 R172). -/
def pfxNew (s : State) (j : Nat) (q : PlanPrefix × Pte) : State :=
  match jobOf s j with
  | none => s
  | some x =>
    if q.1.vpns.isEmpty || (pfxGet s x q.1.entry).live then s
    else pfxSet s j q.1.entry { page := q.2.pfn, live := true, pin := 0, ref := 0, copies := 0 }

/-- The prefix page entries of a job created at a request's submission (06 R172). -/
def pfxNewAll (s : State) (j : Nat) (x : Job) : State := (x.plan.prefixes.zip x.freed).foldl (fun s q => pfxNew s j q) s

/-- Is a job's group idle: no request in it? -/
def groupIdle (s : State) (j : Nat) : Bool :=
  (groupOf s j).all fun g => g.2.jobs.all fun k => (jobOf s k).all fun y => y.running.isNone && y.queue.isEmpty

/-- An accepted request joins the queue, in an idle group a scheduling point (13 R293); the device reports readiness. -/
def queueReq (s : State) (j : Nat) (x : Job) (q : Req) (queue : List Req) : State :=
  let t := modJob (pfxNewAll s j x) j fun y => { y with queue := queue, subs := q.num + 1 }
  readySend (if groupIdle s j then schedPointJ t j else t) j x q.num

/-- An LC request: the test of R290. -/
def submitLc (s : State) (j : Nat) (x : Job) (q : Req) : State :=
  match lcBounds (lcStart s x (tPre s (mates s j) x)) (lcInsert q x.queue) with
  | some qs => queueReq (modJob s j fun y => ctrAdd y .lcAccepted 1) j x q qs
  | none => refuseReq (modJob s j fun y => ctrAdd y .lcRefused 1) j x q.ref q.num q.pass 0x0307

/-- A SUBMIT that the frame of host commands refuses for job `j`: it is a request of the job all the same, and of a multi-device job it ends
at every member (R318). -/
def submitSlip (s : State) (f q : Nat) (e : Entry) : State :=
  let w := e.toNat
  let st := if q = 0 then 0x0802 else if fld w 47 32 != 0 || fld w 127 64 != 0 then 0x0801 else 0
  match (slotOf s (hdrJob e)).bind fun j => (jobOf s j).map fun x => (j, x) with
  | some (j, x) =>
    if st = 0 || s.power.shutdown || !x.ready || x.fn != f then s
    else modJob (if x.m ≤ 1 then s else ctlAll s x 4 st x.subs) j fun y => submitGone y y.subs (fld w 159 128)
  | none => s

/-- SUBMIT's body; `at_` is the time at which the entry was read (13 R286). -/
def submitBody (at_ : Nat) (s : State) (r : CmdRef) (w : Nat) : State :=
  withJob s r (fld w 63 48) fun j x =>
    if !x.ready then complete s r 0x0804 0 0
    else if (x.lc && fld w 191 160 = 0) || (bitOf w 9 && fld w 511 448 % 32 != 0) then refuseReq s j x r x.subs (fld w 159 128) 0x0801
    else
      let vals := shapeVals s w
      let mhz := setMhz s x.cups
      let q : Req := { ref := r, shapes := vals, pass := fld w 159 128, chain := bitOf w 8, abs := (at_ + fld w 191 160) * 1600
                       at_ := cycNow s, c := lcCyc s x.plan mhz, bound := 0, fs := mhz, num := x.subs, throttled := s.power.clamp }
      match tfind x.reqEnds q.num with
      | some st => submitEnd (memCount s j st.2) j x st.1 r q.num q.pass st.2
      | none =>
        if shapesOver x.plan vals then refuseReq s j x r q.num q.pass 0x0103
        else if x.lc then submitLc s j x q
        else queueReq s j x q (x.queue ++ [q])

/-- SUBMIT (16 R369). -/
def execSubmit (f q : Nat) (e : Entry) (s : State) : Out :=
  hostExec 0x40 (submitSlip s f q e) f q e true 1 false (fun w => fld w 127 64)
    (submitBody (((fetchedOf s f q e).map (·.at_)).getD s.now))

/-! Scheduling choice (13 R291, R293). -/

/-- The LC job of a group, while it has a request. -/
def lcTurn (s : State) (g : CoGrp) : Option Nat := g.jobs.find? fun j => (jobOf s j).any fun x => x.lc && hasReq x

/-- The BE job whose turn it is since the last scheduling point (R293), while it has a request; else the choice as one would make it now. -/
def beTurn (s : State) (g : CoGrp) : Option Nat :=
  match g.turn.filter fun j => g.jobs.contains j && (jobOf s j).any fun x => hasReq x && !x.lc with
  | some j => some j
  | none => beChoice s g

/-- The job that the group serves next: the LC job while it has a request, else the BE job whose turn it is. -/
def groupTurn (s : State) (g : CoGrp) : Option Nat :=
  match lcTurn s g with
  | some j => some j
  | none => beTurn s g

/-! Dispatch. -/

/-- The logical spires that a physical spire runs, lower first (R24). -/
def lspsOn (x : Job) (p : Nat) : List Nat := (List.range x.place.length).filter fun l => nth x.place l = p

/-- P6 and P7 in place of the image's initial values (08 R200, 14 R330). -/
def dispPreds (init : Nat) (p6 : Option Bool) (first : Bool) : Nat :=
  let a := match p6 with
    | some b => predSet init 6 b
    | none => init
  predSet a 7 first

/-- The initial context of a logical spire with the request's shape values (07 R179). -/
def dispCtx (x : Job) (vals : List Nat) (p6 : Option Bool) (first : Bool) (l : Nat) : LCtx :=
  let i := initOf x.plan l
  let sr := (x.plan.shapes.mapIdx fun k e => (k, e)).foldl (fun t e => if e.2.used then tset t e.2.sreg (nth vals e.1) else t) i.sregs
  { lidx := l, pc := 0, preds := dispPreds i.preds p6 first, sregs := sr, tds := i.tds }

/-- Programs and contexts loaded into a spire's buffers in state LOADING (04 R93). Every logical spire starts with a scratchpad of zeros, a
carried one too (03 R85; 00 R6). CLEAR comes first, so SPIRE_BANK_STALLS counts from 0 at each dispatch; of two carried logical spires the
lower index runs first (DESIGN CHOICE, log 52: the spec says neither). -/
def loadSpire (s : State) (j : Nat) (x : Job) (vals : List Nat) (p6 : Option Bool) (first : Bool) (p : Nat) : State :=
  let ls := lspsOn x p
  let mk := fun (l : Nat) => dispCtx x vals p6 first l
  modSp (doClear s p) p fun y =>
    { y with
      st := .loading, job := some j, progs := ls.map (fun l => (l, x.plan.progs.getD l [])), run := ls.head?.map mk
      other := (ls.drop 1).head?.map mk
      compatReg := x.compat, logRun := ls.headD 0, logOther := (ls.drop 1).headD 0 }

/-- SHARE of a mapping by an entry (06 R173). -/
def pfxShare (s : State) (j entry n : Nat) : State :=
  match jobOf s j with
  | none => s
  | some x => let w := pfxGet s x entry; pfxPut s j entry { w with ref := w.ref + n }

/-- Every shared prefix mapped into its sequences' regions, its entry created anew where its page went back to the pool (06 R172, R173;
DEDUCED, log 51). -/
def prefixShare (s : State) (j : Nat) : State :=
  match jobOf s j with
  | none => s
  | some x =>
    let s := modJob s j fun x => { x with copies := x.copyAll }
    (x.plan.prefixes.zip x.freed).foldl (fun s q =>
      let s := modJob s j fun x => { x with pt := q.1.vpns.foldl (fun t v => tset t v { q.2 with shr := true }) x.pt }
      if q.1.vpns.isEmpty then s else pfxShare (pfxNew s j q) j q.1.entry q.1.vpns.length) s

/-- The pages of a job's models mapped, write-protected (09 Table MEM-3). -/
def modelsMap (s : State) (j : Nat) (x : Job) : State :=
  (x.plan.models.zip x.models).foldl (fun s q =>
    match tfind s.models q.2 with
    | none => s
    | some m =>
      let es := q.1.vpns.mapIdx fun i v => (v, { framePte m.frames (frameSlots s) i with wp := true })
      modJob s j fun y => { y with pt := es.foldl (fun t e => tset t e.1 e.2) y.pt }) s

/-- A use of every model of a BE job (13 R301). -/
def modelsUse (s : State) (x : Job) : State :=
  if x.lc then s
  else (jobModels x).foldl (fun s h => { s with models := s.models.map fun m => if m.1 = h then (m.1, { m.2 with uses := m.2.uses + 1 }) else m }) s

/-- An overflow set's pages: kept, or fresh ones filled with zeros (09 R227); the status and parameter that refuse the request when the pool is
short, or when the fill fails. -/
def ovfGive (a : State × Option (Nat × Nat)) (j : Nat) (q : Nat × PlanOvf) : State × Option (Nat × Nat) :=
  if a.2.isSome then a
  else
    let s := a.1
    match s.pool.find? fun u => u.2.kind = 1 && u.2.owner = j && u.2.set = q.1 with
    | some u => ({ s with pool := tset s.pool u.1 { u.2 with pins := u.2.pins + 1 } }, none)
    | none =>
      match farTake s q.2.vpns.length with
      | (s, none) => (s, some (0x0400, 0))
      | (s, some ps) =>
        let bad := fillFenced s (ps.map fun n => (n * 2 ^ 21, 2 ^ 21))
        if bad.isSome then (s, bad) else
        let s := ps.foldl (farNewOwner j) s
        let s := { s with far := ps.foldl (fun st n => st.farMark (n * 2 ^ 21) (2 ^ 21) 0) s.far
                          pool := tset s.pool (poolId s) { kind := 1, owner := j, set := q.1, pages := ps, pins := 1 } }
        (modJob s j fun x =>
          ctrAdd { x with
            ovf := tset x.ovf q.1 ps, ovfGot := if x.ovfGot.contains q.1 then x.ovfGot else x.ovfGot ++ [q.1]
            pt := (q.2.vpns.zip (ps.map farPte)).foldl (fun t e => tset t e.1 e.2) x.pt }
            .ovfLost (b2n (x.ovfGot.contains q.1)), none)

/-- Every overflow set of a job, or the status and parameter that refuse its request. -/
def ovfAll (s : State) (j : Nat) (x : Job) : State × Option (Nat × Nat) :=
  let r := (x.plan.ovfs.mapIdx fun i o => (i, o)).foldl (fun a q => ovfGive a j q) (s, none)
  if r.2.isNone then r else (ovfUnpin r.1 j, r.2)

/-- Is a request a first pass (08 R200)? -/
def isFirst (x : Job) (q : Req) : Bool :=
  !q.chain || !x.everRun || (prevEnd x q.num).all fun e => !e.2 || (e.1 + 1) % 2 ^ 32 != q.pass

/-- The verdict's P6 of a plan with SWRED groups. -/
def reqP6 (x : Job) (q : Req) : Option Bool := if (swGroups x).isEmpty then none else some (tget 0 x.goGot q.num = 1)

/-- A dispatch that goes: mappings, programs, RUN. -/
def dispatchRun (s : State) (j : Nat) (x : Job) (q : Req) : State :=
  let first := isFirst x q
  let p6 := reqP6 x q
  let s := prefixShare (modelsMap s j x) j
  let s := modelsUse s x
  let s := (jobSpires x).foldl (fun s p => modSp (loadSpire s j x q.shapes p6 first p) p runReg) s
  modJob s j fun y =>
    let y := match p6 with
      | some true => ctrAdd y .swredGranted 1
      | some false => ctrAdd y .swredRefused 1
      | none => y
    { y with queue := y.queue.erase q, everRun := true, goGot := tdel y.goGot q.num, ovfTiles := [], ends := y.ends.filter fun e => q.num ≤ e.1
             running := some { req := q, first := first, since := s.now, ordBase := ordSum s j y, haltAt := s.now } }

/-- A request refused at dispatch (09 R227, R230): the next one is a first pass. A lost far write is answered. -/
def dispatchRefuse (s : State) (j : Nat) (x : Job) (q : Req) (status param : Nat) : State :=
  modJob (queuedEnd s j x q status param) j fun y => { y with farLost := none }

/-- Is a model of a job being loaded? -/
def modelLoading (s : State) (x : Job) : Bool := x.models.any fun h => (tfind s.models h).any fun m => m.st = .loading

/-- A dispatch held on a LOADING entry, counted once (13 R301, R304). -/
def dispatchHeld (s : State) (j : Nat) (q : Req) : State :=
  if q.waited then s
  else modJob s j fun y =>
    ctrAdd { y with queue := y.queue.map fun r => if r.num = q.num then { r with waited := true } else r } .modelWaits 1

/-- The end of a request whose model cannot be loaded again: MODEL_EVICTED, or NO_CAPACITY tier 5 once far memory is fenced (10 R249). -/
def reloadStatus (s : State) : Nat × Nat := if s.farFenced then (0x0300, 5) else (0x0604, 0)

/-- The dispatch of the head of a job's queue: a lost far write (with its address) or an overflow set that fails refuses it; a model that is gone
is loaded, which holds it, or ends it; one that is LOADING holds it. -/
def dispatchReq (s : State) (j : Nat) (x : Job) (q : Req) (gi : Nat) : State :=
  match x.farLost with
  | some pa => dispatchRefuse s j x q 0x0406 (fld pa 47 16)
  | none =>
    if modelGone s x then
      match loadsStart s x.models with
      | (s, true) => admitCheck (dispatchHeld s j q)
      | (s, false) => admitCheck (dispatchRefuse s j x q (reloadStatus s).1 (reloadStatus s).2)
    else if !modelsIn s x then dispatchHeld s j q
    else
      match ovfAll s j x with
      | (s, some st) => dispatchRefuse s j x q st.1 st.2
      | (s, none) => dispatchRun (takeGroup s gi j false none) j x q

/-- Do the models of a job let its head go: all there, one absent, which is then loaded, or one LOADING on which it is not held yet? One that is
EVICTING holds it until that ends (13 Table SCH-6). -/
def modelsLet (s : State) (x : Job) (q : Req) : Bool := modelsIn s x || modelGone s x || (modelLoading s x && !q.waited)

/-- May the head of a job's queue go: the group is its own or free, the choice is the job, the members agreed (R318), and its models let
it? -/
def canDispatch (s : State) (j : Nat) (x : Job) (g : CoGrp) (q : Req) : Bool :=
  fwUp s && noMargin s && x.ready && x.running.isNone && groupTurn s g = some j && (g.holder.isNone || g.holder = some j)
  && (x.m ≤ 1 || (tfind x.goGot q.num).isSome) && modelsLet s x q
  && (jobSpires x).all fun p => (spOf s p).st = .idle || (spOf s p).st = .halted || (spOf s p).st = .off

/-- REQUEST_DISPATCH (01 R28, 13 R291). -/
def execRequestDispatch (j : Nat) (s : State) : Out :=
  match jobOf s j, groupOf s j with
  | some x, some (gi, g) =>
    match x.queue with
    | q :: _ => guardNext (canDispatch s j x g q) .notEnabled (dispatchReq s j x q gi)
    | [] => .refused .notEnabled
  | _, _ => .refused .notEnabled

/-! Completion (11 R263). -/

/-- The fall-backs of a request: addresses of the status words with FALLBACK set, and the total of OVF_TILES (02 R61). -/
def fallbacks (s : State) (x : Job) : List Nat × Nat :=
  let ws := x.plan.quants.map fun q => (q.qsw, rdLe (vaByte s x) q.qsw 8)
  let f := ws.filter fun w => bitOf w.2 0
  (f.map (·.1), sumN (f.map fun w => fld w.2 31 16))

/-- The overflowed tiles of tensors, by the addresses of their status words: counted as they were written, where OVF_TILES saturates. -/
def ovfTilesOf (x : Job) (qs : List Nat) : Nat := sumN (qs.map fun a => tget 0 x.ovfTiles a)

/-- The fall-backs recorded (R61): QNT_FALLBACK_TILES by the tiles, the event by OVF_TILES. -/
def noteFallback (s : State) (j pass : Nat) (f : List Nat × Nat) : State :=
  match f.1 with
  | [] => s
  | a :: rest =>
    let s := modJob s j fun x => ctrAdd (ctrAdd x .qntFallbackTensors f.1.length) .qntFallbackTiles (ovfTilesOf x f.1)
    evrAdd s 0x0410 1 0 [pass, f.1.length, (rest.foldl min a) / 256, f.2]

/-- Flags and lateness of an LC completion (13 R292): LATE, FALLBACK, THROTTLED, OTHER. -/
def lateFlags (s : State) (x : Job) (q : Req) (fell : Bool) : Nat × Nat :=
  if !x.lc || cycNow s ≤ q.abs then (0, 0)
  else (1 + 2 * b2n fell + 4 * b2n q.throttled + 8 * b2n (!fell && !q.throttled), min ((cycNow s - q.abs) / 1600) (2 ^ 32 - 1))

/-- RESULT of a successful request (R369): its order choices, the tensors that fell back, the time from dispatch to the last HALT. -/
def reqResult (r : RunReq) (ord n : Nat) : Nat := ord * 2 ^ 64 + n % 2 ^ 32 * 2 ^ 32 + min (r.haltAt - r.since) (2 ^ 32 - 1)

/-- The completion entry of a request that ran to its end. The fall-backs of a pass are recorded here, so those of a request that ends without
success are not (DESIGN CHOICE, log 52: R61 does not say). -/
def completeReq (s : State) (j : Nat) (x : Job) (r : RunReq) : State :=
  let f := fallbacks s x
  let ord := reqOrder s j x r
  let late := lateFlags s x r.req !f.1.isEmpty
  let s := noteFallback s j r.req.pass f
  let s := modJob s j fun y =>
    ctrAdd { noteEnd y r.req.num r.req.pass true with
             running := none, dirty := []
             ctrs := tset y.ctrs (ctrIdx .reqOrderChoices) ord } .lcLate (late.1 % 2)
  completeX s r.req.ref late.1 0 late.2 0 (reqResult r ord f.1.length)

/-- The first issued write of a job that cannot be performed in its window (16 R371, 17 R392). -/
def writeBad (s : State) (j : Nat) : Option (PWr × AccBad) :=
  (s.writes.filter (·.job == j)).findSome? fun w => (wrBad s w).map fun b => (w, b)

/-- A request completes: its writes are performed, what it held is let go, the completion is written. -/
def finishReq (s : State) (j : Nat) (r : RunReq) (gi : Nat) : State :=
  let s := performAll s j
  let s := (s.sigs.filter (·.job == j)).foldl sigApply s
  match requestLetGo s j with
  | (s, true) => jobFault s j 0x0507 0 0
  | (s, false) =>
    let s := chargeHolder (claimsRelease s j r.req.num) gi
    match jobOf s j with
    | some x => schedPoint (completeReq s j x r) gi
    | none => s

/-- Have every logical spire of a job halted, with nothing in flight? -/
def allHalted (s : State) (j : Nat) (x : Job) : Bool :=
  (jobSpires x).all fun p => (spOf s p).job = some j && (spOf s p).st = .halted && (spOf s p).infl.isEmpty && (spOf s p).stolen.isNone

/-- REQUEST_COMPLETION (11 R263): a write that fails as it is performed ends the request instead. -/
def execRequestCompletion (j : Nat) (s : State) : Out :=
  match jobOf s j, groupOf s j with
  | some x, some (gi, _) =>
    match x.running with
    | some r =>
      guardNext (fwUp s && !x.saved && allHalted s j x) .notEnabled
        (match writeBad s j with
          | some q => windowWrite q.1 s
          | none => finishReq s j r gi)
    | none => .refused .notEnabled
  | _, _ => .refused .notEnabled

/-! Watchdogs (13 R300, 14 R318). -/

/-- A resident XRECV wait of logical spire `l` past COLL_WDOG: its group. -/
def recvLate (s : State) (j l lim : Nat) (x : Job) : Option Nat :=
  ((jobSpires x).filterMap fun p =>
    if (spOf s p).job = some j then
      (spOf s p).run.bind fun c => if c.lidx = l then (c.waits.find? fun w => w.recv && lim ≤ w.wdog).map (·.group) else none
    else none).head?

/-- A FENCE FAB of logical spire `l` past COLL_WDOG. -/
def fenceLate (s : State) (j l lim : Nat) (x : Job) : Bool :=
  (jobSpires x).any fun p => (spOf s p).job = some j && (spOf s p).infl.any fun f =>
    f.lidx = l && f.wait = 1 && bitOf f.word 127 && nth f.lat 1 + lim ≤ s.now

/-- COLL_WATCHDOG (13 R300): the fault record's last word is the group. -/
def execCollWatchdog (j l : Nat) (s : State) : Out :=
  match jobOf s j with
  | none => .refused .notEnabled
  | some x =>
    let lim := x.collWdog * 10000
    match recvLate s j l lim x with
    | some g => guardNext (fwUp s) .notEnabled (jobFault s j 0x050A l (g * 65536))
    | none => guardNext (fwUp s && fenceLate s j l lim x) .notEnabled (jobFault s j 0x050A l 0)

/-- GO_WAIT_TIMEOUT (14 R318): a request has waited for GO longer than COLL_WDOG. -/
def execGoWaitTimeout (j : Nat) (s : State) : Out :=
  match jobOf s j with
  | none => .refused .notEnabled
  | some x =>
    guardNext (fwUp s && 1 < x.m && x.queue.any fun q =>
        (tfind x.goGot q.num).isNone && q.at_ + x.collWdog * 16000000 < cycNow s) .notEnabled (jobFault s j 0x050A x.l 0)

end Sys2Proof.Machine
end

