-- ==== Sys2Proof/Machine/Sched.lean ====
section
/-! DEFINITION. Fair share and switching between the jobs of a co-tenant group (13 R291, R293, R294, R298, R299). A switch runs in two
commands: the first writes SAVE_REQ to the holder's spires; once every one of them is saved or halted, the second completes it. -/
namespace Sys2Proof.Machine

/-! Switching out and in. -/

/-- The contexts of a halted spire are recorded with the job's spill entries, and the spire cleared. -/
def recordSpire (s : State) (j p : Nat) : State :=
  let x := spOf s p
  let put := fun (t : Tbl LCtx) (o : Option LCtx) => match o with
    | some c => tset t c.lidx { c with sp := {} }
    | none => t
  doClear (modJob s j fun y => { y with spill := put (put y.spill x.run) x.other }) p

/-- Is every spire of a job saved or halted? -/
def allQuiet (s : State) (j : Nat) (x : Job) : Bool :=
  (jobSpires x).all fun p =>
    (spOf s p).job != some j || ((spOf s p).st != .running && (spOf s p).st != .blocked && (spOf s p).st != .saving)

/-- SAVE_REQ written to every spire of a job. -/
def saveAll (s : State) (j : Nat) (x : Job) : State :=
  (jobSpires x).foldl (fun s p => if (spOf s p).job = some j then modSp s p saveReqX else s) s

/-- The holder is out: its contexts recorded, models no longer in use, PAUSE sent where it has fabric groups (R299, R301). -/
def switchOut (s : State) (j : Nat) (x : Job) : State :=
  let s := (jobSpires x).foldl (fun s p => if (spOf s p).job = some j then recordSpire s j p else s) s
  let s := if x.lc || x.running.isNone then s else (jobModels x).foldl modelUnuse s
  let fab := 1 < x.m && !x.plan.groups.isEmpty
  modJob (if fab then ctlAll s x 2 x.l 0 else s) j fun y =>
    { y with saved := x.running.isSome, spill := if x.running.isSome then y.spill else [], pauseSent := fab }

/-- A context loaded from its spill entry: the spire takes its live data with it, in state LOADING. Of two carried logical spires the lower
index that has not ended runs first (DESIGN CHOICE, log 52). -/
def restoreSpire (s : State) (j : Nat) (x : Job) (p : Nat) : State :=
  let cs := (lspsOn x p).filterMap fun l => tfind x.spill l
  let run := (cs.find? fun c => !c.halted && !c.halting).orElse fun _ => cs.head?
  let oth := cs.find? fun c => run.all fun r => r.lidx != c.lidx
  modSp s p fun y =>
    { y with
      st := .loading, job := some j, progs := (lspsOn x p).map (fun l => (l, x.plan.progs.getD l []))
      run := run.map fun c => { c with sp := {}, runCyc := 0 }, other := oth, sp := (run.map (·.sp)).getD {}, compat := x.compat
      compatReg := x.compat, logRun := (run.map (·.lidx)).getD 0, logOther := (oth.map (·.lidx)).getD 0 }

/-- The outgoing job of a group's switch is counted as the restore ends. -/
def outCounted (s : State) (gi j : Nat) : State :=
  match tfind s.groups gi with
  | some g => noteOut { s with groups := tset s.groups gi { g with outJob := none } } g.outJob j
  | none => s

/-- The restore of a saved job ends: its spires run, its models are in use again, its waits are tested (R298), RESUME is sent. -/
def switchIn (s : State) (gi j : Nat) (x : Job) : State :=
  let s := modelsUse (modelsMap (outCounted s gi j) j x) x
  let s := (jobSpires x).foldl (fun s p => modSp s p fun y => settle { y with st := .running }) s
  recvRetest (resumeSend (modJob s j fun y => { y with
    saved := false, spill := [], running := y.running.map fun r => { r with waited := false } }) j) j

/-- A restore is abandoned: the spires are cleared; the spill entries are as they were (Table SCH-4). -/
def restoreDrop (s : State) (j : Nat) (x : Job) : State :=
  (jobSpires x).foldl (fun s p => if (spOf s p).job = some j then doClear s p else s) s

/-- Has a spire of a job saved one of its contexts, and stands IDLE? -/
def savedHere (s : State) (j : Nat) (x : Job) (p : Nat) : Bool :=
  (spOf s p).job = some j && (spOf s p).st = .idle && (lspsOn x p).any fun l => (tfind x.spill l).isSome

/-- A holder whose spires saved for a switch that is no longer due: what was saved is restored, and the job goes on. It never left the group, so
this is no switch. -/
def switchBack (s : State) (j : Nat) (x : Job) : State :=
  let s := ((jobSpires x).filter (savedHere s j x)).foldl (fun s p => modSp (restoreSpire s j x p) p fun y => settle { y with st := .running }) s
  recvRetest (modJob s j fun y => { y with spill := [] }) j

/-- Steps 2 to 4 of R294, from holder `h` (if any) to `j`; a holder that is being restored loses the group without a switch. -/
def switchDone (s : State) (gi j : Nat) (h : Option (Nat × Job)) (x : Job) : State :=
  let s := match h with
    | some (i, y) => if y.saved then restoreDrop s i y else switchOut s i y
    | none => s
  let s := takeGroup s gi j x.saved (h.bind fun i => if i.2.saved then none else some i.1)
  if x.saved then (jobSpires x).foldl (fun s p => restoreSpire s j x p) s else s

/-- The holder of a group and its job. -/
def holderOf (s : State) (g : CoGrp) : Option (Nat × Job) := g.holder.bind fun h => (jobOf s h).map fun y => (h, y)

/-- May job `j` with a request take the group from holder `y`: as an LC job from a BE job that holds the group or is being restored, as the
choice of the group of a holder without a request, or as the choice of a scheduling point from a holder that runs (R291, R293, Table SCH-4)? -/
def takesFrom (s : State) (g : CoGrp) (j : Nat) (x y : Job) : Bool :=
  hasReq x && (if y.saved then x.lc
    else (x.lc && !y.lc) || (y.running.isNone && groupTurn s g = some j)
      || (g.next = some j && (lcTurn s g).isNone))

/-- Has the holder `j` saved for a switch that no job takes any more? -/
def backDue (s : State) (g : CoGrp) (j : Nat) (x : Job) : Bool :=
  x.running.isSome && allQuiet s j x && (jobSpires x).any (savedHere s j x)
  && g.jobs.all fun k => k = j || !(jobOf s k).any fun z => takesFrom s g k z x

/-- May the group go to `j`: its own restore ends, or its own saves are taken back; or it is the choice of a group without a holder, or it takes
the group from the holder? -/
def switchDue (s : State) (g : CoGrp) (j : Nat) (x : Job) : Bool :=
  g.jobs.contains j && hasReq x
  && match holderOf s g with
     | none => groupTurn s g = some j
     | some (i, y) => if i = j then x.saved || backDue s g j x else takesFrom s g j x y

/-- A restore held on the load of a model: its request waits on that load (Table SCH-6). -/
def restoreHeld (s : State) (j : Nat) : State := modJob s j fun y => { y with running := y.running.map fun r => { r with waited := true } }

/-- A switch: a saved job's absent models are loaded first, or its request ends with MODEL_EVICTED; its restore ends, or its saves are taken
back; the saves are asked for; or the switch completes. -/
def switchGo (s : State) (gi : Nat) (g : CoGrp) (j : Nat) (x : Job) : State :=
  if x.saved && modelGone s x then
    match loadsStart s x.models, x.running with
    | (s, false), some r => admitCheck (stopEnd s j x r (reloadStatus s).1 (reloadStatus s).2 id none)
    | (s, _), _ => admitCheck (restoreHeld s j)
  else if x.saved && !modelsIn s x then restoreHeld s j
  else if g.holder = some j then (if x.saved then switchIn s gi j x else switchBack s j x)
  else
    match holderOf s g with
    | some (h, y) => if allQuiet s h y then switchDone s gi j (some (h, y)) x else saveAll s h y
    | none => switchDone s gi j none x

/-- Is a save under way on the holder's spires, so that the switch waits for it? -/
def savesPending (s : State) (g : CoGrp) : Bool :=
  match holderOf s g with
  | some (h, y) => !allQuiet s h y && (jobSpires y).all fun p =>
      (spOf s p).job != some h || (spOf s p).saveReq || ((spOf s p).st != .running && (spOf s p).st != .blocked)
  | none => false

/-- May the switch to a job go by its models: a saved one waits for their load, once held on it (R301)? -/
def restoreLet (s : State) (x : Job) : Bool :=
  !x.saved || modelGone s x || modelsIn s x || (modelLoading s x && !x.running.any (·.waited))

/-- SWITCH (13 R294). -/
def execSwitch (gi j : Nat) (s : State) : Out :=
  match tfind s.groups gi, jobOf s j with
  | some g, some x =>
    guardNext (fwUp s && noMargin s && switchDue s g j x && !savesPending s g && restoreLet s x) .notEnabled
      (switchGo s gi g j x)
  | _, _ => .refused .notEnabled

/-- The job that takes the group at a quantum expiry: another BE job with a request whose V is lower than the holder's (R293). -/
def quantumNext (s : State) (g : CoGrp) : Option Nat :=
  (beChoice s g).filter fun k =>
    match jobOf s k, holderOf s g with
    | some a, some (h, y) => k != h && a.v < y.v
    | _, _ => false

/-- QUANTUM_EXPIRY (13 R293), a scheduling point. -/
def quantumEnd (s : State) (gi : Nat) : State :=
  let s := schedPoint s gi
  match tfind s.groups gi with
  | none => s
  | some g =>
    let k := quantumNext s g
    { s with groups := tset s.groups gi { g with took := s.now, next := k, turn := k.orElse fun _ => g.holder } }

/-- QUANTUM_EXPIRY. -/
def execQuantumExpiry (gi : Nat) (s : State) : Out :=
  match tfind s.groups gi with
  | some g =>
    guardNext (fwUp s && (g.holder.bind (jobOf s)).any (fun x => !x.lc && x.running.isSome && !x.saved)
        && g.took + g.quantum * 100 ≤ s.now)
      .notEnabled (quantumEnd s gi)
  | none => .refused .notEnabled

end Sys2Proof.Machine
end

