-- ==== Sys2Proof/Machine/Dispatch.lean ====
section
/-! DEFINITION. What each command does: one arm for each constructor of Instr, one call of its meaning. -/
namespace Sys2Proof.Machine

/-- The effect of a command on everything but the queue. -/
def exec (i : Instr) (s : State) : Host.Outcome State Fault Refusal :=
  match i with
  | .loop p w => Sys2Proof.Machine.execLoop p w s
  | .endl p w => Sys2Proof.Machine.execEndl p w s
  | .br p w => Sys2Proof.Machine.execBr p w s
  | .yield p w => Sys2Proof.Machine.execYield p w s
  | .halt p w => Sys2Proof.Machine.execHalt p w s
  | .gate p w => Sys2Proof.Machine.execGate p w s
  | .finial p w => Sys2Proof.Machine.execFinial p w s
  | .mma p w ev => Sys2Proof.Machine.execMma p w ev s
  | .mma2 p w ev => Sys2Proof.Machine.execMma2 p w ev s
  | .vopTensor p w ev => Sys2Proof.Machine.execVopTensor p w ev s
  | .vopScalar p w => Sys2Proof.Machine.execVopScalar p w s
  | .vopDescriptor p w => Sys2Proof.Machine.execVopDescriptor p w s
  | .sfn p w ev => Sys2Proof.Machine.execSfn p w ev s
  | .rstat p w ev => Sys2Proof.Machine.execRstat p w ev s
  | .cdw p w ev => Sys2Proof.Machine.execCdw p w ev s
  | .attn p w ev => Sys2Proof.Machine.execAttn p w ev s
  | .qnt p w ev => Sys2Proof.Machine.execQnt p w ev s
  | .dqt p w ev => Sys2Proof.Machine.execDqt p w ev s
  | .move p w ev => Sys2Proof.Machine.execMove p w ev s
  | .comb p w ev => Sys2Proof.Machine.execComb p w ev s
  | .xsend p w ev => Sys2Proof.Machine.execXsend p w ev s
  | .xrecvArm p w => Sys2Proof.Machine.execXrecvArm p w s
  | .xrecvWait p w => Sys2Proof.Machine.execXrecvWait p w s
  | .sig p w => Sys2Proof.Machine.execSig p w s
  | .waits p w => Sys2Proof.Machine.execWaits p w s
  | .fence p w => Sys2Proof.Machine.execFence p w s
  | .instructionComplete p seq => Sys2Proof.Machine.execInstructionComplete p seq s
  | .fenceComplete p seq => Sys2Proof.Machine.execFenceComplete p seq s
  | .xsendComplete p seq => Sys2Proof.Machine.execXsendComplete p seq s
  | .pstrMgroupStart p seq => Sys2Proof.Machine.execPstrMgroupStart p seq s
  | .spireHang p => Sys2Proof.Machine.execSpireHang p s
  | .carriedSpireChange p => Sys2Proof.Machine.execCarriedSpireChange p s
  | .carriedSpireQuantum p => Sys2Proof.Machine.execCarriedSpireQuantum p s
  | .stealIteration p owner => Sys2Proof.Machine.execStealIteration p owner s
  | .saveComplete p => Sys2Proof.Machine.execSaveComplete p s
  | .clear p => Sys2Proof.Machine.execClear p s
  | .run p => Sys2Proof.Machine.execRun p s
  | .saveReq p => Sys2Proof.Machine.execSaveReq p s
  | .sfnCompat p on => Sys2Proof.Machine.execSfnCompat p on s
  | .semaphoreHomeCycle scope home sigs order => Sys2Proof.Machine.execSemaphoreHomeCycle scope home sigs order s
  | .homeWriteApply id => Sys2Proof.Machine.execHomeWriteApply id s
  | .ringAdv j ring => Sys2Proof.Machine.execRingAdv j ring s
  | .ringRel j ring => Sys2Proof.Machine.execRingRel j ring s
  | .keyListGeneration j ring => Sys2Proof.Machine.execKeyListGeneration j ring s
  | .prefixWrite j vpn => Sys2Proof.Machine.execPrefixWrite j vpn s
  | .sqTailDoorbell fn q off size v => Sys2Proof.Machine.execSqTailDoorbell fn q off size v s
  | .cqHeadDoorbell fn q off size v => Sys2Proof.Machine.execCqHeadDoorbell fn q off size v s
  | .sqEntryFetch fn q => Sys2Proof.Machine.execSqEntryFetch fn q s
  | .adminQueueEnable fn => Sys2Proof.Machine.execAdminQueueEnable fn s
  | .adminQueueDisable fn => Sys2Proof.Machine.execAdminQueueDisable fn s
  | .bar4Access write off data => Sys2Proof.Machine.execBar4Access write off data s
  | .qpCreate fn q e => Sys2Proof.Machine.execQpCreate fn q e s
  | .qpDelete fn q e => Sys2Proof.Machine.execQpDelete fn q e s
  | .qpAllot fn q e => Sys2Proof.Machine.execQpAllot fn q e s
  | .programLoad fn q e => Sys2Proof.Machine.execProgramLoad fn q e s
  | .programUnload fn q e => Sys2Proof.Machine.execProgramUnload fn q e s
  | .jobAdmit fn q e => Sys2Proof.Machine.execJobAdmit fn q e s
  | .jobRelease fn q e => Sys2Proof.Machine.execJobRelease fn q e s
  | .modelLoad fn q e => Sys2Proof.Machine.execModelLoad fn q e s
  | .modelPin fn q e => Sys2Proof.Machine.execModelPin fn q e s
  | .modelUnpin fn q e => Sys2Proof.Machine.execModelUnpin fn q e s
  | .modelEvict fn q e => Sys2Proof.Machine.execModelEvict fn q e s
  | .modelLoadComplete h ev => Sys2Proof.Machine.execModelLoadComplete h ev s
  | .hotsetEvictionEnd h => Sys2Proof.Machine.execHotsetEvictionEnd h s
  | .windowMap fn q e => Sys2Proof.Machine.execWindowMap fn q e s
  | .windowUnmap fn q e => Sys2Proof.Machine.execWindowUnmap fn q e s
  | .query fn q e => Sys2Proof.Machine.execQuery fn q e s
  | .asyncEvent fn q e => Sys2Proof.Machine.execAsyncEvent fn q e s
  | .margin fn q e => Sys2Proof.Machine.execMargin fn q e s
  | .calibRead fn q e => Sys2Proof.Machine.execCalibRead fn q e s
  | .calibWrite fn q e => Sys2Proof.Machine.execCalibWrite fn q e s
  | .evrFreeze fn q e => Sys2Proof.Machine.execEvrFreeze fn q e s
  | .evrUnfreeze fn q e => Sys2Proof.Machine.execEvrUnfreeze fn q e s
  | .evrClear fn q e => Sys2Proof.Machine.execEvrClear fn q e s
  | .submit fn q e => Sys2Proof.Machine.execSubmit fn q e s
  | .dma fn q e ev => Sys2Proof.Machine.execDma fn q e ev s
  | .codecOpen fn q e => Sys2Proof.Machine.execCodecOpen fn q e s
  | .codecClose fn q e => Sys2Proof.Machine.execCodecClose fn q e s
  | .codecFrame fn q e => Sys2Proof.Machine.execCodecFrame fn q e s
  | .codecRelease fn q e => Sys2Proof.Machine.execCodecRelease fn q e s
  | .requestDispatch j => Sys2Proof.Machine.execRequestDispatch j s
  | .requestCompletion j => Sys2Proof.Machine.execRequestCompletion j s
  | .msixCoalesceTimeout fn q => Sys2Proof.Machine.execMsixCoalesceTimeout fn q s
  | .functionLevelReset fn => Sys2Proof.Machine.execFunctionLevelReset fn s
  | .hotReset => Sys2Proof.Machine.execHotReset s
  | .doeDiscovery fn obj => Sys2Proof.Machine.execDoeDiscovery fn obj s
  | .doeAbort fn => Sys2Proof.Machine.execDoeAbort fn s
  | .getCerts fn obj => Sys2Proof.Machine.execGetCerts fn obj s
  | .getReport fn obj => Sys2Proof.Machine.execGetReport fn obj s
  | .keyDeliver fn obj => Sys2Proof.Machine.execKeyDeliver fn obj s
  | .switch g j => Sys2Proof.Machine.execSwitch g j s
  | .quantumExpiry g => Sys2Proof.Machine.execQuantumExpiry g s
  | .collWatchdog j l => Sys2Proof.Machine.execCollWatchdog j l s
  | .goWaitTimeout j => Sys2Proof.Machine.execGoWaitTimeout j s
  | .data f piece => Sys2Proof.Machine.execData f piece s
  | .link f => Sys2Proof.Machine.execLink f s
  | .ackTimer port => Sys2Proof.Machine.execAckTimer port s
  | .replayTimeout port => Sys2Proof.Machine.execReplayTimeout port s
  | .portTraining port lanes => Sys2Proof.Machine.execPortTraining port lanes s
  | .portTrainRetry port lanes => Sys2Proof.Machine.execPortTrainRetry port lanes s
  | .linkDown port => Sys2Proof.Machine.execLinkDown port s
  | .helloTimer port => Sys2Proof.Machine.execHelloTimer port s
  | .roster f tower pos gen mib present => Sys2Proof.Machine.execRoster f tower pos gen mib present s
  | .towers f gen map => Sys2Proof.Machine.execTowers f gen map s
  | .reqReady f l req => Sys2Proof.Machine.execReqReady f l req s
  | .redVerdict f g granted => Sys2Proof.Machine.execRedVerdict f g granted s
  | .go f req verdict => Sys2Proof.Machine.execGo f req verdict s
  | .pause f l => Sys2Proof.Machine.execPause f l s
  | .resume f l => Sys2Proof.Machine.execResume f l s
  | .reqEnd f l req status => Sys2Proof.Machine.execReqEnd f l req status s
  | .jobFault f l cause => Sys2Proof.Machine.execJobFault f l cause s
  | .beat f l => Sys2Proof.Machine.execBeat f l s
  | .beatTimer j => Sys2Proof.Machine.execBeatTimer j s
  | .beatTimeout j => Sys2Proof.Machine.execBeatTimeout j s
  | .landed f l seq => Sys2Proof.Machine.execLanded f l seq s
  | .redResult f piece => Sys2Proof.Machine.execRedResult f piece s
  | .frameStart n => Sys2Proof.Machine.execFrameStart n s
  | .frameEnd e => Sys2Proof.Machine.execFrameEnd e s
  | .codecEngineHang n => Sys2Proof.Machine.execCodecEngineHang n s
  | .vaultRefresh v c bank => Sys2Proof.Machine.execVaultRefresh v c bank s
  | .vaultTempSample v layer temp => Sys2Proof.Machine.execVaultTempSample v layer temp s
  | .vaultWriteTurn v c => Sys2Proof.Machine.execVaultWriteTurn v c s
  | .vaultPatrol v lane ue => Sys2Proof.Machine.execVaultPatrol v lane ue s
  | .farAccessTimeout c j pa => Sys2Proof.Machine.execFarAccessTimeout c j pa s
  | .farUeWindowEnd c => Sys2Proof.Machine.execFarUeWindowEnd c s
  | .farRefreshRead pkg hot => Sys2Proof.Machine.execFarRefreshRead pkg hot s
  | .farWriteLost c j pa => Sys2Proof.Machine.execFarWriteLost c j pa s
  | .hostCompletionTimeout j pa => Sys2Proof.Machine.execHostCompletionTimeout j pa s
  | .arbGrant a reqs last => Sys2Proof.Machine.execArbGrant a reqs last s
  | .arbWithdraw a r => Sys2Proof.Machine.execArbWithdraw a r s
  | .arbWindowEnd a => Sys2Proof.Machine.execArbWindowEnd a s
  | .arbStarveFlag a r => Sys2Proof.Machine.execArbStarveFlag a r s
  | .netArbMode mode => Sys2Proof.Machine.execNetArbMode mode s
  | .evrData7Read => Sys2Proof.Machine.execEvrData7Read s
  | .evrFlush ok => Sys2Proof.Machine.execEvrFlush ok s
  | .evrFreezeLimit => Sys2Proof.Machine.execEvrFreezeLimit s
  | .storeHourlyWrite ok => Sys2Proof.Machine.execStoreHourlyWrite ok s
  | .coldReset strap fails => Sys2Proof.Machine.execColdReset strap fails s
  | .pwrgdFall => Sys2Proof.Machine.execPwrgdFall s
  | .warmReset strap fails => Sys2Proof.Machine.execWarmReset strap fails s
  | .perstNDeassert => Sys2Proof.Machine.execPerstNDeassert s
  | .farMemoryTraining fails => Sys2Proof.Machine.execFarMemoryTraining fails s
  | .pwrGateEn n en => Sys2Proof.Machine.execPwrGateEn n en s
  | .gateTransitionEnd n => Sys2Proof.Machine.execGateTransitionEnd n s
  | .thermalLevelUpdate temps video => Sys2Proof.Machine.execThermalLevelUpdate temps video s
  | .powerEstimate watts => Sys2Proof.Machine.execPowerEstimate watts s
  | .devLevelUpdate => Sys2Proof.Machine.execDevLevelUpdate s
  | .coreCurrentEstimate amps => Sys2Proof.Machine.execCoreCurrentEstimate amps s
  | .levelChangeDone c => Sys2Proof.Machine.execLevelChangeDone c s
  | .thermalTrip sensor temp => Sys2Proof.Machine.execThermalTrip sensor temp s
  | .shutdown fn => Sys2Proof.Machine.execShutdown fn s
  | .alertCauseClear fn mask => Sys2Proof.Machine.execAlertCauseClear fn mask s
  | .pllLockLost island which => Sys2Proof.Machine.execPllLockLost island which s
  | .railOutOfTolerance rail mv => Sys2Proof.Machine.execRailOutOfTolerance rail mv s
  | .lanternWatchdogExpiry => Sys2Proof.Machine.execLanternWatchdogExpiry s
  | .mgmtStatus => Sys2Proof.Machine.execMgmtStatus s
  | .mgmtShutdown => Sys2Proof.Machine.execMgmtShutdown s
  | .flashRead addr len => Sys2Proof.Machine.execFlashRead addr len s
  | .flashErase addr ok => Sys2Proof.Machine.execFlashErase addr ok s
  | .flashProgram addr bytes ok => Sys2Proof.Machine.execFlashProgram addr bytes ok s
  | .recoveryData off bytes => Sys2Proof.Machine.execRecoveryData off bytes s
  | .mgmtRecoveryBoot len fails => Sys2Proof.Machine.execMgmtRecoveryBoot len fails s
  | .bar0BadAccess fn off size write => Sys2Proof.Machine.execBar0BadAccess fn off size write s
  | .registerWrite fn off size v => Sys2Proof.Machine.execRegisterWrite fn off size v s
  | .marginComplete lanes => Sys2Proof.Machine.execMarginComplete lanes s
  | .pmD3hotEntry fn => Sys2Proof.Machine.execPmD3hotEntry fn s
  | .vfEnable n => Sys2Proof.Machine.execVfEnable n s
  | .doeUnsupportedObject fn obj => Sys2Proof.Machine.execDoeUnsupportedObject fn obj s
  | .jtagBoundaryScan ir dr => Sys2Proof.Machine.execJtagBoundaryScan ir dr s

end Sys2Proof.Machine
end

