-- ==== Sys2Proof/Machine/Tick.lean ====
section
/-! DEFINITION. What a microsecond does to the counters that run by themselves: the step of an empty queue (log 3). -/
namespace Sys2Proof.Machine

/-- A waiting record after a tick: the hang count of a blocked WAITS in spire cycles (03 R91), the watchdog of a blocked XRECV in µs
(13 R300). -/
def tickWait (n : Nat) (w : PWait) : PWait :=
  if w.ok then w else if w.recv then { w with wdog := w.wdog + 1 } else { w with hang := w.hang + n }

/-- The resident logical spire after `n` spire cycles (01 R25): a stolen iteration takes none of its own. The count of its cycles goes on
where it resumes on its physical spire without a change; a change, a restore or a dispatch starts it again (DESIGN CHOICE, log 59). -/
def tickCtx (n : Nat) (running : Bool) (c : LCtx) : LCtx :=
  { c with runCyc := if running then c.runCyc + n else c.runCyc, waits := c.waits.map (tickWait n) }

/-- A clocked spire after `n` cycles (03 Table SPI-10). -/
def tickSpire (n : Nat) (x : Spire) : Spire :=
  if x.st = .off then x
  else { x with cycles := (x.cycles + n) % 2 ^ 64, run := x.run.map (tickCtx n (x.st = .running && x.stolen.isNone)) }

/-- Spire cycles in a microsecond: the cupola's clock, halved in the clamp (19 R423, R424), none while it is gated. -/
def tickCycles (s : State) (c : Nat) : Nat :=
  if (gateOf s c).st != 2 then 0 else if s.power.clamp then cupMhz s c / 2 else cupMhz s c

/-- Has a logical spire of a job's request not ended yet, on its spires or saved? -/
def stillRuns (s : State) (j : Nat) (x : Job) : Bool :=
  if x.saved then x.spill.any fun c => !c.2.halted else (jobSpires x).any fun p => (spOf s p).job != some j || (spOf s p).st != .halted

/-- The time of a request runs while one of its logical spires has not ended (16 R369). -/
def tickReq (s : State) (j : Nat) (x : Job) : Job :=
  { x with running := x.running.map fun r => if stillRuns s j x then { r with haltAt := s.now + 1 } else r }

/-- The lantern has written the record of an error that a slice or a vault holds, and clears VALID (20 R443; log 54). -/
def ueSeen (s : State) : State :=
  { s with slices := s.slices.map fun x => (x.1, { x.2 with ueReg := ueClear x.2.ueReg })
           vaults := s.vaults.map fun x => (x.1, { x.2 with ueReg := ueClear x.2.ueReg }) }

/-- A codec engine's reset ends (15 R350; log 9). -/
def engTick (e : Engine) : Engine := { e with st := if e.st = 6 then 0 else e.st }

/-- What the lantern ends at a microsecond: flash operations (18 R395), an orderly shutdown whose flash writes may run, a device fault (19 R427, R430; log 57). -/
def lanternTick (s : State) : State :=
  let s := flashTick false s
  if shutdownDue s then shutdownEnd s else if s.boot.stage == .fault then faultReset s else s

/-- The completions that wait for crossing REQ_END messages are written (09 R231; log 36). -/
def endersFlush (s : State) : State := (s.jobs.map (·.1)).foldl (endersEnd none) s

/-- One microsecond passes; what the lantern ends then follows it. -/
def tick (s : State) : State :=
  lanternTick <| if fwUp s then
    endersFlush { ueSeen s with
      now := s.now + 1, arbs := s.arbs.map fun x => (x.1, arbTick x.1 x.2)
      jobs := s.jobs.map fun k => (k.1, tickReq s k.1 k.2)
      video := { s.video with engines := s.video.engines.map fun e => (e.1, engTick e.2) }
      spires := s.spires.map fun x => (x.1, tickSpire (tickCycles s (x.1 / 8)) x.2) }
  else { s with now := s.now + 1, arbs := if clocksOn s then s.arbs.map fun x => (x.1, arbTick x.1 x.2) else s.arbs }

end Sys2Proof.Machine
end

