-- ==== Sys2Proof/Safety.lean ====
section
/-! DEFINITION. What holds of every state that the block reaches from a state in which it holds, and the conditions on a state and on
operands under which a command has its own effect: the terms in which the claims are stated. -/
namespace Sys2Proof.Machine

/-- What an unlisted byte of host memory or of the recovery buffer reads as (log 12). -/
def zeroDflt (_ : Nat) : Option Byte := some 0
/-- What an unlisted byte of the flash reads as (log 13). -/
def erasedDflt (_ : Nat) : Option Byte := some 255

/-- The canonical form of the flash that an operation under way found (18 R411). -/
def flashWorkWf (w : FlashWork) : Bool :=
  match w with
  | .slots _ _ _ old _ => Memory.wf erasedDflt old
  | .record _ _ | .compact _ | .store _ _ | .calib _ => true

/-- The canonical form of every memory outside the spires. -/
structure MemInv (s : State) : Prop where
  hmem : Memory.wf zeroDflt s.hmem = true
  mem : s.mem.wf = true
  far : s.far.farWf = true
  flash : Memory.wf erasedDflt s.flash = true
  flashOld : s.flashOps.all (fun o => flashWorkWf o.work) = true
  recImg : Memory.wf zeroDflt s.boot.recImg = true

/-- The values that the spec lets registers of the block take: NET_ARB_MODE (11 Table NET-8), SCH_CTRL.QUANTUM (13 Table SCH-9),
PWR_CTRL.PLIMIT and DEV_LEVEL (19 Table PWR-8, R423), FAR_CTRL.UE_FENCE (10 R253). -/
structure RegInv (s : State) : Prop where
  netMode : s.netMode < 4
  quantum : 1 ≤ s.quantum ∧ s.quantum < 65536
  plimit : 600 ≤ s.power.plimit ∧ s.power.plimit ≤ 1600
  devLevel : s.power.devLevel ≤ 11
  ueFence : 1 ≤ s.ueFence ∧ s.ueFence < 16

/-! Tile instructions. -/

/-- The word `w` stands at the program counter of physical spire `p`, and the spire issues it: the word is legal (04 R95 to R97), its
predicate holds (R96), fewer than 8 instructions are in flight (03 R84). `i` is what the word meets. -/
structure Issues (o : Op) (s : State) (p : Nat) (w : IWord) (i : Iss) : Prop where
  spire : p < 256
  op : isOp o w.toNat = true
  fetched : issOf s p w.toNat = some i
  may : mayIssue i.x i.c = true
  legal : wordLegal w.toNat = true
  pred : predHolds i.c.preds (wNeg w.toNat) (wPred w.toNat) = true
  slots : i.x.infl.length < 8

/-- Every command that presents the word `w` to physical spire `p`, its accesses meeting no event. -/
def tileCommands (p : Nat) (w : IWord) : List Instr :=
  let m : Met IWord := { val := w }
  [.loop p m, .endl p m, .br p m, .yield p m, .halt p m, .gate p m, .finial p m, .mma p w [], .mma2 p w [], .vopTensor p w [],
   .vopScalar p m, .vopDescriptor p m, .sfn p w [], .rstat p w [], .cdw p w [], .attn p w [], .qnt p w [], .dqt p w [], .move p w [],
   .comb p w [], .xsend p w [], .xrecvArm p m, .xrecvWait p m, .sig p m, .waits p m, .fence p m]

/-- A data instruction is not refused (04 R101), not held (03 R84), and none of its accesses fails (09 R219, R228). -/
structure Goes (s : State) (i : Iss) (d : DataOp) : Prop where
  unrefused : firstBad d.chks = none
  free : dataHeld s i d = false
  access : accAll s i.y d.vrd (effRanges d.eff) = none

/-- The writes that an effect issues for a job, in their order: whether a write-back of a status word, the virtual and the device address, the
bytes. A piece that does not translate issues none. -/
def issuedBy (s : State) (y : Job) (e : Eff) : List (Bool × Nat × Nat × List Nat) :=
  let cut := fun (qsw : Bool) (va : Nat) (bs : List Nat) =>
    (issueCut s y va bs).filterMap fun l => (xlate s y l.1).map fun t => (qsw, l.1, t.2, l.2)
  ((effRuns e).flatMap fun w => cut false w.addr w.data) ++ e.qsw.flatMap fun a => cut true a (List.replicate 8 0)

/-- What a data instruction with effect `d` leaves of the spires, jobs and issued writes: other spires and other jobs are unchanged, one more
instruction is in flight, and the writes issued are the effect's, by its job, logical spire and instruction. -/
structure DataFrame (s : State) (p : Nat) (i : Iss) (d : DataOp) (t : State) : Prop where
  spires : ∀ q, q ≠ p → spOf t q = spOf s q
  jobs : ∀ j, j ≠ i.j → (∀ k ∈ s.wins, k.2.job ≠ j) ∨ d.post = id → jobOf t j = jobOf s j
  infl : (spOf t p).infl.length = i.x.infl.length + 1
  seq : (spOf t p).seq = i.x.seq + 1
  writes : ∃ l, t.writes = s.writes ++ l ∧ (l.map fun x => (x.qsw, x.va, x.pa, x.data)) = issuedBy s i.y d.eff
    ∧ ∀ x ∈ l, x.job = i.j ∧ x.lsp = i.c.lidx ∧ x.seq = i.x.seq

/-- The command `k`, where it answers a next state, changes the issuing spire only, and of it the state, the current context, which `keeps` says
what it keeps of the old one, and with nothing in flight that a halting logical spire has ended. -/
def OwnSpireOnly (s : State) (p : Nat) (i : Iss) (k : Instr) (keeps : LCtx → LCtx) : Prop :=
  ∀ t, exec k s = .next t →
    t = { s with spires := t.spires } ∧ (∀ q, q ≠ p → spOf t q = spOf s q)
    ∧ ∃ st c, c = keeps c ∧
      (spOf t p = setCtx { i.x with st := st } c
        ∨ i.x.stolen = none ∧ c.halting = true ∧ i.x.infl = [] ∧ spOf t p = setCtx { i.x with st := st } { c with halted := true })

/-! Host commands. -/

/-- The state once the lantern has taken a fetched entry from its mailbox (16 R366). -/
def taken (s : State) (x : Fetched) : State := { s with fetched := s.fetched.erase x }

/-- The reference of the command of an entry: its CMD_ID under the device's own token. -/
def cmdOf (f q : Nat) (x : Fetched) (e : Entry) : CmdRef := ⟨f, q, x.tok * 65536 + fld e.toNat 31 16⟩

/-- The lantern takes the entry `e` of queue pair `q` of function `f`: firmware runs, `x` is its mailbox entry and in order (16 R366), no
shutdown is under way (19 R427), bits 47:32 are zero (16 R362). -/
structure Takes (opc : Nat) (s : State) (f q : Nat) (e : Entry) (x : Fetched) : Prop where
  opcode : fld e.toNat 7 0 = opc
  fw : fwUp s = true
  front : fetchedOf s f q e = some x
  order : inOrder s x = true
  shutdown : s.power.shutdown = false
  resv : fld e.toNat 47 32 = 0

/-! Fabric frames. -/

/-- A frame of `n` payload bytes arrives and its link layer accepts it (14 R308, R309): the port's link is up, the FCS is correct, the
EtherType, version and type are known, the LSN is the one expected. -/
structure Accepted (s : State) (f : Frame) (type n : Nat) : Prop where
  ok : frOk (portOf s f.port) f type n = true
  fw : fwUp s = true
  up : portUp (portOf s f.port) = true
  fcs : f.fcs = true
  legal : frIllegal (portOf s f.port) f = false
  seq : f.lsn = (portOf s f.port).lsnExp

/-- The state once the link layer has taken an accepted frame. -/
def linked (s : State) (f : Frame) (n : Nat) : State := (linkTake s f n).1

/-- A frame of a piece from device `src` (M for the switch) lands in state `t`, its `n` bytes in the slot it names: no MARGIN holds it (10 R251),
the slot is armed and in the tiers of a control region, what lands there already is of the same piece, and its accesses do not fail (09 R219; 14
R323). -/
structure Lands (s t : State) (f : Frame) (j : Nat) (x : Job) (g : Grp) (src n : Nat) : Prop where
  margin : landHeld s f n = false
  control : ctlBad t x (slotAcc g f.slot) [] = none
  armed : slotArmed t x g f.slot = true
  here : ∀ l ∈ t.landings, l.job = j → l.group = f.group → l.slot = f.slot → f.first = false ∧ l.src = src
  access : accAll t x [] (landAcc g f.slot f.offset n f.last) = none

/-- An accepted lantern message (TYPE 5h) from member `l` of the job `x` in slot `j` of this device (14 R324). -/
structure FromMember (s : State) (f : Frame) (l j : Nat) (x : Job) : Prop where
  link : Accepted s f 5 0
  job : frJob (linked s f 0) f = some (j, x)
  src : frSrc x f = some l

end Sys2Proof.Machine
end

