-- ==== Sys2Proof/WellFormed.lean ====
section
/-! DEFINITION. Which commands are well-formed: units within their counts, words and entries with the command's own opcode, fields within
their widths. What depends on the state is checked by the meanings. -/
namespace Sys2Proof

open Machine (Op isOp fld bitOf)

/-- An error event names a bank, port, lane, channel or status that exists. -/
def AccEv.wf : AccEv → Bool
  | .bankCycle bank ports => bank < 32 && ports.all fun q => q.2 < 5
  | .spireCe src bank => src < 4 && bank < 32
  | .spireUe src place => src < 4 && place < (if src = 0 then 0x300000 else 2 ^ 32)
  | .vaultCe v c lane => v < 32 && c < 64 && lane < 72
  | .domeCe sl => sl < 32
  | .vaultUe pa => pa < 0x002000000000
  | .domeUe pa cls => if 0x004000000000 ≤ pa && pa < 0x004010000000 then cls = 0
      else if pa < 0x002000000000 && 0xFE000000 ≤ pa % 2 ^ 32 then cls = 2
      else cls < 3 && (pa < 0x002000000000 || (0x010000000000 ≤ pa && pa < 0x020000000000))
  | .farCe pa | .farUe pa | .farTimeout pa | .farLost pa => 0x010000000000 ≤ pa && pa < 0x020000000000
  | .hostErr status pa => 0x0407 ≤ status && status ≤ 0x040A && 0x100000000000 ≤ pa && pa < 0x1000000000000

/-- An error event that a DMA can meet: none of a spire, and a host error without a window address. -/
def AccEv.wfDma : AccEv → Bool
  | .bankCycle _ _ | .spireCe _ _ | .spireUe _ _ => false
  | .hostErr status _ => 0x0407 ≤ status && status ≤ 0x040A
  | e => e.wf

/-- An error event that a model load can meet: none of a job's line, of a spire or of a write-back. -/
def AccEv.wfLoad : AccEv → Bool
  | .farLost _ => false
  | .domeUe pa cls => cls != 0 && (AccEv.domeUe pa cls).wf
  | e => e.wfDma

/-- An error event that an access of an agent other than a spire can meet. -/
def AccEv.wfAgent : AccEv → Bool
  | .bankCycle _ _ | .spireCe _ _ | .spireUe _ _ => false
  | e => e.wf

/-- An error event that a word without data can meet: one of the sequencer's state (03 R85). -/
def AccEv.wfSeq : AccEv → Bool
  | .spireCe src bank => src = 3 && bank < 32
  | .spireUe src place => src = 3 && place < 2 ^ 32
  | _ => false

/-- An error event that the merge read of a write can meet: none of a spire or the host. -/
def AccEv.wfMerge : AccEv → Bool
  | .bankCycle _ _ | .spireCe _ _ | .spireUe _ _ | .farLost _ | .hostErr _ _ => false
  | e => e.wf

/-- A tile word issued on a physical spire: an illegal one, or one with the command's opcode and form. -/
def tileWf (o : Op) (p : Nat) (w : IWord) (form : Bool := true) : Bool := p < 256 && ((isOp o w.toNat && form) || !Machine.wordLegal w.toNat)

/-- A host entry with the command's opcode. -/
def hostWf (opc : Nat) (e : Entry) : Bool := fld e.toNat 7 0 = opc

/-- A frame's header fields fit their widths (14 Table FAB-3). -/
def Frame.wf (f : Frame) : Bool :=
  f.port < 4 && f.ver < 256 && f.type < 16 && f.vc < 4 && f.cvc < 4 && f.lsn < 65536 && f.ackLsn < 65536 && f.cred < 16384
  && f.srcFa < 65536 && f.dstFa < 65536 && f.job < 2 ^ 64 && f.group < 16 && f.slot < 2 ^ 24 && f.offset < 2 ^ 32 && f.plen < 2 ^ 32
  && f.ether < 65536

/-- Physical channels whose failing lanes a boot names, and their counts of lanes. -/
def failsWf (fails : Met (List (Nat × Nat))) : Bool :=
  (fails.val.all fun f => f.1 < 2048 && f.2 ≤ 74) && fails.ev.all fun e => match e with
    | .vaultCe v c lane => v < 32 && c < 64 && lane < 72
    | _ => false

/-- Is a command well-formed? -/
def Instr.wf : Instr → Bool
  | .loop p w => tileWf .loop p w.val && w.ev.all AccEv.wfSeq
  | .endl p w => tileWf .endl p w.val && w.ev.all AccEv.wfSeq
  | .br p w => tileWf .br p w.val && w.ev.all AccEv.wfSeq
  | .yield p w => tileWf .yield p w.val && w.ev.all AccEv.wfSeq
  | .halt p w => tileWf .halt p w.val && w.ev.all AccEv.wfSeq
  | .gate p w => tileWf .gate p w.val && w.ev.all AccEv.wf
  | .finial p w => tileWf .finial p w.val && w.ev.all AccEv.wfSeq
  | .mma p w ev => tileWf .mma p w && ev.all AccEv.wf
  | .mma2 p w ev => tileWf .mma2 p w && ev.all AccEv.wf
  | .vopTensor p w ev => tileWf .vop p w (fld w.toNat 127 126 = 0) && ev.all AccEv.wf
  | .vopScalar p w => tileWf .vop p w.val (fld w.val.toNat 127 126 = 1) && w.ev.all AccEv.wfSeq
  | .vopDescriptor p w => tileWf .vop p w.val (fld w.val.toNat 127 126 = 2) && w.ev.all AccEv.wfSeq
  | .sfn p w ev => tileWf .sfn p w && ev.all AccEv.wf
  | .rstat p w ev => tileWf .rstat p w && ev.all AccEv.wf
  | .cdw p w ev => tileWf .cdw p w && ev.all AccEv.wf
  | .attn p w ev => tileWf .attn p w && ev.all AccEv.wf
  | .qnt p w ev => tileWf .qnt p w && ev.all AccEv.wf
  | .dqt p w ev => tileWf .dqt p w && ev.all AccEv.wf
  | .move p w ev => tileWf .move p w && ev.all AccEv.wf
  | .comb p w ev => tileWf .comb p w && ev.all AccEv.wf
  | .xsend p w ev => tileWf .xsend p w && ev.all AccEv.wf
  | .xrecvArm p w => tileWf .xrecv p w.val (!bitOf w.val.toNat 113) && w.ev.all AccEv.wf
  | .xrecvWait p w => tileWf .xrecv p w.val (bitOf w.val.toNat 113) && w.ev.all AccEv.wf
  | .sig p w => tileWf .sig p w.val && w.ev.all AccEv.wfSeq
  | .waits p w => tileWf .waits p w.val && w.ev.all AccEv.wfSeq
  | .fence p w => tileWf .fence p w.val && w.ev.all AccEv.wfSeq
  | .instructionComplete _ _ | .fenceComplete _ _ | .xsendComplete _ _ | .pstrMgroupStart _ _ | .spireHang _
  | .carriedSpireQuantum _ => true
  | .carriedSpireChange p | .saveComplete p => p.ev.all AccEv.wf
  | .stealIteration p owner => p < 256 && owner < 256 && p != owner && p / 8 = owner / 8
  | .clear p | .run p | .saveReq p | .sfnCompat p _ => p < 256
  | .semaphoreHomeCycle scope home sigs order => scope < 2 && home < 32 && sigs.eraseDups = sigs && order.val.eraseDups = order.val
      && order.ev.all AccEv.wfMerge
  | .homeWriteApply o => o.ev.all AccEv.wfMerge
  | .ringAdv _ r | .ringRel _ r | .keyListGeneration _ r | .prefixWrite _ r => r.ev.all AccEv.wfAgent
  | .sqTailDoorbell fn _ off size v => fn < 17 && off != 4 && off < 4096 && v < 2 ^ (8 * size)
  | .cqHeadDoorbell fn _ off size v => fn < 17 && off != 0 && off < 4096 && v < 2 ^ (8 * size)
  | .sqEntryFetch _ _ | .msixCoalesceTimeout _ _ => true
  | .adminQueueEnable fn | .adminQueueDisable fn | .functionLevelReset fn | .pmD3hotEntry fn | .shutdown fn | .doeAbort fn => fn < 17
  | .bar4Access _ _ d => !d.bytes.isEmpty && d.bytes.length ≤ 4096 && d.ev.all AccEv.wfAgent
  | .qpCreate _ _ e => hostWf 0x01 e
  | .qpDelete _ _ e => hostWf 0x02 e
  | .qpAllot _ _ e => hostWf 0x03 e
  | .programLoad _ _ e => hostWf 0x05 e
  | .programUnload _ _ e => hostWf 0x06 e
  | .jobAdmit _ _ e => hostWf 0x08 e
  | .jobRelease _ _ e => hostWf 0x09 e
  | .modelLoad _ _ e => hostWf 0x0A e
  | .modelPin _ _ e => hostWf 0x0B e
  | .modelUnpin _ _ e => hostWf 0x0C e
  | .modelEvict _ _ e => hostWf 0x0D e
  | .windowMap _ _ e => hostWf 0x10 e
  | .windowUnmap _ _ e => hostWf 0x11 e
  | .query _ _ e => hostWf 0x18 e
  | .asyncEvent _ _ e => hostWf 0x1C e
  | .margin _ _ e => hostWf 0x20 e
  | .calibRead _ _ e => hostWf 0x21 e
  | .calibWrite _ _ e => hostWf 0x22 e
  | .evrFreeze _ _ e => hostWf 0x28 e
  | .evrUnfreeze _ _ e => hostWf 0x29 e
  | .evrClear _ _ e => hostWf 0x2A e
  | .submit _ _ e => hostWf 0x40 e
  | .dma _ _ e ev => hostWf 0x41 e && ev.all AccEv.wfDma
  | .codecOpen _ _ e => hostWf 0x48 e
  | .codecClose _ _ e => hostWf 0x49 e
  | .codecFrame _ _ e => hostWf 0x4A e
  | .codecRelease _ _ e => hostWf 0x4B e
  | .modelLoadComplete _ ev => ev.all AccEv.wfLoad
  | .hotsetEvictionEnd _ | .requestDispatch _ | .requestCompletion _ | .switch _ _ | .quantumExpiry _
  | .collWatchdog _ _ | .goWaitTimeout _ | .beatTimer _ | .beatTimeout _ => true
  | .hotReset | .evrData7Read | .evrFlush _ | .evrFreezeLimit | .storeHourlyWrite _ | .pwrgdFall | .perstNDeassert
  | .devLevelUpdate | .lanternWatchdogExpiry | .mgmtStatus | .mgmtShutdown | .coreCurrentEstimate _ => true
  | .doeDiscovery fn obj => fn < 17 && obj.length = 12
  | .getCerts fn _ | .getReport fn _ | .keyDeliver fn _ | .doeUnsupportedObject fn _ => fn < 17
  | .data f d | .redResult f d => f.wf && d.bytes.length ≤ 4096 && d.ev.all AccEv.wfAgent
  | .link f | .reqReady f _ _ | .pause f _ | .resume f _ | .beat f _ | .landed f _ _ => f.wf
  | .redVerdict f g _ => f.wf && g < 16
  | .go f _ verdict => f.wf && verdict < 2
  | .reqEnd f _ _ status => f.wf && status < 2 ^ 16
  | .jobFault f _ cause => f.wf && cause < 2 ^ 16
  | .roster f tower pos gen _ present => f.wf && tower < 128 && pos < 64 && gen < 2 ^ 32 && present.all fun e => e.1 < 64 && e.2 < 2 ^ 64
  | .towers f gen map => f.wf && gen < 2 ^ 32 && map.all (· < 128)
  | .ackTimer port | .replayTimeout port | .helloTimer port | .linkDown port => port < 4
  | .portTraining port lanes | .portTrainRetry port lanes => port < 4 && lanes < 256
  | .frameStart n | .codecEngineHang n => n < 4
  | .frameEnd e => e.n < 4 && e.ev.all AccEv.wfAgent
  | .vaultRefresh v c bank => v < 32 && c < 64 && bank < 32
  | .vaultTempSample v layer _ => v < 32 && layer < 4
  | .vaultWriteTurn v c => v < 32 && c < 64
  | .vaultPatrol v lane _ => v < 32 && lane.all (· < 72)
  | .farAccessTimeout c _ _ | .farUeWindowEnd c | .farWriteLost c _ _ => c < 64
  | .farRefreshRead pkg _ => pkg < 16
  | .hostCompletionTimeout _ _ => true
  | .arbGrant a _ _ | .arbWithdraw a _ | .arbWindowEnd a | .arbStarveFlag a _ => a < 2404
  | .netArbMode mode => mode < 4
  | .coldReset strap fails | .warmReset strap fails => strap < 4 && failsWf fails
  | .farMemoryTraining fails => fails.all (· < 64)
  | .pwrGateEn n _ | .gateTransitionEnd n => n < 104
  | .thermalLevelUpdate temps _ => temps.length = 96
  | .powerEstimate watts => watts < 2 ^ 16
  | .levelChangeDone c => c < 33
  | .thermalTrip sensor _ => sensor < 256
  | .alertCauseClear fn mask => fn < 17 && mask < 256
  | .pllLockLost island which => island < 7 && which < 256
  | .railOutOfTolerance rail mv => rail < 64 && mv < 2 ^ 16
  | .flashRead addr len => addr < 2 ^ 32 && len < 2 ^ 16
  | .flashErase addr _ => addr < 2 ^ 32
  | .flashProgram addr bytes _ => addr < 2 ^ 32 && bytes.length ≤ 256
  | .recoveryData off bytes => off < 2 ^ 32 && bytes.length ≤ 256
  | .mgmtRecoveryBoot len fails => len < 2 ^ 32 && failsWf fails
  | .bar0BadAccess fn off size _ => fn < 17 && off < 0x2000000 && size != 0 && !((size = 4 || size = 8) && off % size = 0)
  | .registerWrite fn off size v => fn < 18 && off < 0x2000000 && (size = 4 || size = 8) && off % size = 0 && v < 2 ^ (8 * size)
  | .marginComplete lanes => lanes.all fun e => e.1 < 256 && e.1 != 128 && e.2.1 < 256 && e.2.1 != 128
  | .vfEnable n => 1 ≤ n && n ≤ 16
  | .jtagBoundaryScan _ _ => true

end Sys2Proof
end

