-- ==== Sys2Proof/Certificates/Slice0/Obligations.lean ====
section
/-! DEFINITION. The statements for the provers. Each says under which conditions on the state and the operands commands complete and what
they leave, or what holds of every command. -/

open Sys2Proof Sys2Proof.Machine

/-! The machine. -/

/-- A step with command `c` at the front of the queue is exec of `c` on the state with the queue's rest. -/
def Obligations.StepRunsTheFrontCommand : Prop :=
  ∀ (c : Instr) (s : State) (rest : List Instr), s.pending = c :: rest → step s = exec c { s with pending := rest }

/-- The model's choice (log 3): with an empty queue a step lets one microsecond pass. The clock of the model rises by one. While firmware runs
every arbiter goes on by `arbTick`, the time of every job's running request by `tickReq`, every codec engine by `engTick`, VALID of the recorded
memory errors returns to 0 (`ueSeen`), a spire that is not OFF counts its clock's cycles, and no other field of the state changes before the
completions that wait for crossing REQ_END messages are written (`endersFlush`, log 36); where no job has one, nothing more is. Without firmware
the clock rises, and the arbiters go on only while their clocks run. Then the lantern ends the flash operations whose time has come, a shutdown
whose flash writes may run goes on, and a device fault goes on to its reset (log 57); with none of the three due nothing more happens. -/
def Obligations.EmptyQueueLetsTimePass : Prop :=
  ∀ s : State, s.pending = [] →
    ∃ u t, step s = .next (lanternTick t)
      ∧ (fwUp s = false → t = { s with now := s.now + 1, arbs := t.arbs }
          ∧ ∀ a, tfind t.arbs a = if clocksOn s = true then (tfind s.arbs a).map (arbTick a) else tfind s.arbs a)
      ∧ (fwUp s = true → t = endersFlush u
          ∧ u = { s with now := s.now + 1, arbs := u.arbs, jobs := u.jobs, spires := u.spires, slices := (ueSeen s).slices
                         vaults := (ueSeen s).vaults
                         video := { s.video with engines := s.video.engines.map fun e => (e.1, engTick e.2) } }
          ∧ (∀ a, tfind u.arbs a = (tfind s.arbs a).map (arbTick a))
          ∧ (∀ j, jobOf u j = (jobOf s j).map (tickReq s j))
          ∧ (∀ j x r, jobOf s j = some x → x.running = some r → ∃ y, jobOf u j = some { x with running := some y }
              ∧ (stillRuns s j x = true → y = { r with haltAt := s.now + 1 }) ∧ (stillRuns s j x = false → y = r))
          ∧ (∀ p, (tfind s.spires p = none → tfind u.spires p = none)
              ∧ ∀ x, tfind s.spires p = some x → ∃ y, tfind u.spires p = some y ∧ (x.st = .off → y = x)
                  ∧ (x.st ≠ .off → y.cycles = (x.cycles + tickCycles s (p / 8)) % 2 ^ 64 ∧ y = { x with cycles := y.cycles, run := y.run }
                      ∧ y.run = x.run.map (tickCtx (tickCycles s (p / 8)) (x.st = .running && x.stolen.isNone))))
          ∧ ((∀ k ∈ s.jobs, k.2.enders = []) → t = u))
      ∧ (shutdownDue t = false → t.boot.stage ≠ .fault → (∀ o ∈ t.flashOps, t.now < o.till) → lanternTick t = t)

/-- The registers whose reset values the spec states hold them in State.reset: SCH_CTRL.QUANTUM 100, FAR_CTRL.UE_FENCE 4, FAB_L2's
EtherType 88B5h, PLIMIT 1,600, every port enabled, every spire OFF with HANG_SHIFT 28, every other gate of the 104 OFF and a fabric port's ON. -/
def Obligations.ResetHoldsTheStatedValues : Prop :=
  State.reset.quantum = 100 ∧ State.reset.ueFence = 4 ∧ State.reset.etherType = 0x88B5 ∧ State.reset.vlanEn = false
    ∧ State.reset.power.plimit = 1600 ∧ State.reset.power.devLevel = 0 ∧ State.reset.power.shutdown = false
    ∧ State.reset.pending = [] ∧ State.reset.jobs = [] ∧ State.reset.images = []
    ∧ (∀ p, (spOf State.reset p).st = .off ∧ (spOf State.reset p).hangShift = 28 ∧ (spOf State.reset p).cycles = 0)
    ∧ (∀ p, (portOf State.reset p).en = true ∧ (portOf State.reset p).st = .down
        ∧ (portOf State.reset p).w1 = 6 ∧ (portOf State.reset p).w2 = 3 ∧ (portOf State.reset p).w3 = 1)
    ∧ (∀ n, 36 ≤ n → n < 40 → (gateOf State.reset n).st = 2 ∧ (gateOf State.reset n).en = true)
    ∧ (∀ n, n < 104 → (n < 36 ∨ 40 ≤ n) → (gateOf State.reset n).st = 0 ∧ (gateOf State.reset n).en = false)

/-- The invariants of memory and registers hold at reset. -/
def Obligations.ResetMeetsTheInvariants : Prop := MemInv State.reset ∧ RegInv State.reset

/-- Every step keeps the canonical form of every memory outside the spires. -/
def Obligations.StepKeepsMemoryCanonical : Prop := ∀ s t : State, MemInv s → step s = .next t → MemInv t

/-- Every step keeps the registers within the values that the spec lets them take. -/
def Obligations.StepKeepsRegisterRanges : Prop := ∀ s t : State, RegInv s → step s = .next t → RegInv t

/-- A command changes everything but the queue: exec leaves the waiting commands as they are. -/
def Obligations.ExecLeavesTheQueue : Prop := ∀ (c : Instr) (s t : State), exec c s = .next t → t.pending = s.pending

/-- A command that is not well-formed is refused in every state. That such a command is refused, with a refusal of its own name, is the model's
choice: the spec does not say what a command outside its operands' ranges does (DESIGN CHOICE, log 4). -/
def Obligations.IllFormedCommandsAreRefused : Prop := ∀ (c : Instr) (s : State), c.wf = false → ∃ r, exec c s = .refused r

/-! Tile instructions: control. -/

/-- LOOP opens a loop of its count, or passes to the word after its ENDL when the count is 0; a LOOP with eight loops open is refused with
LOOP_DEPTH; ENDL of a loop with iterations left goes back to the word after the LOOP with S_IND raised by STEP when IND_EN is set, and
ENDL of a finished loop closes it and passes on, once no iteration is on a thief and, in a stealable loop, nothing of its own iterations is
in flight, with S_IND at its value in the last iteration where thieves ran the last ones; the trace markers of stolen iterations then enter
the trace in their order (the model's choice, log 59: they are held until then); at the end of a stolen iteration ENDL returns it to its owner (04 R125, R128, R129). -/
def Obligations.LoopAndEndlComplete : Prop :=
  (∀ s p w i, Issues .loop s p w i → i.c.loops.length < 8 → loopCnt i.c w.toNat ≠ 0 →
    exec (.loop p ⟨w, []⟩) s = .next (atOnce s p { i.c with pc := i.c.pc + 1, loops := loopFrame i.y.steal i.c w.toNat :: i.c.loops }))
  ∧ (∀ s p w i, Issues .loop s p w i → i.c.loops.length < 8 → loopCnt i.c w.toNat = 0 →
    exec (.loop p ⟨w, []⟩) s = .next (atOnce s p { i.c with pc := i.c.pc + loopBody w.toNat + 1 }))
  ∧ (∀ s p w i, Issues .loop s p w i → 8 ≤ i.c.loops.length →
    exec (.loop p ⟨w, []⟩) s = .next (refuse s p i.j i.c (true, 0x107, 0, 0)))
  ∧ (∀ s p w i f rest, Issues .endl s p w i → i.x.stolen = none → i.c.loops = f :: rest → f.it + 1 < f.top →
    exec (.endl p ⟨w, []⟩) s = .next (atOnce s p
      { i.c with pc := f.pc + 1, loops := { f with it := f.it + 1 } :: rest
                 sregs := if f.indEn then tset i.c.sregs f.sInd ((tget 0 i.c.sregs f.sInd + f.step) % 2 ^ 64) else i.c.sregs }))
  ∧ (∀ s p w i f rest, Issues .endl s p w i → i.x.stolen = none → i.c.loops = f :: rest → f.top ≤ f.it + 1 →
    f.out = 0 → (f.steal = false ∨ ∀ g ∈ i.x.infl, ¬ (g.lidx = i.c.lidx ∧ f.pc < g.pc ∧ g.pc < f.fin)) →
    exec (.endl p ⟨w, []⟩) s = .next (traceAdd (atOnce s p
      { i.c with pc := i.c.pc + 1, loops := rest
                 sregs := if f.indEn = true ∧ f.top < f.cnt then tset i.c.sregs f.sInd (indAt f (f.cnt - 1)) else i.c.sregs })
      i.j ((f.marks.mergeSort fun a b => a.1 ≤ b.1).flatMap (·.2))))
  ∧ (∀ s j ms, ∀ y, jobOf s j = some y → traceAdd s j [] = s
      ∧ jobOf (traceAdd s j ms) j = some { y with traceRing := if y.trace then y.traceRing ++ ms else y.traceRing })
  ∧ (∀ s p w i t, Issues .endl s p w i → i.x.stolen = some t → i.x.infl = [] → exec (.endl p ⟨w, []⟩) s = .next (stolenEnd s p t))

/-- BR goes to the word at its own index plus OFFSET; YIELD passes on and gives the spire up to its other logical spire where that can run;
HALT makes the logical spire halting, and it is halted once nothing is in flight (04 R126). -/
def Obligations.BranchYieldHaltComplete : Prop :=
  (∀ s p w i, Issues .br s p w i →
    exec (.br p ⟨w, []⟩) s = .next (atOnce s p { i.c with pc := ((i.c.pc : Int) + sext 24 (fld w.toNat 127 104)).toNat }))
  ∧ (∀ s p w i, Issues .yield s p w i →
    exec (.yield p ⟨w, []⟩) s = .next (modSp s p fun x => settle { setCtx x { i.c with pc := i.c.pc + 1 } with
      changing := x.changing || (x.stolen.isNone && runnable x.other) }))
  ∧ (∀ s p w i, Issues .halt s p w i → exec (.halt p ⟨w, []⟩) s = .next (atOnce s p { i.c with halting := true }))

/-- GATE writes PD and the GATE state with its decision (exact: reuse only with P7 = 0, a valid previous table of the pass before and equal
fingerprints; threshold: only below the threshold) and counts it; FINIAL writes a marker of TAG, logical spire and cycles since the
dispatch into the trace ring while tracing is on; the marker of a stolen iteration is held with the thief until the iteration's loop ends (the
model's choice, log 59) (04 R127, R128; 08 R206, R210). -/
def Obligations.GateAndFinialComplete : Prop :=
  (∀ s p w i, Issues .gate s p w i →
    let n := w.toNat
    let thr := bitOf n 127
    let cur := tdF i.c n 126 121
    let prev := tdF i.c n 120 115
    let k := sF i.c n 114 110
    let rs := gateReads thr cur prev k
    let g := gateDec (rdI s p i) (predBit i.c.preds 7) thr cur prev k (sF i.c n 109 105)
    firstBad (tdChk false cur ++ tdIf (!thr) false prev) = none →
    ivHeld i.x (tdScratchIv cur ++ ivIf (!thr) prev) [] = false →
    accAll s i.y ((rs.filter fun r => r.1.space != 0).map (·.2)) [] = none →
    exec (.gate p ⟨w, []⟩) s = .next (modJob
      (atOnce s p { i.c with pc := i.c.pc + 1, preds := predSet i.c.preds (fld n 104 102) g.compute, gate := b2n g.compute }) i.j
      fun y => ctrAdd (ctrAdd (ctrAdd y .gateEvals 1) .gateReuse (b2n !g.compute)) .gateForced (b2n g.forced)))
  ∧ (∀ s p w i, Issues .finial s p w i →
    let m := [fld w.toNat 127 96, i.c.lidx, (i.x.cycles - i.x.cycDisp) % 2 ^ 64]
    let u := atOnce s p { i.c with pc := i.c.pc + 1 }
    (i.x.stolen = none ∨ i.y.trace = false → exec (.finial p ⟨w, []⟩) s = .next (modJob u i.j fun y =>
      if y.trace then { y with traceRing := y.traceRing ++ [m] } else y))
    ∧ (∀ z, i.x.stolen = some z → i.y.trace = true → ∃ t, exec (.finial p ⟨w, []⟩) s = .next t
        ∧ t = { s with spires := t.spires } ∧ (∀ q, q ≠ p → spOf t q = spOf s q)
        ∧ (spOf t p).stolen = some { z with ctx := { i.c with pc := i.c.pc + 1 }, marks := z.marks ++ [m] }))

/-- GATE in exact mode writes PD = 0 only when P7 is 0, the header of TD_PREV has VALID = 1, its PASS plus 1 equals the PASS of TD_CUR
modulo 2^32, and the two entries at S_TILE are equal; otherwise it writes PD = 1, and where P7 is 1 or a header fails it counts in
GATE_FORCED (08 R206). -/
def Obligations.GateReusesOnlyEqualEntries : Prop :=
  ∀ s p w i, Issues .gate s p w i → bitOf w.toNat 127 = false →
    let n := w.toNat
    let cur := tdF i.c n 126 121
    let prev := tdF i.c n 120 115
    let k := sF i.c n 114 110
    let rs := gateReads false cur prev k
    let hc := rdLe (rdI s p i cur.space) cur.base 8
    let hp := rdLe (rdI s p i prev.space) prev.base 8
    firstBad (tdChk false cur ++ tdChk false prev) = none →
    ivHeld i.x (tdScratchIv cur ++ tdScratchIv prev) [] = false →
    accAll s i.y ((rs.filter fun r => r.1.space != 0).map (·.2)) [] = none →
    ∃ compute forced : Bool,
      exec (.gate p ⟨w, []⟩) s = .next (modJob
        (atOnce s p { i.c with pc := i.c.pc + 1, preds := predSet i.c.preds (fld n 104 102) compute, gate := b2n compute }) i.j
        fun y => ctrAdd (ctrAdd (ctrAdd y .gateEvals 1) .gateReuse (b2n !compute)) .gateForced (b2n forced))
      ∧ (compute = false ↔ predBit i.c.preds 7 = false ∧ bitOf hp 0 = true ∧ (fld hp 63 32 + 1) % 2 ^ 32 = fld hc 63 32
          ∧ rdLe (rdI s p i prev.space) (prev.base + 64 + 8 * k) 8 = rdLe (rdI s p i cur.space) (cur.base + 64 + 8 * k) 8)
      ∧ (forced = true ↔ predBit i.c.preds 7 = true ∨ bitOf hp 0 = false ∨ (fld hp 63 32 + 1) % 2 ^ 32 ≠ fld hc 63 32)

/-- VOP in scalar form writes SD with the result modulo 2^64, or PD for a compare; VOP in descriptor form writes the named field with S, or S
with the field zero-extended (04 R109, R110). Sums, differences and the signed compare are stated by their arithmetic. -/
def Obligations.ScalarAndDescriptorVopComplete : Prop :=
  (∀ s p w i, Issues .vop s p w i → fld w.toNat 127 126 = 1 →
    let n := w.toNat
    let op := fld n 110 105
    let a := sF i.c n 120 116
    let b := if bitOf n 104 then wrap64 (sext 32 (fld n 103 72)) else sF i.c n 115 111
    (op = 1 → exec (.vopScalar p ⟨w, []⟩) s = .next (atOnce s p
      { i.c with pc := i.c.pc + 1, sregs := tset i.c.sregs (fld n 125 121) ((a + b) % 2 ^ 64) }))
    ∧ (op = 2 → a < 2 ^ 64 → b < 2 ^ 64 → exec (.vopScalar p ⟨w, []⟩) s = .next (atOnce s p
      { i.c with pc := i.c.pc + 1, sregs := tset i.c.sregs (fld n 125 121) ((a + 2 ^ 64 - b) % 2 ^ 64) }))
    ∧ (op = 0x12 → exec (.vopScalar p ⟨w, []⟩) s = .next (atOnce s p
      { i.c with pc := i.c.pc + 1, preds := predSet i.c.preds (fld n 71 69) (decide (sext 64 a < sext 64 b)) }))
    ∧ (op < 0x10 → exec (.vopScalar p ⟨w, []⟩) s = .next (atOnce s p
      { i.c with pc := i.c.pc + 1
                 sregs := tset i.c.sregs (fld n 125 121) (scalarOp op (sF i.c n 125 121) a b (fld n 103 72)) }))
    ∧ (0x10 ≤ op → exec (.vopScalar p ⟨w, []⟩) s = .next (atOnce s p
      { i.c with pc := i.c.pc + 1, preds := predSet i.c.preds (fld n 71 69) (scalarCmp op a b) })))
  ∧ (∀ s p w i, Issues .vop s p w i → fld w.toNat 127 126 = 2 →
    let n := w.toNat
    let b := tdField (fld n 119 116)
    let td := fld n 125 120
    let e := tget 0 i.c.tds td
    (bitOf n 115 = true → exec (.vopDescriptor p ⟨w, []⟩) s = .next (atOnce s p
      { i.c with pc := i.c.pc + 1, sregs := tset i.c.sregs (fld n 114 110) (fld e b.1 b.2) }))
    ∧ (bitOf n 115 = false → exec (.vopDescriptor p ⟨w, []⟩) s = .next (atOnce s p
      { i.c with pc := i.c.pc + 1, tds := tset i.c.tds td (setFld e b.1 b.2 (sF i.c n 114 110)) })))

/-- The frame of LOOP, ENDL, BR, HALT and VOP in scalar and descriptor form where they go. A LOOP that is not refused, an ENDL outside a stolen
iteration that brings no trace markers, a BR, a HALT and a VOP leave everything but the issuing spire unchanged, and of that spire everything
but its state, its current context and the end of a halting logical spire; of the context LOOP changes the pc and the loops, ENDL these and the
scalar registers, BR the pc, HALT that it halts, a scalar VOP the pc, the scalar registers and the predicates, a descriptor VOP the pc, the scalar
registers and the descriptors. An ENDL that brings markers changes its job's trace ring beside this; one that ends a stolen iteration changes the
contexts of its owner as well. A write of P0 is discarded (03 R86; 04 R109, R110, R125, R126, R129). -/
def Obligations.AtOnceChangesItsSpireOnly : Prop :=
  (∀ s p (w : IWord) i,
    (Issues .loop s p w i → i.c.loops.length < 8 → OwnSpireOnly s p i (.loop p ⟨w, []⟩) fun c =>
      { i.c with pc := c.pc, loops := c.loops })
    ∧ (Issues .endl s p w i → i.x.stolen = none → (∀ f ∈ i.c.loops.head?, f.marks = []) → OwnSpireOnly s p i (.endl p ⟨w, []⟩) fun c =>
      { i.c with pc := c.pc, loops := c.loops, sregs := c.sregs })
    ∧ (Issues .br s p w i → OwnSpireOnly s p i (.br p ⟨w, []⟩) fun c => { i.c with pc := c.pc })
    ∧ (Issues .halt s p w i → OwnSpireOnly s p i (.halt p ⟨w, []⟩) fun _ => { i.c with halting := true })
    ∧ (Issues .vop s p w i → fld w.toNat 127 126 = 1 → OwnSpireOnly s p i (.vopScalar p ⟨w, []⟩) fun c =>
      { i.c with pc := c.pc, sregs := c.sregs, preds := c.preds })
    ∧ (Issues .vop s p w i → fld w.toNat 127 126 = 2 → OwnSpireOnly s p i (.vopDescriptor p ⟨w, []⟩) fun c =>
      { i.c with pc := c.pc, sregs := c.sregs, tds := c.tds }))
  ∧ (∀ s p w i t, Issues .endl s p w i → exec (.endl p ⟨w, []⟩) s = .next t →
    t = { s with spires := t.spires, jobs := t.jobs }
    ∧ (∀ q, q ≠ p → (∀ z, i.x.stolen = some z → q ≠ z.owner) → spOf t q = spOf s q)
    ∧ (∀ z, i.x.stolen = some z → z.owner ≠ p → ∃ run other, spOf t z.owner = { spOf s z.owner with run := run, other := other })
    ∧ (∀ j, j ≠ i.j → jobOf t j = jobOf s j)
    ∧ ∃ ring, jobOf t i.j = some { i.y with traceRing := ring })
  ∧ ∀ preds v, predSet preds 0 v = preds

/-! Tile instructions: data. -/

/-- A data instruction whose operands are legal, whose hazards are free and whose accesses succeed takes its effect: its result bytes go to
the scratchpad or are issued as writes, it is in flight until its completion, and the program counter passes to the next word. That the bytes
are in the scratchpad and the writes issued in the step of issue is the model's choice (DESIGN CHOICE, log 25). Stated where the accesses meet no
event; what the errors of 03 R85 and 09 R228 do to an instruction that meets them is not stated here (03 R83, R84; 04 R98, R101; 11 R256). -/
def Obligations.DataInstructionsComplete : Prop :=
  (∀ s p w i, Issues .mma s p w i → Goes s i (mmaOp s p i w.toNat) →
    exec (.mma p w []) s = .next (dataGo s p i w.toNat (mmaOp s p i w.toNat)))
  ∧ (∀ s p w i, Issues .mma2 s p w i → Goes s i (mma2Op s p i w.toNat) →
    exec (.mma2 p w []) s = .next (dataGo s p i w.toNat (mma2Op s p i w.toNat)))
  ∧ (∀ s p w i, Issues .vop s p w i → fld w.toNat 127 126 = 0 → Goes s i (vopOp s p i w.toNat) →
    exec (.vopTensor p w []) s = .next (dataGo s p i w.toNat (vopOp s p i w.toNat)))
  ∧ (∀ s p w i, Issues .sfn s p w i → Goes s i (sfnOp s p i w.toNat) →
    exec (.sfn p w []) s = .next (dataGo s p i w.toNat (sfnOp s p i w.toNat)))
  ∧ (∀ s p w i, Issues .rstat s p w i → Goes s i (rstatOp s p i w.toNat) →
    exec (.rstat p w []) s = .next (dataGo s p i w.toNat (rstatOp s p i w.toNat)))
  ∧ (∀ s p w i, Issues .cdw s p w i → Goes s i (cdwOp s p i w.toNat) →
    exec (.cdw p w []) s = .next (dataGo s p i w.toNat (cdwOp s p i w.toNat)))
  ∧ (∀ s p w i, Issues .attn s p w i → Goes s i (attnOp s p i w.toNat) →
    exec (.attn p w []) s = .next (dataGo s p i w.toNat (attnOp s p i w.toNat)))
  ∧ (∀ s p w i, Issues .qnt s p w i → Goes s i (qntOp s p i w.toNat) →
    exec (.qnt p w []) s = .next (dataGo s p i w.toNat (qntOp s p i w.toNat)))
  ∧ (∀ s p w i, Issues .dqt s p w i → Goes s i (dqtOp s p i w.toNat) →
    exec (.dqt p w []) s = .next (dataGo s p i w.toNat (dqtOp s p i w.toNat)))
  ∧ (∀ s p w i, Issues .move s p w i → Goes s i (moveOp s p i w.toNat) →
    exec (.move p w []) s = .next (dataGo s p i w.toNat (moveOp s p i w.toNat)))
  ∧ (∀ s p w i, Issues .comb s p w i → Goes s i (combOp s p i w.toNat) →
    exec (.comb p w []) s = .next (dataGo s p i w.toNat (combOp s p i w.toNat)))
  ∧ (∀ s p w i, Issues .xsend s p w i → Goes s i (xsendOp [] s p i w.toNat) →
    exec (.xsend p w []) s = .next (dataGo s p i w.toNat (xsendOp [] s p i w.toNat)))

/-- The frame of the data instructions where they go. MMA, MMA2, VOP in tensor form, SFN, RSTAT, CDW, QNT, DQT, MOVE and COMB: memory, host
memory and far memory read as before (a store to job memory is an issued write until its home performs it, 11 R256), every byte of the
issuing spire's scratchpad outside the runs that the effect writes there reads as before, the writes issued are the pieces of the effect's runs in
their order at the device addresses to which they translate, and all but the issuing spire, its job, the issued writes and the identifiers is
unchanged. ATTN the same, but for its score buffer and the pin counts of the plan's prefix entries. XSEND to another member or the switch: all
but the issuing spire (not its scratchpad), the sends of its job and its one port is unchanged. XSEND to its own device, where the piece lands:
every byte outside the slot, its word and its maps reads as before, and of the spires only those of the job change. -/
def Obligations.DataInstructionFrame : Prop :=
  (∀ s p w i (d : DataOp), issOf s p w = some i → accAll s i.y d.vrd (effRanges d.eff) = none → d.post = id →
    let t := dataGo s p i w d
    t = { s with spires := t.spires, jobs := t.jobs, writes := t.writes, ids := t.ids }
    ∧ (∀ pa, paByte t pa = paByte s pa)
    ∧ (∀ a, (∀ v ∈ d.eff.wr, v.space = 0 → a < v.addr ∨ v.addr + v.data.length ≤ a) → (spOf t p).sp.get a = (spOf s p).sp.get a)
    ∧ DataFrame s p i d t)
  ∧ (∀ s p i w, ∀ d ∈ [mmaOp s p i w, mma2Op s p i w, vopOp s p i w, sfnOp s p i w, rstatOp s p i w, cdwOp s p i w, qntOp s p i w,
      dqtOp s p i w, moveOp s p i w, combOp s p i w], d.post = id)
  ∧ (∀ s p w i, issOf s p w = some i →
    let d := attnOp s p i w
    let b := tdF i.c w 103 98
    let t := dataGo s p i w d
    accAll s i.y d.vrd (effRanges d.eff) = none →
    t = { s with spires := t.spires, jobs := t.jobs, writes := t.writes, ids := t.ids, mem := t.mem, far := t.far, hmem := t.hmem
                 vchans := t.vchans }
    ∧ (i.y.plan.prefixes = [] → t = { s with spires := t.spires, jobs := t.jobs, writes := t.writes, ids := t.ids })
    ∧ (∀ pa, paKind pa ≠ .window → (∀ e ∈ i.y.plan.prefixes, ∀ o, o < 16 → (xlate s i.y (e.entry + o)).map (·.2) ≠ some pa) →
        paByte t pa = paByte s pa)
    ∧ (∀ a, (∀ v ∈ d.eff.wr, v.space = 0 → a < v.addr ∨ v.addr + v.data.length ≤ a) → (a < b.base ∨ tdEnd b ≤ a) →
        (spOf t p).sp.get a = (spOf s p).sp.get a)
    ∧ DataFrame s p i d t)
  ∧ (∀ s p w i g l, issOf s p w = some i → sendTo i w = some (g, l) → accAll s i.y (xsendOp [] s p i w).vrd [] = none → l ≠ .dev i.y.l →
    let t := dataGo s p i w (xsendOp [] s p i w)
    let port := match l with
      | .dev d => pairPort i.y.l d
      | .switch => fld w 121 118 % 4
    t = { s with spires := t.spires, jobs := t.jobs, ports := t.ports, fabOut := t.fabOut, ids := t.ids }
    ∧ (∀ q, q ≠ p → spOf t q = spOf s q) ∧ (spOf t p).sp = (spOf s p).sp ∧ (spOf t p).infl.length = i.x.infl.length + 1
    ∧ (∀ j, j ≠ i.j → jobOf t j = jobOf s j)
    ∧ (∃ sent parts, jobOf t i.j = some { i.y with sent := sent, redParts := parts })
    ∧ (∀ pi, pi ≠ port → portOf t pi = portOf s pi))
  ∧ (∀ s p w i g, issOf s p w = some i → sendTo i w = some (g, .dev i.y.l) →
    let slot := sF i.c w 112 108
    let n := sF i.c w 107 103 % 2 ^ 32
    let t := dataGo s p i w (xsendOp [] s p i w)
    accAll s i.y (xsendOp [] s p i w).vrd [] = none → ctlBad s i.y (slotAcc g slot) [] = none → slotArmed s i.y g slot = true →
    (∀ l ∈ s.landings, ¬ (l.job = i.j ∧ l.group = fld w 121 118 ∧ l.slot = slot)) → accAll s i.y [] (landAcc g slot 0 n true) = none →
    t = { s with spires := t.spires, jobs := t.jobs, mem := t.mem, far := t.far, hmem := t.hmem, vchans := t.vchans, wbulk := t.wbulk
                 ids := t.ids }
    ∧ (∀ j, j ≠ i.j → (∀ k ∈ s.wins, k.2.job ≠ j) → jobOf t j = jobOf s j)
    ∧ (∀ q, q ≠ p → q ∉ i.y.place → q ≠ raSpire i.y g → spOf t q = spOf s q)
    ∧ (g.raSp = false → ∀ q, (spOf t q).sp = (spOf s q).sp)
    ∧ (∀ pa, paKind pa ≠ .window →
        (∀ r ∈ landAcc g slot 0 n true, ∀ o, o < r.2 → (xlate s i.y (r.1 + o)).map (·.2) ≠ some pa) → paByte t pa = paByte s pa))

/-- W2 codes are packed four to a byte, element 4j + i in bits [2i+1:2i] of byte j, and the codes 0 to 3 mean -3, -1, +1 and +3: W2 has no
zero. A block of zero weights is expressed by its block scale code 00h: its contribution is +0 whatever its codes (02 R31). -/
def Obligations.W2CodesHaveTheirValues : Prop :=
  (∀ rd t r j i, t.fmt = 3 → i < 4 →
    elemVal rd t r (4 * j + i) = fpOfInt ([-3, -1, 1, 3].getD (fld (rd t.space (rowAddr t r + j)) (2 * i + 1) (2 * i)) 0)
    ∧ fpIsZero (elemVal rd t r (4 * j + i)) = false)
  ∧ ∀ a w : Blk, w.sc = 0 → w.outs = [] → a.outs = [] → blockContrib a w = 0

/-- Quantisation to A8 never produces the code 80h: under every setting of OUT_EN and RHO and for every block of values, the non-finite
ones among them, each stored code is a byte other than 80h (02 R30, R48). -/
def Obligations.A8CodesAreNever80h : Prop :=
  ∀ rho outEn (vs : List Fp), ∀ c ∈ (quantBlk 5 rho outEn vs).codes, c < 256 ∧ c ≠ 0x80

/-- A word whose predicate does not hold has no effect but to pass on: to the next word, or for LOOP to the word after its ENDL. This
holds of every instruction, whatever is in flight: such a word takes part in no hazard (04 R96). -/
def Obligations.UnpredicatedWordHasNoEffect : Prop :=
  ∀ s p (w : IWord) i, issOf s p w.toNat = some i → mayIssue i.x i.c = true → wordLegal w.toNat = true →
    predHolds i.c.preds (wNeg w.toNat) (wPred w.toNat) = false →
    ∀ c ∈ tileCommands p w, c.wf = true → exec c s =
      .next (atOnce s p { i.c with pc := if isOp .loop w.toNat then i.c.pc + loopBody w.toNat + 1 else i.c.pc + 1 })

/-- An illegal word does not execute, whatever its opcode and form and whichever command presents it: the spire takes the state FAULTED with
cause ILLEGAL_ENCODING (0100h) and the word's index, and the job ends with that cause (03 Table SPI-5; 04 R97, R101). -/
def Obligations.IllegalWordFaultsItsJob : Prop :=
  ∀ s p (w : IWord) i, p < 256 → issOf s p w.toNat = some i → mayIssue i.x i.c = true → wordLegal w.toNat = false →
    ∀ c ∈ tileCommands p w, exec c s =
      .next (jobFault (modSp s p fun x => { x with st := .faulted, cause := 0x100, param := i.c.pc }) i.j 0x100 i.c.lidx 0)

/-! Completion, fences, sends. -/

/-- INSTRUCTION_COMPLETE, FENCE_COMPLETE and XSEND_COMPLETE free the units, intervals and pins of an instruction whose work is done; FENCE
goes in flight with the identifiers given out so far; PSTR_MGROUP_START computes the next m-group of a piece stream whose pieces are READY;
XRECV with WAIT = 0 arms the slots it names, with WAIT = 1 it becomes a pending wait that is tested at once (03 R83; 04 R123; 14 R326 to
R328). -/
def Obligations.CompletionsFencesAndReceivesComplete : Prop :=
  (∀ s p seq f, spClk s p = true → inflOf (spOf s p) seq = some f → workDone s p f = true →
    exec (.instructionComplete p seq) s = .next (finish s p f))
  ∧ (∀ s p w i, Issues .fence s p w i → exec (.fence p ⟨w, []⟩) s = .next (modSp s p fun x =>
      { setCtx x { i.c with pc := i.c.pc + 1 } with
        seq := x.seq + 1
        infl := x.infl ++ [{ seq := i.x.seq, lidx := i.c.lidx, pc := i.c.pc, word := w.toNat, units := [], rd := [], wr := [], wait := 1
                             lat := [s.ids, s.now], since := i.x.cycles }] }))
  ∧ (∀ s p seq f j, spClk s p = true → inflOf (spOf s p) seq = some f → (spOf s p).job = some j → f.wait = 1 → fenceDone s p j f = true →
    exec (.fenceComplete p seq) s = .next (finish s p f))
  ∧ (∀ s p seq f, spClk s p = true → inflOf (spOf s p) seq = some f → f.wait = 2 →
    (∀ pi, pi < 4 → ∀ g ∈ (portOf s pi).txq, g.id ≠ nth f.lat 0) → exec (.xsendComplete p seq) s = .next (finish s p f))
  ∧ (∀ s p seq j c f y, spClk s p = true → (spOf s p).job = some j → curCtx (spOf s p) = some c → pstrOf (spOf s p) seq = some f → jobOf s j = some y →
    accAll s y (pstrWords (nth f.lat 3) f.mg) [] = none → pstrReady s y (nth f.lat 3) f.mg = true → pstrHeld s p y f = false → exec (.pstrMgroupStart p seq) s = .next (pstrGo s p j y c f))
  ∧ (∀ s p w i g first count, Issues .xrecv s p w i → bitOf w.toNat 113 = false → recvGrp i w.toNat = some (g, first, count) →
    ctlBad s i.y [] ((recvSlots first count).flatMap (slotAcc g)) = none → exec (.xrecvArm p ⟨w, []⟩) s =
      .next ((recvSlots first count).foldl (fun s k => armSlot s i.j g k) (atOnce s p { i.c with pc := i.c.pc + 1 })))
  ∧ (∀ s p w i g first count, Issues .xrecv s p w i → bitOf w.toNat 113 = true → recvGrp i w.toNat = some (g, first, count) →
    i.y.paused = [] → ctlBad s i.y ((recvSlots first count).flatMap (slotAcc g)) [] = none →
    exec (.xrecvWait p ⟨w, []⟩) s = .next (recvRetest (atOnce { s with ids := s.ids + 1 } p
      { i.c with pc := i.c.pc + 1
                 waits := i.c.waits ++ [{ id := s.ids + 1, recv := true, scope := 0, home := 0, va := 0, target := 0, dec := false
                                          ok := false, group := fld w.toNat 127 124, first := first, count := count
                                          sdrop := fld w.toNat 112 108, hang := 0, wdog := 0 }] }) i.j))

/-- When a fence completes, every older instruction of its logical spire has completed, and every older issued write of the kinds that it
names (cupola, dome store, device memory, host) has been performed at its home (04 R123; 11 R258). -/
def Obligations.FenceCompletesOnlyAfterCoveredWrites : Prop :=
  ∀ s t p seq f j, inflOf (spOf s p) seq = some f → (spOf s p).job = some j → exec (.fenceComplete p seq) s = .next t →
    (∀ g ∈ (spOf s p).infl, g.lidx = f.lidx → f.seq ≤ g.seq)
    ∧ ∀ w ∈ s.writes, w.job = j → w.lsp = f.lidx → w.id ≤ nth f.lat 0 →
        (bitOf (fld f.word 127 122) 3 = true → paKind w.pa ≠ .vault ∧ paKind w.pa ≠ .far)
        ∧ (bitOf (fld f.word 127 122) 2 = true → paKind w.pa ≠ .dome)
        ∧ (bitOf (fld f.word 127 122) 4 = true → w.host = false)
        ∧ (bitOf (fld f.word 127 122) 1 = true → homeSlice w.pa ≠ some (p / 8))

/-! Semaphores and writes at their homes. -/

/-- SIG sends its value to the semaphore's home and is in flight until it is applied; WAITS becomes a wait pending at the home; a cycle of a
home applies the SIGs that reach it, then grants waits without DEC, then those with DEC (04 R122; 12 R278). -/
def Obligations.SemaphoreCommandsComplete : Prop :=
  (∀ s p w i r, Issues .sig s p w i → semRef s p i.y i.c.lidx (fld w.toNat 127 127) (sF i.c w.toNat 126 122) = some r →
    exec (.sig p ⟨w, []⟩) s =
      let t := plainGo s p i (plainInfl i w.toNat 4)
      .next { t with ids := s.ids + 1
                     sigs := s.sigs ++ [{ id := s.ids + 1, job := i.j, p := p, lsp := i.c.lidx, seq := i.x.seq, scope := r.scope
                                          home := r.home, key := r.key, val := semImm i.c w.toNat }] })
  ∧ (∀ s p w i r, Issues .waits s p w i → semRef s p i.y i.c.lidx (fld w.toNat 127 127) (sF i.c w.toNat 126 122) = some r →
    exec (.waits p ⟨w, []⟩) s = .next (atOnce { s with ids := s.ids + 1 } p
      { i.c with pc := i.c.pc + 1
                 waits := i.c.waits ++ [{ id := s.ids + 1, recv := false, scope := r.scope, home := r.home, va := r.va
                                          target := semImm i.c w.toNat, dec := bitOf w.toNat 83, ok := false, group := 0, first := 0
                                          count := 0, sdrop := 0, hang := 0, wdog := 0 }] }))
  ∧ (∀ s scope home sigs order, scope < 2 → home < 32 → sigs.eraseDups = sigs → order.eraseDups = order → fwUp s = true →
    sigs.all (sigReady s scope home) = true → (sigs ≠ [] ∨ waitsAt s scope home ≠ []) →
    (∀ a ∈ waitsAt s scope home, a.w.dec = true → a.w.id ∈ order) →
    exec (.semaphoreHomeCycle scope home sigs ⟨order, []⟩) s = .next (homeCycle s scope home sigs order))

/-- A cycle of a home that one SIG reaches while no wait is pending there adds VAL to the semaphore, modulo 2^32. At a cupola's home every other
cupola semaphore and all memory stay as they were. At a slice, where the semaphore is an aligned word of a dome-store page, every other byte of
vault and dome store, far memory, host memory and every cupola semaphore stay as they were, and of the jobs only the sender's changes: the bytes
that its request wrote are noted, and an ADV or REL word of one of its rings asks its assist for as many requests (04 R122; 06 R166; 12 R278). -/
def Obligations.SigAddsToItsSemaphore : Prop :=
  (∀ s home (g : Sig), fwUp s = true → home < 32 → s.sigs.filter (fun h => h.id = g.id) = [g] → sigReady s 0 home g.id = true →
    waitsAt s 0 home = [] →
    ∃ t, exec (.semaphoreHomeCycle 0 home [g.id] ⟨[], []⟩) s = .next t
      ∧ semVal t 0 home g.key = (semVal s 0 home g.key + g.val) % 2 ^ 32
      ∧ (∀ c k, (c, k) ≠ (home, g.key) → k < 256 → g.key < 256 → semVal t 0 c k = semVal s 0 c k)
      ∧ t = { s with csem := t.csem, sigs := s.sigs.filter (·.id != g.id), spires := t.spires } ∧ ∀ p, spOf t p = spOf s p)
  ∧ ∀ s home (g : Sig), fwUp s = true → home < 32 → s.sigs.filter (fun h => h.id = g.id) = [g] → sigReady s 1 home g.id = true →
    waitsAt s 1 home = [] → g.key % 4 = 0 → paKind g.key = .dome →
    ∃ t, exec (.semaphoreHomeCycle 1 home [g.id] ⟨[], []⟩) s = .next t
      ∧ semVal t 1 home g.key = (semVal s 1 home g.key + g.val) % 2 ^ 32
      ∧ (∀ a, (a < g.key ∨ g.key + 4 ≤ a) → t.mem.get a = s.mem.get a)
      ∧ t = { s with mem := t.mem, jobs := t.jobs, sigs := s.sigs.filter (·.id != g.id), spires := t.spires }
      ∧ (∀ p, spOf t p = spOf s p) ∧ (∀ j, j ≠ g.job → jobOf t j = jobOf s j)
      ∧ ∀ x, jobOf s g.job = some x → ∃ y, jobOf t g.job = some y ∧ y = { x with dirty := y.dirty, rings := y.rings, running := y.running }
        ∧ (y.dirty = if x.running.isSome then x.dirty ++ [(unplacePa x g.key, 4)] else x.dirty)
        ∧ ∀ ri r, x.plan.rings[ri]? = some r → (xlate s x r.ctl).map (·.2) = some g.key →
          (ringOf y ri).adv = (ringOf x ri).adv + g.val

/-- HOME_WRITE_APPLY performs an issued write, with the events that its merge read can meet: for a write of bytes to a vault or dome-store
address, outside every margin run, without an event, each byte of the line then reads as written, every other byte of vault and dome store as before, and far memory and
host memory are unchanged (11 R256, R257). -/
def Obligations.HomeWritesArePerformed : Prop :=
  (∀ s id w ev, s.writes.find? (fun v => v.id == id) = some w → fwUp s = true →
    marginHolds s w.pa (wrLen w) = false → ev.all (evMerges s w) = true → exec (.homeWriteApply ⟨id, ev⟩) s = .next (homeWrite s w ev))
  ∧ (∀ s id w, s.writes.find? (fun v => v.id == id) = some w → fwUp s = true →
    marginHolds s w.pa (wrLen w) = false → w.qsw = false → (paKind w.pa = .vault ∨ paKind w.pa = .dome) →
    ∃ t, exec (.homeWriteApply ⟨id, []⟩) s = .next t
      ∧ (∀ k, k < w.data.length → (t.mem.get (w.pa + k)).toNat = nth w.data k % 256)
      ∧ (∀ a, (a < w.pa ∨ w.pa + w.data.length ≤ a) → t.mem.get a = s.mem.get a)
      ∧ t.far = s.far ∧ t.hmem = s.hmem ∧ t.writes = s.writes.filter (fun v => v.id != id) ∧ t.jobs = s.jobs ∧ t.spires = s.spires)

/-! Spires: hang, carried spires, stealing, saving, registers. -/

/-- SPIRE_HANG ends the job of a hung spire; a due change saves the running logical spire and restores the other; a quantum of 1,048,576
cycles asks for a change; a thief takes the highest iteration not yet started; a spire with nothing in flight completes a requested save. That
the PARAM of SPIRE_HANG is the program counter of the running logical spire is the model's choice (DESIGN CHOICE, log 52) (01 R25; 03 R89, R91;
04 R129). -/
def Obligations.SpireEventsComplete : Prop :=
  (∀ s p j, spClk s p = true → (spOf s p).job = some j → hung (spOf s p) = true →
    exec (.spireHang p) s = .next (spireFault s p j 4 (((spOf s p).run.map (·.pc)).getD 0)))
  ∧ (∀ s p, spClk s p = true → changeDue (spOf s p) = true → (spOf s p).infl = [] → ((spOf s p).st = .running ∨ (spOf s p).st = .blocked) →
    exec (.carriedSpireChange ⟨p, []⟩) s = .next (doChange s p))
  ∧ (∀ s p c, spClk s p = true → (spOf s p).st = .running → (spOf s p).stolen = none → runnable (spOf s p).other = true → (spOf s p).run = some c → 1048576 ≤ c.runCyc →
    exec (.carriedSpireQuantum p) s = .next (modSp s p fun x => { x with changing := true }))
  ∧ (∀ s p owner c f j y, spClk s p = true → p < 256 → owner < 256 → p ≠ owner → p / 8 = owner / 8 → stealFrom (spOf s owner) = some (c, f) →
    (spOf s p).job = some j → (spOf s owner).job = some j → jobOf s j = some y → y.steal = true → mayStealNow (spOf s p) = true →
    (spOf s owner).saveReq = false → exec (.stealIteration p owner) s = .next (doSteal s p owner c f))
  ∧ (∀ s p j, spClk s p = true → (spOf s p).job = some j → saveReady (spOf s p) = true → exec (.saveComplete ⟨p, []⟩) s = .next (doSave s p j))

/-- A stolen iteration is the owner's highest not yet started: the thief's context starts at the first word of the body, the owner's loop ends
one iteration earlier and has one more outside, and the theft is counted as a placement choice of the thief (04 R129; 12 R277). -/
def Obligations.StealTakesTheHighestIteration : Prop :=
  ∀ s t p owner c f, exec (.stealIteration p owner) s = .next t → stealFrom (spOf s owner) = some (c, f) →
    (∃ z, (spOf t p).stolen = some z ∧ z.it = f.top - 1 ∧ z.owner = owner ∧ z.ctx.pc = f.pc + 1 ∧ z.ctx.preds = f.preds
        ∧ z.ctx.tds = f.tds)
    ∧ (spOf t p).st = .running ∧ (spOf t p).plStolen = satAdd 32 (spOf s p).plStolen 1
    ∧ (let take := fun (x : LCtx) => modFrame x c.lidx f.pc fun g => { g with top := f.top - 1, out := g.out + 1 }
      spOf t owner = { spOf s owner with run := (spOf s owner).run.map take, other := (spOf s owner).other.map take })
    ∧ (∀ q, q ≠ p → q ≠ owner → spOf t q = spOf s q) ∧ t = { s with spires := t.spires }

/-- The control registers of an enabled spire while firmware runs. CLEAR in IDLE, HALTED and FAULTED zeroises the spire, clears its
counters but CYCLES and CE_COUNT, and leaves it IDLE; in another state it is ignored. That CLEAR keeps CYCLES is the model's reading (DEDUCED,
log 18). RUN in IDLE or LOADING with a program loaded starts it with the compatibility mode written last; that RUN with no program, or in another
state, changes nothing is the model's choice (DESIGN CHOICE, log 59). SAVE_REQ in RUNNING and BLOCKED requests a
save, which starts at once where no change and no stolen iteration is under way; in another state it is ignored. SFN_COMPAT is discarded in
RUNNING, BLOCKED and SAVING, and is held for the next RUN in every other state (03 R89, R92, Tables SPI-5 and SPI-8). Once the uncore of its
cupola has lost lock every such write is discarded (20 R440). -/
def Obligations.SpireRegisterWrites : Prop :=
  (∀ s p on, p < 256 → fwUp s = true → spEnabled s p = true → uncoreOut s (p / 8) = true →
    ∀ c ∈ [Instr.clear p, .run p, .saveReq p, .sfnCompat p on], exec c s = .next s)
  ∧ ∀ s p, p < 256 → fwUp s = true → spEnabled s p = true → uncoreOut s (p / 8) = false →
    let x := spOf s p
    ((x.st = .idle ∨ x.st = .halted ∨ x.st = .faulted) →
      exec (.clear p) s = .next (doClear s p)
      ∧ ∃ t, exec (.clear p) s = .next t ∧ t = { s with spires := t.spires, jobs := t.jobs } ∧ (∀ q, q ≠ p → spOf t q = spOf s q)
        ∧ (spOf t p).st = .idle ∧ (spOf t p).run = none ∧ (spOf t p).other = none ∧ (spOf t p).infl = [] ∧ (spOf t p).sp = {}
        ∧ (spOf t p).saveReq = false ∧ (spOf t p).stalls = 0 ∧ (spOf t p).cause = 0 ∧ (spOf t p).param = 0
        ∧ (spOf t p).ordContests = 0 ∧ (spOf t p).ordSwred = 0 ∧ (spOf t p).plStolen = 0 ∧ (spOf t p).plChanges = 0
        ∧ (spOf t p).eccCnt = x.eccCnt ∧ (spOf t p).cycles = x.cycles ∧ (spOf t p).compatReg = x.compatReg)
    ∧ (x.st ≠ .idle → x.st ≠ .halted → x.st ≠ .faulted → exec (.clear p) s = .next s)
    ∧ ((x.st = .idle ∨ x.st = .loading) → x.run ≠ none →
        exec (.run p) s = .next (modSp s p fun x => settle { x with st := .running, compat := x.compatReg, cycDisp := x.cycles }))
    ∧ (∀ c, (x.st = .idle ∨ x.st = .loading) → x.run = some c → c.halting = false → c.halted = false → ctxBlocked c = false →
        x.saveReq = false →
        exec (.run p) s = .next (modSp s p fun x => { x with st := .running, compat := x.compatReg, cycDisp := x.cycles }))
    ∧ (x.st ≠ .idle ∧ x.st ≠ .loading ∨ x.run = none →
        ∃ t, exec (.run p) s = .next t ∧ t = { s with spires := t.spires } ∧ ∀ q, spOf t q = spOf s q)
    ∧ ((x.st = .running ∨ x.st = .blocked) →
        exec (.saveReq p) s = .next (modSp s p fun x => settle { x with saveReq := true })
        ∧ (x.changing = false → x.stolen = none → ∃ t, exec (.saveReq p) s = .next t ∧ t = { s with spires := t.spires }
            ∧ (∀ q, q ≠ p → spOf t q = spOf s q) ∧ (spOf t p).st = .saving ∧ (spOf t p).saveReq = true
            ∧ (spOf t p).infl = x.infl ∧ (spOf t p).other = x.other ∧ (spOf t p).sp = x.sp))
    ∧ (x.st ≠ .running → x.st ≠ .blocked →
        ∃ t, exec (.saveReq p) s = .next t ∧ t = { s with spires := t.spires } ∧ ∀ q, spOf t q = spOf s q)
    ∧ (x.st ≠ .running → x.st ≠ .blocked → x.st ≠ .saving → ∀ on,
        exec (.sfnCompat p on) s = .next (modSp s p fun x => { x with compatReg := on }))
    ∧ ((x.st = .running ∨ x.st = .blocked ∨ x.st = .saving) → ∀ on,
        ∃ t, exec (.sfnCompat p on) s = .next t ∧ t = { s with spires := t.spires } ∧ ∀ q, spOf t q = spOf s q)


/-! Rings and prefixes. -/

/-- The assists serve a request that is due: ADV opens the next chunk, REL retires the oldest, the key lists of a chunk are written once the
chunk they need is open, and a write to a shared prefix page takes a copy page or the page itself (06 R166 to R168, R175). -/
def Obligations.RingAndPrefixCommandsComplete : Prop :=
  (∀ s j ri x r, ringAt s j ri = some (x, r) → (ringOf x ri).held = false → 0 < (ringOf x ri).adv →
    ringPages x ri r = true → accTier s x [1] (ctlAcc r) (ctlAcc r) = none → exec (.ringAdv j ⟨ri, []⟩) s = .next (ringAdv s j ri x r))
  ∧ (∀ s j ri x r, ringAt s j ri = some (x, r) → 0 < (ringOf x ri).rel → accTier s x [1] (ctlAcc r) (ctlAcc r) = none →
    exec (.ringRel j ⟨ri, []⟩) s = .next (ringRel s j ri x r))
  ∧ (∀ s j ri x r, ringAt s j ri = some (x, r) → listsDue s x ri r = true → accTier s x [1] (ctlAcc r) (ctlAcc r) = none →
    (∀ q ∈ (listAcc (ringPat r) (ringOf x ri).lists).1 ++ (listAcc (ringPat r) (ringOf x ri).lists).2, marginVa s x q.1 q.2 = false) →
    exec (.keyListGeneration j ⟨ri, []⟩) s = .next (ringLists s j ri x r))
  ∧ (∀ s j vpn x q e, jobOf s j = some x → pfxOf x vpn = some q → tfind x.pt vpn = some e → fwUp s = true → x.running.isSome = true →
    x.saved = false → (pfxCopies s x q = false ∨ s.glb.margin = none ∧ ∃ n ∈ x.copies, sameTier e n = true) →
    accTier s x [1] [(q.entry, 16)] [(q.entry, 16)] = none →
    exec (.prefixWrite j ⟨vpn, []⟩) s = .next (prefixWrite s j vpn x q e))


/-! Host queues. -/

/-- A command that completes while its completion ring has a free slot and nothing waits for it: its 32-byte entry, with the queue pair, the
flags, the status, the submission head, the CMD_ID, the lateness, the parameter, the result and the phase, is written at the tail of the
ring in host memory, the tail advances modulo the ring's size, the phase flips at the wrap, and no other byte of host memory changes
(16 R363, R364), and with IEN = 0 no message follows. One that finds its ring full waits: its entry joins the waiting ones, and nothing is
written to host memory. -/
def Obligations.CompletionEntryIsWritten : Prop :=
  ∀ (s : State) (r : CmdRef) (flags status late param result : Nat) (q : QPair),
    tfind (fnOf s r.fn).qps r.qp = some q → r.cmd ∈ q.opened →
    let e := cqeBits r.qp flags status q.sqHead (r.cmd % 65536) late param result
    let held := { q with opened := q.opened.erase r.cmd, waitq := q.waitq ++ [e] }
    (cqRoom q = false → completeX s r flags status late param result =
      setFn s r.fn { fnOf s r.fn with qps := tset (fnOf s r.fn).qps r.qp held })
    ∧ (q.waitq = [] → cqRoom q = true → q.ien = false →
    let bits := e + q.phase * 2 ^ 255
    let tail := (q.cqTail + 1) % 2 ^ q.cqLog
    let t := completeX s r flags status late param result
    tfind (fnOf t r.fn).qps r.qp = some
        { q with opened := q.opened.erase r.cmd, cqTail := tail, phase := if tail = 0 then 1 - q.phase else q.phase
                 unsent := q.unsent + 1, since := if q.waiting then q.since else s.now, waiting := true }
    ∧ (∀ k, k < 32 → hostByte t (q.cqBase + 32 * q.cqTail + k) = nth (leBytes 32 bits) k)
    ∧ (∀ a, (a < q.cqBase + 32 * q.cqTail ∨ q.cqBase + 32 * q.cqTail + 32 ≤ a) → hostByte t a = hostByte s a)
    ∧ t = { s with hmem := t.hmem, fns := t.fns })

/-- Doorbells of a live queue pair of an enabled function that is not in D3hot: an SQ tail below the ring's size becomes the tail; a larger
one puts the queue pair into ERROR with QUEUE_ERROR; a CQ head up to the tail becomes the head; a write of another size is discarded and
counted. A head that frees room has the waiting entries written in their order; a legal head below the tail starts a new wait for a message; one
beyond the tail puts the queue pair into ERROR. SQ_ENTRY_FETCH of the function that is next in the round-robin order of the request mailbox reads the entry at the head of a ring with
room for its completion into the mailbox, with the record that a codec entry names, or ends an unknown opcode with INVALID_OPCODE; the
function's turn passes. A completion that has waited COAL_US sends its vector's message (16 R364 to R367, R370; 11 Table NET-3). -/
def Obligations.DoorbellsFetchAndMessagesComplete : Prop :=
  (∀ s f qi v q, f < 17 → hostUp s = true → (fnOf s f).enabled = true → (fnOf s f).d3hot = false →
    4096 * qi < bar2Size f → tfind (fnOf s f).qps qi = some q → q.err = false → v < 2 ^ 32 →
    (v < 2 ^ q.sqLog → exec (.sqTailDoorbell f qi 0 4 v) s =
        .next (setFn s f { fnOf s f with qps := tset (fnOf s f).qps qi { q with sqTail := v } }))
    ∧ (2 ^ q.sqLog ≤ v → exec (.sqTailDoorbell f qi 0 4 v) s = .next (queueError s f qi 0))
    ∧ (let n := 2 ^ q.cqLog
      let inRing := v < n ∧ (v + n - q.cqHead) % n ≤ (q.cqTail + n - q.cqHead) % n
      let put := fun (q' : QPair) => setFn s f { fnOf s f with qps := tset (fnOf s f).qps qi q' }
      (¬ inRing → exec (.cqHeadDoorbell f qi 4 4 v) s = .next (queueError s f qi 0))
      ∧ (inRing → v = q.cqTail → q.waitq = [] → exec (.cqHeadDoorbell f qi 4 4 v) s = .next (put { q with cqHead := v }))
      ∧ (inRing → v ≠ q.cqTail → q.waitq = [] → (q.ien = false ∨ q.coalUs ≠ 0) → exec (.cqHeadDoorbell f qi 4 4 v) s =
          .next (put { q with cqHead := v, waiting := true, since := s.now }))
      ∧ (inRing → v ≠ q.cqTail → q.waitq = [] → q.ien = true → q.coalUs = 0 → exec (.cqHeadDoorbell f qi 4 4 v) s =
          .next (msix (put { q with cqHead := v, unsent := 0, waiting := false }) f q.iv))
      ∧ (inRing → exec (.cqHeadDoorbell f qi 4 4 v) s = .next (cqDrain q.waitq.length
          (if v = q.cqTail then put { q with cqHead := v } else newWait (put { q with cqHead := v }) f qi q) f qi))
      ∧ (∀ e, inRing → q.waitq = [e] → (q.cqTail + 1) % n ≠ v → q.ien = false → ∃ t, exec (.cqHeadDoorbell f qi 4 4 v) s = .next t
          ∧ (let tail := (q.cqTail + 1) % n
            tfind (fnOf t f).qps qi = some { q with
              cqHead := v, waitq := [], cqTail := tail, phase := if tail = 0 then 1 - q.phase else q.phase, unsent := q.unsent + 1
              since := if v = q.cqTail ∧ q.waiting = true then q.since else s.now, waiting := true })
          ∧ (∀ k, k < 32 → hostByte t (q.cqBase + 32 * q.cqTail + k) = nth (leBytes 32 (e + q.phase * 2 ^ 255)) k)
          ∧ (∀ a, (a < q.cqBase + 32 * q.cqTail ∨ q.cqBase + 32 * q.cqTail + 32 ≤ a) → hostByte t a = hostByte s a)
          ∧ t = { s with hmem := t.hmem, fns := t.fns })))
  ∧ (∀ s f qi v q, f < 17 → hostUp s = true → (fnOf s f).enabled = true → (fnOf s f).d3hot = false →
    4096 * qi < bar2Size f → tfind (fnOf s f).qps qi = some q → v < 2 ^ 64 → exec (.sqTailDoorbell f qi 0 8 v) s =
      .next (setFn s f { fnOf s f with dbDropped := satAdd 32 (fnOf s f).dbDropped 1 }))
  ∧ (∀ s f qi q, tfind (fnOf s f).qps qi = some q → hostUp s = true → q.err = false → q.sqHead ≠ q.sqTail →
    q.opened.length + q.waitq.length < 2 ^ q.cqLog - 1 → fetchNext s = some f →
    let e := BitVec.ofNat 512 (ofLe (hostRead s (q.sqBase + 64 * q.sqHead) 64))
    let cmd := (s.ids + 1) * 65536 + fld e.toNat 31 16
    let q' := { q with sqHead := (q.sqHead + 1) % 2 ^ q.sqLog, opened := q.opened ++ [cmd] }
    let t := setFn (fetchTurn { s with ids := s.ids + 1 }) f { fnOf s f with qps := tset (fnOf s f).qps qi q' }
    exec (.sqEntryFetch f qi) s = .next (if fld e.toNat 7 0 ∈ opcodes then
      { t with fetched := s.fetched ++
        [{ fn := f, qp := qi, tok := s.ids + 1, e := e, at_ := s.now, recd := codecRec s e.toNat }] }
      else complete t ⟨f, qi, cmd⟩ 0x0800 0 0))
  ∧ (∀ s f qi q, tfind (fnOf s f).qps qi = some q → fwUp s = true → q.ien = true → q.waiting = true → q.since + q.coalUs ≤ s.now →
    exec (.msixCoalesceTimeout f qi) s = .next (msix
      (setFn s f { fnOf s f with qps := tset (fnOf s f).qps qi { q with unsent := 0, waiting := false } }) f q.iv))

/-- Enabling the admin queue pair of a function with an allotment brings it up once firmware runs; disabling deletes every queue pair and
clears RDY and ERR; QP_CREATE adds a queue pair of legal fields; QP_DELETE removes one and answers how many of its completions are discarded, those
of open commands and those whose entries wait;
QP_ALLOT sets a VF's allotment (16 R360, R361). -/
def Obligations.QueuePairCommandsComplete : Prop :=
  (∀ s f, f < 17 → hostUp s = true → (fnOf s f).enabled = true → (fnOf s f).en = false → exec (.adminQueueEnable f) s =
    .next (adminUp (setFn s f { fnOf s f with en := true }) f))
  ∧ (∀ s f, f < 17 → hostUp s = true → (fnOf s f).enabled = true → exec (.adminQueueDisable f) s =
    .next (setFn s f { fnOf s f with en := false, rdy := false, err := false, qps := [] }))
  ∧ (∀ s f e x, Takes 0x01 s f 0 e x →
    let w := e.toNat
    let qid := fld w 383 374
    fld w 336 64 = 0 → qid ≠ 0 → qid < allotOf s f → tfind (fnOf s f).qps qid = none → 6 ≤ fld w 373 369 → fld w 373 369 ≤ 16 →
    6 ≤ fld w 368 364 → fld w 368 364 ≤ 16 → fld w 363 354 < fnVectors f → fld w 511 448 % 4096 = 0 → fld w 447 384 % 4096 = 0 →
    let q : QPair := { sqBase := fld w 511 448, cqBase := fld w 447 384, sqLog := fld w 373 369, cqLog := fld w 368 364
                       iv := fld w 363 354, coalN := fld w 353 346, coalUs := fld w 345 338, ien := bitOf w 337 }
    exec (.qpCreate f 0 e) s = .next (complete
      (setFn (taken s x) f { fnOf s f with qps := tset (fnOf s f).qps qid q }) (cmdOf f 0 x e) 0 0 0))
  ∧ (∀ s f e x q, Takes 0x02 s f 0 e x → tfind (fnOf s f).qps (fld e.toNat 383 374) = some q → fld e.toNat 383 374 ≠ 0 →
    exec (.qpDelete f 0 e) s = .next (complete
      (setFn (taken s x) f { fnOf s f with qps := tdel (fnOf s f).qps (fld e.toNat 383 374) }) (cmdOf f 0 x e) 0 0
      (q.opened.length + q.waitq.length)))
  ∧ (∀ s e x, Takes 0x03 s 0 0 e x →
    let v := fld e.toNat 383 368
    let n := fld e.toNat 367 352
    let t := setFn (taken s x) v { fnOf s v with allot := n }
    1 ≤ v → v ≤ 16 → n ≤ 64 → (fnOf s v).enabled = true → allotNeed s v ≤ n →
    sumN ((List.range 16).map fun i => (fnOf t (i + 1)).allot) + allotNeed s 0 ≤ 1024 →
    exec (.qpAllot 0 0 e) s = .next (complete (adminUp t v) (cmdOf 0 0 x e) 0 0 0))

/-! Images, jobs, models. -/

/-- PROGRAM_LOAD of an image within the limits whose seal, if any, verifies: where its structure cannot be read the status is 0209h, where a
static check fails its own, else the image is held under the next handle with its digest and signer. That handles are counted up, the next one
after the last given that is free, is the model's choice (DESIGN CHOICE, log 16); that an image which cannot be read, or whose parts contradict
each other, ends with 0209h rests on the model's format of images (PRESUMED, log 7). PROGRAM_UNLOAD of an own image that no job uses removes it
(04 R102; 16 R368; 17 R385). -/
def Obligations.ImageCommandsComplete : Prop :=
  (∀ s f e x, Takes 0x05 s f 0 e x →
    let w := e.toNat
    let len := fld w 447 416
    let bs := hostRead s (fld w 511 448) len
    let h := nextHandle 32 s.imgSeq (s.images.map (·.1))
    let b := taken s x
    let r := cmdOf f 0 x e
    (s.images.filter fun i => i.2.fn = f).length < 32 → len ≤ 2 ^ 24 → sumN (s.images.map fun i => i.2.len) + len ≤ 2 ^ 28 →
    sealPass bs = true →
    exec (.programLoad f 0 e) s = .next (match Config.parseImage (bodyOf bs) with
      | none => complete b r 0x209 0 0
      | some raw => if rawBad raw then complete b r 0x209 0 0 else match loadCheck (planOf raw) with
        | some (st, param) => complete b r st param 0
        | none =>
          let i : Image := { fn := f, len := len, digest := imgDigest bs, signer := signerOf bs, plan := planOf raw }
          complete { b with images := tset s.images h i, imgSeq := h + 1 } r 0 0 h))
  ∧ (∀ s f e x i, Takes 0x06 s f 0 e x → tfind s.images (fld e.toNat 447 416) = some i → i.fn = f →
    (∀ k ∈ s.jobs, k.2.img ≠ fld e.toNat 447 416) →
    exec (.programUnload f 0 e) s = .next (complete { taken s x with images := tdel s.images (fld e.toNat 447 416) } (cmdOf f 0 x e) 0 0 0))

/-- JOB_ADMIT of an own image with a legal parameter block that passes every check and finds every reservation: the job takes the lowest free
slot and the next handle (the model's choice, log 16) with its grant, its rings are set up, its missing models start to load, and this and every
other waiting admission is tested: it completes once its cupolas are on and its models loaded. JOB_RELEASE of an own job ends its requests with JOB_RELEASED and releases it (09 R225; 13 R287; 17 R394). -/
def Obligations.AdmissionAndReleaseComplete : Prop :=
  (∀ s f e x i s1 st y g t d, Takes 0x08 s f 0 e x → s.boot.admitReady = true → noMargin s = true → admitHeld s e.toNat = false →
    tfind s.images (fld e.toNat 447 416) = some i → i.fn = f →
    let b := blockRead s (fld e.toNat 511 448)
    blockOk b = true → admitChecks (taken s x) (blockJob f (fld e.toNat 447 416) i.plan b) = none →
    admitReserve (taken s x) (blockJob f (fld e.toNat 447 416) i.plan b) = (s1, st, some (y, g)) →
    let h := nextHandle 16 s1.jobSeq (s1.jobs.map (·.2.handle))
    admitModels (y.plan.rings.foldl (fun s q => ringWords s (freeSlot s1) q)
      (admitPlace { s1 with jobSeq := h + 1 } (freeSlot s1) { y with handle := h, admCmd := some (cmdOf f 0 x e) } g)) y = (t, d, true) →
    exec (.jobAdmit f 0 e) s = .next (admitCheck (admitCheck1 t (freeSlot s1))))
  ∧ (∀ s f e x j y, Takes 0x09 s f 0 e x → noMargin s = true → slotOf s (fld e.toNat 63 48) = some j → jobOf s j = some y → y.fn = f →
    exec (.jobRelease f 0 e) s = .next (complete (endByRelease (taken s x) j) (cmdOf f 0 x e) 0 0 0))

/-- After the release of a job every byte of the vault pages it held reads 0, and its slot is empty (17 R394). -/
def Obligations.ReleasedVaultPagesReadZero : Prop :=
  ∀ s j x, jobOf s j = some x →
    (∀ n ∈ x.vpages, ∀ o, o < 2 ^ 21 → (releaseJob s j).mem.get (vaultPa n + o) = 0)
    ∧ jobOf (releaseJob s j) j = none

/-- The commands of the model hot set: a load from host memory, which waits for far memory's training only where it fills the cache (19 R417), takes
a handle and frames and waits for its end; pins, the last unpin and an
eviction change the entry as Table SCH-5 says; an eviction's end frees the entry; a load and an eviction's end test the waiting admissions (13
R301 to R303). -/
def Obligations.ModelCommandsComplete : Prop :=
  (∀ s f e x t, Takes 0x0A s f 0 e x → (s.boot.admitReady = true ∨ bitOf e.toNat 9 = false) → noMargin s = true →
    bitOf e.toNat 8 = false → fld e.toNat 447 384 ≠ 0 →
    loadStart (taken s x) (modelHandle s) f (fld e.toNat 447 384) 1 (fld e.toNat 511 448) (bitOf e.toNat 9) 0 [cmdOf f 0 x e] = (t, true) →
    exec (.modelLoad f 0 e) s = .next (admitCheck t))
  ∧ (∀ s f e x m, Takes 0x0B s f 0 e x → tfind s.models (fld e.toNat 383 352) = some m → m.fn = f → m.st ≠ .evicting →
    let m' := { m with pins := m.pins + 1, st := if m.st = .resident then .pinned else m.st }
    exec (.modelPin f 0 e) s = .next (complete { taken s x with models := tset s.models (fld e.toNat 383 352) m' } (cmdOf f 0 x e) 0 0 0))
  ∧ (∀ s f e x m, Takes 0x0C s f 0 e x → tfind s.models (fld e.toNat 383 352) = some m → m.fn = f → m.pins = 1 → m.st = .pinned →
    let m' := { m with pins := 0, age := s.hotSeq + 1, st := .resident }
    exec (.modelUnpin f 0 e) s = .next (complete
      { taken s x with hotSeq := s.hotSeq + 1, models := tset s.models (fld e.toNat 383 352) m' } (cmdOf f 0 x e) 0 0 0))
  ∧ (∀ s f e x m, Takes 0x0D s f 0 e x → tfind s.models (fld e.toNat 383 352) = some m → m.fn = f → m.st = .resident → m.pins = 0 →
    m.uses = 0 → exec (.modelEvict f 0 e) s =
      .next (complete (modelEvicting (taken s x) (fld e.toNat 383 352)) (cmdOf f 0 x e) 0 0 0))
  ∧ (∀ s h m, tfind s.models h = some m → fwUp s = true → m.st = .loading → loadMargin s h m = false →
    exec (.modelLoadComplete h []) s = .next (admitCheck (loadEnd s h m)))
  ∧ (∀ s h m, tfind s.models h = some m → fwUp s = true → m.st = .evicting → marginFrames s m.frames = false →
    exec (.hotsetEvictionEnd h) s = .next (admitCheck (m.frames.foldl zeroFrame { s with models := tdel s.models h })))

/-! Windows, transfers, queries, events, margining. -/

/-- WINDOW_MAP of legal fields, a protected one once the tenant's key is delivered, maps the pages of the lowest free window (the model's choice, log 16); WINDOW_UNMAP of an own window of an idle job removes them; DMA copies
between host memory and job memory and answers the length, and a failed far or host access ends it with its status and moves nothing (logs 6,
39); QUERY KIND 0 writes the identity record; ASYNC_EVENT waits for an event while
none is waiting and fewer than 4 are outstanding (16 R371, R372, R374). -/
def Obligations.WindowDmaQueryCommandsComplete : Prop :=
  (∀ s f e x j y i l, Takes 0x10 s f 0 e x → slotOf s (fld e.toNat 63 48) = some j → jobOf s j = some y → y.fn = f → y.ready = true →
    y.running = none →
    let w := e.toNat
    let vpn := fld w 447 400 / 2 ^ 21
    let n := fld w 399 384
    winFieldsBad (fld w 511 448) (fld w 447 400) n = false → (∀ g ∈ y.pt, ¬ (vpn ≤ g.1 ∧ g.1 < vpn + n)) →
    (bitOf w 10 = true → y.kt ≠ []) → (s.wins.filter fun k => k.2.job = j).length < min 256 y.plan.windows → freeKeys s.wins 3840 = i :: l →
    let k : Win := { job := j, base := fld w 511 448, pages := n, va := vpn * 2 ^ 21, rd := bitOf w 8, wr := bitOf w 9, gcm := bitOf w 10 }
    exec (.windowMap f 0 e) s = .next (complete
      (setJob { taken s x with wins := tset s.wins i k } j
        { y with pt := ptInsert y.pt (winPages i vpn n) vpn n }) (cmdOf f 0 x e) 0 0 i))
  ∧ (∀ s f e x j y k, Takes 0x11 s f 0 e x → slotOf s (fld e.toNat 63 48) = some j → jobOf s j = some y → y.fn = f → y.ready = true →
    y.running = none → tfind s.wins (fld e.toNat 383 372) = some k → k.job = j →
    exec (.windowUnmap f 0 e) s = .next (complete
      (setJob { taken s x with wins := tdel s.wins (fld e.toNat 383 372) } j { y with pt := winUnmap y.pt (fld e.toNat 383 372) })
      (cmdOf f 0 x e) 0 0 0))
  ∧ (∀ s f q e x j y, Takes 0x41 s f q e x → q ≠ 0 → fld e.toNat 319 64 = 0 → slotOf s (fld e.toNat 63 48) = some j →
    jobOf s j = some y → y.fn = f → y.ready = true →
    let w := e.toNat
    let b := taken s x
    let va := fld w 447 384
    let len := fld w 383 320
    bitOf w 9 = false → 1 ≤ len → len ≤ 2 ^ 36 → dmaBad b y (!bitOf w 8) va len = none → dmaWaits s w = false →
    (bitOf w 8 = true → exec (.dma f q e []) s =
      .next (complete (hostPut b (fld w 511 448) (rdBytes (vaByte b y) va len)) (cmdOf f q x e) 0 0 len))
    ∧ (bitOf w 8 = false → exec (.dma f q e []) s =
      .next (complete (vaPut b j va (hostRead s (fld w 511 448) len)) (cmdOf f q x e) 0 0 len))
    ∧ (∀ pa, dmaMeets s w (.farUe pa) = true → exec (.dma f q e [.farUe pa]) s =
      .next (complete (farUeFence b pa id) (cmdOf f q x e) 0x0403 (fld pa 47 16) 0))
    ∧ (∀ st z, 0x0407 ≤ st → st ≤ 0x040A → exec (.dma f q e [.hostErr st z]) s =
      .next (complete (freshVal b 32).2 (cmdOf f q x e) st (freshVal b 32).1 0)))
  ∧ (∀ s f q e x, Takes 0x18 s f q e x → fld e.toNat 415 408 = 0 → (qIdentity s).length ≤ fld e.toNat 447 416 →
    exec (.query f q e) s = .next (complete (hostPut (taken s x) (fld e.toNat 511 448) (qIdentity s)) (cmdOf f q x e) 0 0 0))
  ∧ (∀ s f e x, Takes 0x1C s f 0 e x → (fnOf s f).asyncWait = [] → (fnOf s f).asyncOut.length < 4 →
    exec (.asyncEvent f 0 e) s = .next (setFn (taken s x) f
      { fnOf s f with asyncOut := (fnOf s f).asyncOut ++ [(cmdOf f 0 x e).cmd] }))

/-- MARGIN of a vault channel with no request running starts the measurement, holds further ones and puts the arbiters in mode 2;
MARGIN_COMPLETE writes the result header and one entry per lane, lifts the hold, leaves mode 2 and completes the command (10 R251, R252; 11
R267). -/
def Obligations.MarginCommandsComplete : Prop :=
  (∀ s e x, Takes 0x20 s 0 0 e x → s.glb.margin = none →
    let p := fld e.toNat 447 320
    let l := layerOf s (fld p 16 12) (fld p 22 17 / 16)
    fld p 95 32 = 0 → fld p 11 0 = 0 → 20 ≤ fld p 31 27 → (∀ k ∈ s.jobs, k.2.running = none) →
    let m : MarginRun := ⟨cmdOf 0 0 x e, fld e.toNat 511 448, p, s.now, (l.temp % 65536).toNat, l.hot⟩
    exec (.margin 0 0 e) s = .next { taken s x with glb := { s.glb with margin := some m }, netMode := 2 })
  ∧ (∀ s m lanes, s.glb.margin = some m → fwUp s = true → lanes.length = marginLanes m →
    (∀ e ∈ lanes, e.1 < 256 ∧ e.1 ≠ 128 ∧ e.2.1 < 256 ∧ e.2.1 ≠ 128) →
    let h := hostPut s m.buf (marginHead s m ++ (lanes.mapIdx fun i e => laneRec s m i e).flatten)
    exec (.marginComplete lanes) s = .next (complete
      { h with glb := { s.glb with margin := none }, netMode := if s.boot.admitReady then 0 else 1 } m.ref 0 0 0))

/-- EVR_FREEZE freezes the log and answers its count; EVR_UNFREEZE ends the freeze; EVR_CLEAR removes the selected severities and enters
EVR_CLEARED; it and a CALIB_WRITE complete once the flash operations under way have ended, at once where none is (`flashThen`). CALIB_READ of the
board configuration answers the 64 bytes of the bank that R406 chooses, else the default with RESULT 1 (DEDUCED, log 56); CALIB_WRITE takes the
four of Table EVR-4 into the working copy and writes the store, a write that ends unfinished answering a free status (log 56). A read of the calibration set writes the valid set that is stored,
else the built-in defaults with RESULT 1; CALIB_WRITE of a set that is not valid is refused with 0801h, and a valid one is stored with ORIGIN 1.
A read of EVR_DATA7 advances INDEX up to the count; a flush compacts a sector that a removal waits for, else programs the oldest record of the RAM
ring into the next slot of the flash ring; the freeze ends 10 s after the latest EVR_FREEZE; the store is written at every hour of operation
(18 R398 to R402, R407, R410). -/
def Obligations.RecorderAndStoreCommandsComplete : Prop :=
  (∀ s e x, Takes 0x28 s 0 0 e x → exec (.evrFreeze 0 0 e) s = .next (complete
    { taken s x with evr := { s.evr with frozen := true, freezeAt := s.now } } (cmdOf 0 0 x e) 0 0 (evrLog s.evr).length))
  ∧ (∀ s e x, Takes 0x29 s 0 0 e x → exec (.evrUnfreeze 0 0 e) s = .next (complete (evrThaw (taken s x)) (cmdOf 0 0 x e) 0 0 0))
  ∧ (∀ s e x, Takes 0x2A s 0 0 e x → fld e.toNat 383 380 ≠ 0 →
    exec (.evrClear 0 0 e) s = .next (flashThen (evrClear (taken s x) (fld e.toNat 383 380)) [.answer (cmdOf 0 0 x e)]))
  ∧ (∀ s es, s.flashOps = [] → flashThen s es = es.foldl flashEnd1 s)
  ∧ (∀ s es os o, s.flashOps = os ++ [o] → flashThen s es = { s with flashOps := os ++ [{ o with ends := o.ends ++ es }] })
  ∧ (∀ s e x, Takes 0x21 s 0 0 e x →
    (∀ b, bitOf e.toNat 8 = true → fld e.toNat 447 416 = 64 → chosenBank s = some b → exec (.calibRead 0 0 e) s =
      .next (complete (hostPut (taken s x) (fld e.toNat 511 448) b.board) (cmdOf 0 0 x e) 0 0 0))
    ∧ (bitOf e.toNat 8 = true → fld e.toNat 447 416 = 64 → chosenBank s = none → exec (.calibRead 0 0 e) s =
      .next (complete (hostPut (taken s x) (fld e.toNat 511 448) defaultBoard) (cmdOf 0 0 x e) 0 0 1))
    ∧ (∀ c, bitOf e.toNat 8 = false → fld e.toNat 447 416 = 622912 → s.calib = some c → calOk c = true → exec (.calibRead 0 0 e) s =
      .next (complete (hostPut (taken s x) (fld e.toNat 511 448) c) (cmdOf 0 0 x e) 0 0 0))
    ∧ (bitOf e.toNat 8 = false → fld e.toNat 447 416 = 622912 → s.calib.filter calOk = none → exec (.calibRead 0 0 e) s =
      .next (complete (hostPut (taken s x) (fld e.toNat 511 448) calDefault) (cmdOf 0 0 x e) 0 0 1)))
  ∧ (∀ s e x, Takes 0x22 s 0 0 e x → bitOf e.toNat 8 = true → fld e.toNat 447 416 = 64 →
    let t := storeWrite { taken s x with boot := { s.boot with
      board := (hostRead s (fld e.toNat 511 448) 64).take 4 ++ List.replicate 60 0 } } .done
    (∀ c, s.boot.perstN = true → bankAt t t.lastBank = some c → exec (.calibWrite 0 0 e) s = .next (flashThen t
      [.written 1 (bankCrc (some c)), .answer (cmdOf 0 0 x e)]))
    ∧ (s.boot.perstN = true → bankAt t t.lastBank = none → exec (.calibWrite 0 0 e) s = .next (calUnfinished t (cmdOf 0 0 x e)))
    ∧ (s.boot.perstN = false → exec (.calibWrite 0 0 e) s = .next (flashThen t
      [.written 1 (bankCrc (some (bankImage (nextBank t)))), .answer (cmdOf 0 0 x e)])))
  ∧ (∀ s e x, Takes 0x22 s 0 0 e x → bitOf e.toNat 8 = false → fld e.toNat 447 416 = 622912 →
    let bs := hostRead s (fld e.toNat 511 448) 622912
    let b := taken s x
    (calOk bs = false → exec (.calibWrite 0 0 e) s = .next (complete b (cmdOf 0 0 x e) 0x0801 0 0))
    ∧ (calOk bs = true → calFail s = none → exec (.calibWrite 0 0 e) s = .next (flashThen (flashBegin
        { b with calib := some (calSeal bs 1), boot := { s.boot with calNew := true } } (.calib s.calib))
        [.written 0 (recFld (calSeal bs 1) 0x3C 4), .answer (cmdOf 0 0 x e)])))
  ∧ (∀ s, hostUp s = true → s.evr.index < (evrLog s.evr).length →
    exec .evrData7Read s = .next { s with evr := { s.evr with index := s.evr.index + 1 } })
  ∧ (∀ s r rest sec slot, fwUp s = true → s.boot.perstN = true → ramOnly s.evr = false → s.evr.flash.any (·.dead) = false →
    s.evr.ram = r :: rest → ringSlot s.evr.flash = some (sec, slot) → tfind s.fuse.worn (ringAddr sec slot / 65536) ≠ some 1 →
    exec (.evrFlush .done) s = .next (flashBegin
      { s with evr := { s.evr with flash := s.evr.flash ++ [{ sec := sec, slot := slot, r := r }], ram := rest } } (.record sec slot)))
  ∧ (∀ s res z, fwUp s = true → s.boot.perstN = true → ramOnly s.evr = false → s.evr.flash.find? (·.dead) = some z →
    exec (.evrFlush res) s = .next (ringCompact s z.sec res))
  ∧ (∀ s, fwUp s = true → s.evr.frozen = true → s.evr.freezeAt + 10000000 ≤ s.now → exec .evrFreezeLimit s = .next (evrThaw s))
  ∧ (∀ s res, fwUp s = true → opSecs s % 3600 = 0 → 0 < opSecs s → exec (.storeHourlyWrite res) s = .next (storeWrite s res))

/-- EVR_CLEAR removes every record of a selected severity from both rings and sets INDEX to 0; every record of another severity remains in its
order. One EVR_CLEARED record, whose parameters are the counts removed for severities 0 to 3, enters the log at once by its stamp, so that it is
the newest record of a log whose stamps do not pass it, also while the log is frozen; held records stay in the holding queue. A mask of zero ends
the command with INVALID_FIELD. Nothing but the recorder and its flash operations changes. Stated where no ring sector fails its erasure; a log
or a RAM ring that the removal leaves full is R399's case, not stated here (18 R402). -/
def Obligations.ClearedSeveritiesLeaveTheLog : Prop :=
  (∀ s e x, Takes 0x2A s 0 0 e x →
    (fld e.toNat 383 380 = 0 → exec (.evrClear 0 0 e) s = .next (complete (taken s x) (cmdOf 0 0 x e) 0x0801 0 0))
    ∧ (fld e.toNat 383 380 ≠ 0 → exec (.evrClear 0 0 e) s =
        .next (flashThen (evrClear (taken s x) (fld e.toNat 383 380)) [.answer (cmdOf 0 0 x e)])))
  ∧ ∀ s mask, (s.evr.absent = true ∨ s.fuse.worn = []) →
    let keep := fun (r : Rec) => !bitOf mask r.sev
    let t := evrClear s mask
    ((evrLog s.evr).filter keep).length < evrCap s.evr → (s.evr.ram.filter keep).length < 4096 →
    ∃ r, r.code = 0x0B12 ∧ r.sev = 1 ∧ evrLog t.evr = recSort ((evrLog s.evr).filter keep ++ [r])
      ∧ ((∀ q ∈ evrLog s.evr, recKey q ≤ recKey r) → evrLog t.evr = (evrLog s.evr).filter keep ++ [r])
      ∧ (r.ps = (List.range 4).map fun v => ((evrLog s.evr).filter fun q => q.sev = v && bitOf mask v).length % 2 ^ 32)
      ∧ evrLive t.evr = (evrLive s.evr).filter keep
      ∧ t.evr.index = 0 ∧ t.evr.held = s.evr.held ∧ t.evr.frozen = s.evr.frozen
      ∧ t = { s with evr := t.evr, flashOps := t.flashOps }

/-! Requests. -/

/-- SUBMIT of a BE request of a one-device job joins the job's queue, or, with a shape value above the plan's bound, is refused with
SHAPE_OVER_PLAN (0103h) before it runs and leaves the queue as it was; the STATUS_PARAM 0 of that completion is the model's reading (DEDUCED, log
38). A dispatch of the head of the chosen job's queue with its models loaded maps, loads and runs it; a completion ends the request of a job whose
every spire has halted, unless a write that it performs fails first (01 R28; 07 R180; 11 R263; 13 R291; 16 R369, R371). -/
def Obligations.RequestCommandsComplete : Prop :=
  (∀ s f q e x j y, Takes 0x40 s f q e x → q ≠ 0 → fld e.toNat 127 64 = 0 → slotOf s (fld e.toNat 63 48) = some j → jobOf s j = some y →
    y.fn = f → y.ready = true → y.lc = false → y.m ≤ 1 → bitOf e.toNat 9 = false → tfind y.reqEnds y.subs = none →
    let w := e.toNat
    let b := taken s x
    let vals := shapeVals b w
    let mhz := setMhz b y.cups
    let rq : Req := { ref := cmdOf f q x e, shapes := vals, pass := fld w 159 128, chain := bitOf w 8
                      abs := (x.at_ + fld w 191 160) * 1600, at_ := cycNow s, c := lcCyc b y.plan mhz, bound := 0, fs := mhz, num := y.subs
                      throttled := s.power.clamp }
    (shapesOver y.plan vals = true → exec (.submit f q e) s = .next (complete
      (setJob b j (submitGone y y.subs rq.pass)) (cmdOf f q x e) 0x0103 0 0))
    ∧ (shapesOver y.plan vals = false → exec (.submit f q e) s = .next (queueReq b j y rq (y.queue ++ [rq])))
    ∧ (shapesOver y.plan vals = false → y.plan.prefixes = [] → groupIdle b j = false →
      exec (.submit f q e) s = .next (setJob b j { y with queue := y.queue ++ [rq], subs := y.subs + 1 })))
  ∧ (∀ s j x gi g q rest t, jobOf s j = some x → groupOf s j = some (gi, g) → x.queue = q :: rest → canDispatch s j x g q = true →
    x.farLost = none → (∀ h ∈ x.models, tfind s.models h ≠ none) → modelsIn s x = true → ovfAll s j x = (t, none) →
    exec (.requestDispatch j) s = .next (dispatchRun (takeGroup t gi j false none) j x q))
  ∧ (∀ s j x gi g r, jobOf s j = some x → groupOf s j = some (gi, g) → x.running = some r → fwUp s = true → x.saved = false →
    allHalted s j x = true → (writeBad s j = none → exec (.requestCompletion j) s = .next (finishReq s j r gi))
      ∧ ∀ w, writeBad s j = some w → exec (.requestCompletion j) s = .next (windowWrite w.1 s))

/-- SUBMIT of a request whose shape value exceeds the BOUND of its entry ends with SHAPE_OVER_PLAN: no instruction of it runs and nothing is
written to device memory, whatever the kind of the job, and the job's queue stays as it was. The other members of a job are told (14 R318), and
its completion waits one microsecond for an earlier member's (the model's choice, log 36); the STATUS_PARAM 0 is the model's reading (DEDUCED, log
38). A value of zero is never refused (07 R180). -/
def Obligations.ShapesAboveTheirBoundAreRefused : Prop :=
  (∀ s f q e x j y, Takes 0x40 s f q e x → q ≠ 0 → fld e.toNat 127 64 = 0 → slotOf s (fld e.toNat 63 48) = some j → jobOf s j = some y →
    y.fn = f → y.ready = true → (y.lc = true → fld e.toNat 191 160 ≠ 0) → (bitOf e.toNat 9 = true → fld e.toNat 511 448 % 32 = 0) →
    tfind y.reqEnds y.subs = none → ∀ i b, y.plan.shapes[i]? = some b → b.used = true → b.bound < nth (shapeVals (taken s x) e.toNat) i →
    let y' := submitGone y y.subs (fld e.toNat 159 128)
    let u := setJob (if y.m ≤ 1 then taken s x else ctlAll (taken s x) y 4 0x0103 y.subs) j y'
    let held := { y' with enders := y'.enders ++ [⟨cmdOf f q x e, y.subs, y.l, 0x0103, 0⟩] }
    ∃ t, exec (.submit f q e) s = .next t ∧ t = (if y.m ≤ 1 then complete u (cmdOf f q x e) 0x0103 0 0 else setJob u j held)
      ∧ jobOf t j = some (if y.m ≤ 1 then y' else held) ∧ y'.queue = y.queue
      ∧ t.mem = s.mem ∧ t.far = s.far ∧ t.spires = s.spires ∧ t.writes = s.writes)
  ∧ ∀ p vals, (∀ v ∈ vals, v = 0) → shapesOver p vals = false

/-! Functions and the mailbox. -/

/-- A function-level reset and a hot reset reset their functions, D3hot discards doorbells, VF_ENABLE enables the first n virtual functions
with no allotment, a BAR4 write that meets no error lands in the memory of the job it translates through and a read answers its bytes (16 R357, R359, R361, R375; 19 R416). -/
def Obligations.FunctionCommandsComplete : Prop :=
  (∀ s f, f < 17 → hostUp s = true → (fnOf s f).enabled = true →
    exec (.functionLevelReset f) s = .next (if f = 0 then pfReset s else fnReset1 s f))
  ∧ (∀ s, hostUp s = true → exec .hotReset s = .next (pfReset s))
  ∧ (∀ s f, f < 17 → hostUp s = true → (fnOf s f).enabled = true →
    exec (.pmD3hotEntry f) s = .next (setFn s f { fnOf s f with d3hot := true }))
  ∧ (∀ s n, 1 ≤ n → n ≤ 16 → hostUp s = true → enabledVfs s = [] → exec (.vfEnable n) s =
    .next ((List.range n).foldl (fun s i => setFn s (i + 1) { fnReset (i + 1) with enabled := true, allot := 0 }) s))
  ∧ (∀ s off (bytes : List Byte) j va g pa j2 va2 g2 pa2, bytes ≠ [] → bytes.length ≤ 4096 →
    off + bytes.length ≤ bar4Size s → hostUp s = true → bar4Pte s off = some (j, va, g, pa) →
    bar4Pte s (off + bytes.length - 1) = some (j2, va2, g2, pa2) → bar4Held s off bytes.length = false →
    bar4Fenced s off bytes.length = false →
    (g.wp = false → g2.wp = false → exec (.bar4Access true off ⟨bytes, []⟩) s = .next (vaPut s j va (bytes.map BitVec.toNat)))
    ∧ (∀ x, jobOf s j = some x →
      exec (.bar4Access false off ⟨bytes, []⟩) s = .next { s with bar4Rd := rdBytes (vaByte s x) va bytes.length }))

/-- A function-level reset of a virtual function leaves it no queue pair, no asynchronous command, no waiting command, no image, no job, no
window of a job it had, no model and no stream, and keeps its allotment (16 R375). That entries of the function which the lantern has read and
not yet taken are dropped is the model's reading (DEDUCED, log 46). -/
def Obligations.FunctionResetLeavesNothing : Prop :=
  ∀ s f, 1 ≤ f → f < 17 → let t := fnReset1 s f
    (fnOf t f).qps = [] ∧ (fnOf t f).asyncOut = [] ∧ (fnOf t f).en = false ∧ (fnOf t f).allot = (fnOf s f).allot
    ∧ (∀ k ∈ t.jobs, k.2.fn ≠ f) ∧ (∀ m ∈ t.models, m.2.fn ≠ f) ∧ (∀ i ∈ t.images, i.2.fn ≠ f)
    ∧ (∀ j x, jobOf s j = some x → x.fn = f → ∀ w ∈ t.wins, w.2.job ≠ j) ∧ (∀ w ∈ t.wins, w ∈ s.wins)
    ∧ (∀ z ∈ t.video.streams, z.2.fn ≠ f) ∧ (∀ z ∈ t.fetched, z.fn ≠ f)

/-- The mailbox of an enabled function: DISCOVERY answers a protocol, an abort discards response and error, an object of an unknown protocol
or above 64 KiB sets DOE Error and has no response; GET_CERTS, GET_REPORT and KEY_DELIVER answer by Table SEC-6. The layout of the objects (a
discovery request of 12 bytes with its index at byte 8; a 24-byte head with the job at byte 12 and the offset at byte 16 before the payload) is
the model's (PRESUMED, log 8) (16 R377; 17 R384 to R389). -/
def Obligations.MailboxCommandsComplete : Prop :=
  ∀ s f, f < 17 → hostUp s = true → (fnOf s f).enabled = true → ∀ obj : List Byte,
    let o := obj.map BitVec.toNat
    (doeProto o = (1, 0) → obj.length = 12 →
      exec (.doeDiscovery f obj) s = .next (setFn s f { fnOf s f with doeResp := discovery (nth o 8) }))
    ∧ exec (.doeAbort f) s = .next (setFn s f { fnOf s f with doeResp := [], doeErr := false })
    ∧ (doeKnown o = false → exec (.doeUnsupportedObject f obj) s = .next (setFn s f { fnOf s f with doeResp := [], doeErr := true }))
    ∧ (isAtt o 1 = true → (o.drop 24).length = 0 → exec (.getCerts f obj) s = .next
        (if (certChain s).length ≤ recFld o 16 8 then attAnswer s f o 4 []
         else attAnswer s f o 0 (((certChain s).drop (recFld o 16 8)).take 65000)))
    ∧ (isAtt o 2 = true → recFld o 12 4 = 0 → (o.drop 24).length = 32 →
        exec (.getReport f obj) s = .next (attAnswer s f o 0 (report s (o.drop 24) none)))
    ∧ (∀ j x, isAtt o 3 = true → attJob s f (recFld o 12 4) = some j → jobOf s j = some x → x.kt = [] → (o.drop 24).length = 1568 →
        let kt := fitBytes 32 (tenantKey x (o.drop 24))
        exec (.keyDeliver f obj) s = .next (attAnswer (setJob s j { x with kt := kt, dk := [] }) f o 0
          (Config.shake256 (strBytes "ubh confirm" ++ kt) 32)))

/-! Scheduling. -/

/-- A due switch asks the holder's spires for a save, and once they are saved or halted, or with no holder, the group passes to the job; the
restore of a saved job that holds its group ends, and saves that no job takes any more are taken back; a quantum expiry
charges the holder and names the next job; a collective past its watchdog, and a request that has waited for GO past it, end their job
(13 R293, R294, R300; 14 R318). -/
def Obligations.SchedulingEventsComplete : Prop :=
  (∀ s gi g j x, tfind s.groups gi = some g → jobOf s j = some x → fwUp s = true → noMargin s = true → switchDue s g j x = true →
    savesPending s g = false → (x.saved = false ∨ modelsIn s x = true) →
    (g.holder = none → exec (.switch gi j) s = .next (switchDone s gi j none x))
    ∧ (∀ h y, g.holder = some h → h ≠ j → jobOf s h = some y → exec (.switch gi j) s = .next
        (if allQuiet s h y then switchDone s gi j (some (h, y)) x else saveAll s h y))
    ∧ (g.holder = some j → x.saved = true → exec (.switch gi j) s = .next (switchIn s gi j x))
    ∧ (g.holder = some j → x.saved = false → exec (.switch gi j) s = .next (switchBack s j x)))
  ∧ (∀ s gi g h y, tfind s.groups gi = some g → fwUp s = true → g.holder = some h → jobOf s h = some y → y.lc = false →
    y.running.isSome = true → y.saved = false → g.took + g.quantum * 100 ≤ s.now → exec (.quantumExpiry gi) s = .next (quantumEnd s gi))
  ∧ (∀ s j l x, jobOf s j = some x → fwUp s = true →
    (∀ g, recvLate s j l (x.collWdog * 10000) x = some g → exec (.collWatchdog j l) s = .next (jobFault s j 0x050A l (g * 65536)))
    ∧ (recvLate s j l (x.collWdog * 10000) x = none → fenceLate s j l (x.collWdog * 10000) x = true →
        exec (.collWatchdog j l) s = .next (jobFault s j 0x050A l 0)))
  ∧ (∀ s j x q, jobOf s j = some x → fwUp s = true → 1 < x.m → q ∈ x.queue → tfind x.goGot q.num = none →
    q.at_ + x.collWdog * 16000000 < cycNow s → exec (.goWaitTimeout j) s = .next (jobFault s j 0x050A x.l 0))


/-! Video. -/

/-- CODEC_OPEN of a supported record, as it was read with its entry, in the job's pages takes the lowest free stream, its handle one above its
context (the model's choice, log 16); what its buffer model holds at first under rate control is a free value fixed by the record (log 9). CODEC_FRAME, CODEC_RELEASE and CODEC_CLOSE of an own
stream join its queue, in which releases and a close act once they head it and no frame of the stream runs. The lowest idle engine takes the
oldest frame that is ready, a running frame whose context is loaded and whose accesses meet no error ends with its result, its error or its job's
fault, and an engine without progress for 1 s loses its frame with CODEC_CONTEXT_LOST, closes the stream and goes into RESET (15 R341 to R350). -/
def Obligations.CodecComplete : Prop :=
  (∀ s f q e x j y c l, Takes 0x48 s f q e x → q ≠ 0 →
    let recd := x.recd
    fld e.toNat 63 48 = recFld recd 0xC 4 → slotOf s (recFld recd 0xC 4) = some j → jobOf s j = some y → y.fn = f →
    streamFields recd = true → poolIn y recd = true → streamSupported recd = true → freeKeys s.video.streams 256 = c :: l →
    let st : Stream := { fn := f, job := j, recd := recd, bd := nth recd 4
                         full := if nth recd 0x1B = 1 then Config.videoFull recd % (bufferBits recd + 1) else 0
                         coding := if nth recd 0 = 1 then [] else Config.videoInit recd }
    let es := s.video.engines.map fun e => if e.2.last = some c then (e.1, { e.2 with last := none }) else e
    exec (.codecOpen f q e) s = .next (complete
      { taken s x with video := { s.video with streams := tset s.video.streams c st, engines := es } } (cmdOf f q x e) 0 0 (c + 1)))
  ∧ (∀ s f q e x c t, q ≠ 0 → tfind s.video.streams c = some t → t.fn = f → fld e.toNat 63 48 = jobHandle s t.job →
    let r := cmdOf f q x e
    let fr : VFrame := { fn := f, qp := q, cmd := r.cmd, num := 0, stream := c }
    (Takes 0x49 s f q e x → streamOf s (fld e.toNat 383 352) = some c →
      exec (.codecClose f q e) s = .next (vEnqueue (taken s x) { fr with close := true }))
    ∧ (Takes 0x4B s f q e x → streamOf s (fld e.toNat 383 352) = some c → fld e.toNat 351 346 < nth t.recd 6 →
      exec (.codecRelease f q e) s = .next (vEnqueue (taken s x) { fr with rel := some (fld e.toNat 351 346) }))
    ∧ (Takes 0x4A s f q e x → streamOf s (recFld x.recd 4 4) = some c → frameOk t x.recd = true →
      exec (.codecFrame f q e) s = .next (vEnqueue (taken s x) { fr with recd := x.recd })))
  ∧ (∀ s n f t, n < 4 → frChoose s = some f → tfind s.video.streams f.stream = some t → engReady s n = true →
    (∀ m, m < n → engReady s m = false) → exec (.frameStart n) s = .next (frTake s n f t)
      ∧ ((∀ x, jobOf s t.job = some x → waitBad s f x = false) → exec (.frameStart n) s = .next (frStart s n f t)))
  ∧ (∀ s n f, n < 4 → (tget {} s.video.engines n).run = some f → fwUp s = true → s.power.videoOut = false →
    engLoaded s (tget {} s.video.engines n) = true → frHeld s f = false → exec (.frameEnd ⟨n, []⟩) s = .next (frEnd s n f))
  ∧ (∀ s n f, n < 4 → (tget {} s.video.engines n).run = some f → fwUp s = true → (tget {} s.video.engines n).since + 1000000 ≤ s.now →
    exec (.codecEngineHang n) s = .next (setVideo (codecLost s n f) fun v =>
      { v with engines := tmod {} v.engines n fun e => { e with st := 6 } }))

/-! The fabric. -/

/-- Accepted frames: LINK has no further meaning. DATA of a member for an armed slot, in pages that it may write, the first of a piece where
nothing is landing or a later one of the piece that the same member has landing there, writes its bytes at its offset; a frame that is not the last
leaves the piece landing, the last one lands it and answers LANDED. RED_RESULT lands likewise without LANDED, a result in arrival order counted on
its last frame. LANDED removes the oldest send to that member and slot (the model's reading, DEDUCED, log 36) (12 R277; 14 R309, R323, R327, R331). -/
def Obligations.LinkAndDataFramesComplete : Prop :=
  (∀ s f, Accepted s f 1 0 → exec (.link f) s = .next (linked s f 0))
  ∧ (∀ s f (bytes : List Byte) j x src g, Accepted s f 0 bytes.length →
    let t := linked s f bytes.length
    frJob t f = some (j, x) → frSrc x f = some src → frSlot x f = some g → Lands s t f j x g src bytes.length →
    let u := landBytes t j x g f.slot f.offset (bytes.map (·.toNat))
    let rest := t.landings.filter fun l => !(l.job = j && l.group = f.group && l.slot = f.slot)
    (f.last = true → exec (.data f ⟨bytes, []⟩) s =
      .next (landedSend j src f.group f.slot (landEnd { u with landings := rest } j g f.slot f.plen)))
    ∧ (f.last = false → exec (.data f ⟨bytes, []⟩) s =
      .next { u with landings := rest ++ [⟨j, f.group, f.slot, src, f.offset + bytes.length, f.plen⟩] }))
  ∧ (∀ s f (bytes : List Byte) j x g, Accepted s f 9 bytes.length →
    let t := linked s f bytes.length
    frJob t f = some (j, x) → frSlot x f = some g → (∀ r, tfind x.redParts (f.group * 65536 + f.slot) = some r → r.2 = f.plen) →
    let c := arrCount t j x g f
    Lands s c f j x g x.m bytes.length →
    let u := landBytes c j x g f.slot f.offset (bytes.map (·.toNat))
    let rest := c.landings.filter fun l => !(l.job = j && l.group = f.group && l.slot = f.slot)
    (f.last = true → exec (.redResult f ⟨bytes, []⟩) s = .next (landEnd { u with landings := rest } j g f.slot f.plen))
    ∧ (f.last = false → c = t ∧ exec (.redResult f ⟨bytes, []⟩) s =
      .next { u with landings := rest ++ [⟨j, f.group, f.slot, x.m, f.offset + bytes.length, f.plen⟩] }))
  ∧ (∀ s f l seq j x, FromMember s f l j x → jobOf (linked s f 0) j = some x → exec (.landed f l seq) s = .next (setJob (linked s f 0) j
      (match x.sent.find? fun e => e.1 = l * 2 ^ 20 + seq with
       | some e => { x with sent := x.sent.erase e }
       | none => x)))

/-- A frame whose FCS fails is discarded with no effect but FCS_ERR and at most one NAK for the gap: its port's expected LSN, every other field of
that port beside its sending queue, every other port, and every job, page, received slot and register of the device are as before. What the port
sends then follows what it had sent; with nothing waiting in its queue that is nothing or the one NAK (14 R308, R309). -/
def Obligations.FramesWithBadFcsAreDiscarded : Prop :=
  ∀ s f (bytes : List Byte), frOk (portOf s f.port) f 0 bytes.length = true → fwUp s = true → portUp (portOf s f.port) = true → f.fcs = false →
    landHeld s f bytes.length = false →
    let p := portOf s f.port
    ∃ t, exec (.data f ⟨bytes, []⟩) s = .next t ∧ t = { s with ports := t.ports, fabOut := t.fabOut }
      ∧ (∀ i, i ≠ f.port → portOf t i = portOf s i)
      ∧ (let q := portOf t f.port
        q = { p with
          fcsErr := satAdd 32 p.fcsErr 1, nakSent := true, lsn := q.lsn, txq := q.txq, unacked := q.unacked, owe := q.owe, ackDue := q.ackDue
          ackAt := q.ackAt, credits := q.credits, deficit := q.deficit, turn := q.turn, wRound := q.wRound })
      ∧ (∃ l, t.fabOut = s.fabOut ++ l)
      ∧ (p.nakSent = true → t.fabOut = s.fabOut)
      ∧ (p.txq = [] → t.fabOut = s.fabOut ∨ ∃ g, t.fabOut = s.fabOut ++ [g] ∧ g.type = 1 ∧ g.nak = true ∧ g.port = f.port ∧ g.job = 0)

/-- Ports: training sets the width by the working lanes; a link that goes down, a due acknowledgement, a replay after 1 µs and HELLO, which carries the
device's fabric address once a port is READY, act on their port; the EtherType and VLAN of FAB_L2 take effect at link-up; ROSTER makes a port that is not in MISMATCH READY at its tower and
position, TOWERS keeps the map, and members that are gone end their jobs
(14 R307, R309, R312 to R316). -/
def Obligations.PortCommandsComplete : Prop :=
  (∀ s pi lanes, pi < 4 → lanes < 256 → canTrain s pi = true → (portOf s pi).media ≠ 3 →
    trainWidth (portOf s pi).noDegrade lanes ≠ 0 →
    let t := modPort s pi fun p => { newRound (portFresh p) with
      st := .link, width := trainWidth p.noDegrade lanes, ether := s.etherType, vlan := if s.vlanEn then some s.vlanId else none }
    exec (.portTraining pi lanes) s = .next t ∧ exec (.portTrainRetry pi lanes) s = .next t)
  ∧ (∀ s pi, pi < 4 → fwUp s = true → portUp (portOf s pi) = true →
    exec (.linkDown pi) s = .next (faultMulti (portDown s pi) 0x0509 fun _ => true)
    ∧ ((portOf s pi).ackDue = true → (portOf s pi).owe = [0, 0, 0, 0] → (portOf (linkSend s pi false) pi).owe = [0, 0, 0, 0] →
        exec (.ackTimer pi) s = .next (linkSend s pi false))
    ∧ ((portOf s pi).unacked ≠ [] → (portOf s pi).ackAt + 1 ≤ s.now → exec (.replayTimeout pi) s = .next (portRun (replay s pi) pi))
    ∧ exec (.helloTimer pi) s = .next
        (portSend s pi { port := pi, type := 2, vc := 0, dst := 0xFFFF, a := s.fuse.uid, b := pi * 65536 + ((refPort s).map (·.fa)).getD 0 }))
  ∧ (∀ s f tower pos gen mib present, Accepted s f 3 (rosterBytes present) → tower < 128 → pos < 64 → gen < 2 ^ 32 →
    (∀ e ∈ present, e.1 < 64 ∧ e.2 < 2 ^ 64) →
    exec (.roster f tower pos gen mib present) s = .next (rosterIn (linked s f (rosterBytes present)) f.port tower pos gen mib present)
    ∧ ((portOf (linked s f (rosterBytes present)) f.port).st ≠ .mismatch → exec (.roster f tower pos gen mib present) s = .next
      (lostMembers (portsAgree (modPort (linked s f (rosterBytes present)) f.port fun p =>
        { p with tower := tower, pos := pos, gen := gen, mib := mib, present := present, fa := tower * 64 + pos, st := .ready })) f.port)))
  ∧ (∀ s f gen map, Accepted s f 4 0 → gen < 2 ^ 32 → (∀ t ∈ map, t < 128) → exec (.towers f gen map) s = .next
      (lostMembers (modPort (linked s f 0) f.port fun p => { p with towers := some map, towersGen := gen }) f.port))

/-- Lantern messages from a member: readiness is collected at device 0, GO and its verdict are kept for the request, PAUSE and RESUME mark
the member, REQ_END ends the request here, JOB_FAULT ends the job with the member's cause, BEAT of the predecessor marks its window; a
window of BEAT_TIMER sends BEAT and counts a missed one; five missed in a row end every job that includes the lost member with
0508h; a verdict of the switch is counted
at its port (07 R181; 13 R299; 14 R316 to R318, R330). -/
def Obligations.MemberMessagesComplete : Prop :=
  (∀ s f l j x, FromMember s f l j x → jobOf (linked s f 0) j = some x →
    let t := linked s f 0
    (∀ req, x.l = 0 → exec (.reqReady f l req) s = .next (readyIn t j l req))
    ∧ (∀ req v, l = 0 → v < 2 → exec (.go f req v) s = .next (setJob t j { x with goGot := tset x.goGot req v }))
    ∧ exec (.pause f l) s = .next (setJob t j (ctrAdd { x with paused := x.paused ++ [l] } .collPreemptStalls (blockedRecv t j x)))
    ∧ exec (.resume f l) s = .next (setJob t j { x with paused := x.paused.erase l })
    ∧ (∀ req st, st < 2 ^ 16 → exec (.reqEnd f l req st) s = .next (reqEndIn t j l req st))
    ∧ (∀ cause, cause < 2 ^ 16 → exec (.jobFault f l cause) s = .next (jobFaultX t j cause l 0 false))
    ∧ (l = (x.l + x.m - 1) % x.m → exec (.beat f l) s = .next (setJob t j { x with beatSeen := true })))
  ∧ (∀ s j x, jobOf s j = some x → fwUp s = true → 1 < x.m →
    (x.beatWin + 1000 ≤ s.now → exec (.beatTimer j) s = .next (modJob (ctlSend s x ((x.l + 1) % x.m) 6 x.l 0) j fun x =>
      { x with beatWin := s.now, beatMiss := if x.beatSeen then 0 else x.beatMiss + 1, beatSeen := false }))
    ∧ (5 ≤ x.beatMiss → exec (.beatTimeout j) s = .next
      (faultMulti s 0x0508 fun y => y.fas.contains (nth x.fas ((x.l + x.m - 1) % x.m)))))
  ∧ (∀ s f g granted j x, Accepted s f 7 0 → g < 16 → frJob (linked s f 0) f = some (j, x) →
    exec (.redVerdict f g granted) s = .next (verdictIn (linked s f 0) f.port j g granted))

/-! Vault, far memory, arbiters. -/

/-- Far-memory and host-window failures of a running request end it with their status; a lost far write with no request running refuses the
next dispatch; a fencing window of 1 s ends and a new one starts; a refresh indication sets the band of the package's four channels;
training sets every channel's state and ends the boot with arbiter mode 0; an access to a reserved range faults. A due refresh of a vault
bank is stamped with the layer's band, a sample above 85 °C sets the hot band and 32 in a row at or below it clear it, a write turn empties
the channel's queue (the model's choice, log 32: R243 asks for at least 32 bursts, or all if there are fewer), a patrol without an error passes to the next line (09 R214, R228 to R230; 10 R241 to R250; 11 R267). -/
def Obligations.VaultFarAndWindowEventsComplete : Prop :=
  (∀ s c j pa x, c < 64 → paKind pa = .far → fwUp s = true → (fchOf s c).st = 2 → farChan s pa = c → jobOf s j = some x →
    x.running.isSome = true →
    exec (.farAccessTimeout c j pa) s = .next ((farOut s c).foldl (fun s e => requestError s e.1 0x0405 e.2)
      (requestError (fenceChan s c 0) j 0x0404 pa)))
  ∧ (∀ s c, c < 64 → fwUp s = true → (fchOf s c).winAt + 1000000 ≤ s.now →
    let x' := { fchOf s c with win := 0, winAt := s.now - (s.now - (fchOf s c).winAt) % 1000000 }
    exec (.farUeWindowEnd c) s = .next { s with fchans := tset s.fchans c x' })
  ∧ (∀ s pkg hot, pkg < 16 → s.boot.admitReady = true → (fchOf s (4 * pkg)).st ≠ 0 → ∃ t,
    exec (.farRefreshRead pkg hot) s = .next t ∧ t = { s with fchans := t.fchans } ∧ (∀ i, i < 4 → (fchOf t (4 * pkg + i)).hot = hot)
    ∧ ∀ c, (c < 4 * pkg ∨ 4 * pkg + 4 ≤ c) → fchOf t c = fchOf s c)
  ∧ (∀ s c j pa x, c < 64 → paKind pa = .far → fwUp s = true → (fchOf s c).st ≠ 0 → jobOf s j = some x →
    (∀ u ∈ s.pool, u.2.kind = 0 → pa / 2 ^ 21 ∉ u.2.pages) → exec (.farWriteLost c j pa) s =
      .next (if x.running.isSome then requestError s j 0x0406 pa else setJob (farTouched s j pa) j { x with farLost := some pa }))
  ∧ (∀ s j pa x, paKind pa = .window → fwUp s = true → jobOf s j = some x → x.running.isSome = true →
    exec (.hostCompletionTimeout j pa) s = .next (requestError s j 0x0407 pa))
  ∧ (∀ s fails, (∀ c ∈ fails, c < 64) → hostUp s = true → s.boot.admitReady = false → ∃ t,
    exec (.farMemoryTraining fails) s = .next t ∧ t.boot.admitReady = true ∧ t.netMode = 0
    ∧ ∀ c, c < 64 → fchOf t c = trainedFar s fails c)
  ∧ (∀ s c j pa, c < 64 → paKind pa = .reserved → exec (.farAccessTimeout c j pa) s = .fault .reservedAddress
    ∧ exec (.farWriteLost c j pa) s = .fault .reservedAddress ∧ exec (.hostCompletionTimeout j pa) s = .fault .reservedAddress)
  ∧ (∀ s v c bank, v < 32 → c < 64 → bank < 32 → clocksOn s = true → s.boot.trained = true → (vchOf s v c).dis = false → refreshDue s v c bank = true →
    exec (.vaultRefresh v c bank) s = .next (modVch s v c fun x =>
      { x with refr := tset x.refr bank (s.now * 1000, (layerOf s v (c / 16)).hot) }))
  ∧ (∀ s v layer (temp : Int), v < 32 → layer < 4 → clocksOn s = true →
    let l := layerOf s v layer
    (680 < temp → exec (.vaultTempSample v layer temp) s = .next
      { s with layers := tset s.layers (v * 4 + layer) { hot := true, cool := 0, temp := temp } })
    ∧ (temp ≤ 680 → l.cool + 1 < 32 → exec (.vaultTempSample v layer temp) s = .next
      { s with layers := tset s.layers (v * 4 + layer) { hot := l.hot, cool := l.cool + 1, temp := temp } })
    ∧ (temp ≤ 680 → 32 ≤ l.cool + 1 → exec (.vaultTempSample v layer temp) s = .next
      { s with layers := tset s.layers (v * 4 + layer) { hot := false, cool := 32, temp := temp } }))
  ∧ (∀ s v c, v < 32 → c < 64 → clocksOn s = true → s.boot.trained = true → marginChan s false v c = false →
    (32 ≤ (vchOf s v c).wq.length ∨ ((vchOf s v c).wq ≠ [] ∧ (vchOf s v c).wqSince + 2 ≤ s.now) → writeTurnDue s v c = true)
    ∧ (writeTurnDue s v c = true → exec (.vaultWriteTurn v c) s =
        .next (modVch { s with wbulk := bulkTurn s v c } v c fun x => { x with wq := [] })))
  ∧ (∀ s v, v < 32 → fwUp s = true → vaultUp s v = true →
    let n := max (tget {} s.vaults v).patrol (32 * vaultK s v * 8192)
    marginChan s false v (vaultPhys s v (n * 256)).1 = false → exec (.vaultPatrol v none false) s = .next
      { s with vaults := tset s.vaults v { tget {} s.vaults v with patrol := patrolNext s v n } })

/-- Arbiters: a withdrawal of the granted request, between two of its units, costs a dead cycle and moves the pointer as if its grant had ended; in
that cycle the live requests are parked as far as their queues of 8 take them and wait at their requesters otherwise, counted in PQ_FULL; every
presented request waits, and one past the threshold has its FLAGS and CUR bits set. A withdrawal of a
parked request is free; the end of a window that has had its cycles clears the counts and the CUR bits; the lantern takes a signal, with a record at
most once in its window; the lantern sets the mode (11 R266 to R272). -/
def Obligations.ArbiterCommandsComplete : Prop :=
  (∀ s a r (live : List ArbIn), arbPresent a = true → arbIdx a r < arbReqs a → (live.map (arbIdx a)).all (arbReqOk a) = true →
    (live.map (arbIdx a)).eraseDups = live.map (arbIdx a) → clocksOn s = true →
    (arbOf s a).cyc < 2 ^ (arbOf s a).winLog → (arbOf s a).owner = some (arbIdx a r) → (arbOf s a).mid = false →
    let x := arbOf s a
    let l := arbLiveIn x (live.map (arbIdx a))
    ∃ t, exec (.arbWithdraw a (.granted r live)) s = .next t ∧ t = { s with arbs := t.arbs } ∧ (∀ b, b ≠ a → arbOf t b = arbOf s b)
      ∧ (arbOf t a).owner = none ∧ (arbOf t a).ptr = arbIdx a r ∧ (arbOf t a).dead = satAdd 16 x.dead 1 ∧ (arbOf t a).cyc = x.cyc + 1
      ∧ (∀ q, tget 0 (arbOf t a).parked q = max (tget 0 x.parked q) (min 8 (tget 0 x.parked q + l.count q)))
      ∧ (∀ q, q ∈ (arbOf t a).held ↔ q ∈ l ∧ 8 < tget 0 x.parked q + l.count q)
      ∧ (arbOf t a).pqFull = satAdd 16 x.pqFull (arbOf t a).held.length
      ∧ ∀ q, q < arbReqs a →
        (tget 0 (arbOf t a).wait q = tget 0 x.wait q + (if 0 < tget 0 (arbOf t a).parked q then 1 else 0))
        ∧ (0 < tget 0 (arbOf t a).parked q → arbThr x < tget 0 x.wait q + 1 →
            bitOf (arbOf t a).flags q = true ∧ bitOf (arbOf t a).cur q = true))
  ∧ (∀ s a r, arbPresent a = true → arbIdx a r < arbReqs a → clocksOn s = true → (arbOf s a).cyc < 2 ^ (arbOf s a).winLog →
    0 < tget 0 (arbOf s a).parked (arbIdx a r) →
    let x' := { arbOf s a with parked := tset (arbOf s a).parked (arbIdx a r) (tget 0 (arbOf s a).parked (arbIdx a r) - 1) }
    exec (.arbWithdraw a (.parked r)) s = .next { s with arbs := tset s.arbs a x' })
  ∧ (∀ s a, arbPresent a = true → clocksOn s = true → arbFull (arbOf s a) = true → (arbOf s a).next = none →
    let x' := { arbOf s a with wait := [], cur := 0, signalled := false, cyc := 0 }
    exec (.arbWindowEnd a) s = .next { s with arbs := tset s.arbs a x' })
  ∧ (∀ s a r rest, arbPresent a = true → r < arbReqs a → fwUp s = true → (arbOf s a).sigs = r :: rest →
    let x := arbOf s a
    (x.lastRec = some (secWindow s) → exec (.arbStarveFlag a r) s =
      .next { s with arbs := tset s.arbs a { x with sigs := rest, unrec := x.unrec + 1 } })
    ∧ (x.lastRec ≠ some (secWindow s) → exec (.arbStarveFlag a r) s = .next (evrAdd
        { s with arbs := tset s.arbs a { x with sigs := rest, unrec := 0, lastRec := some (secWindow s) } } 0x0710 1 0
        [a, x.cur, s.netMode, x.unrec])))
  ∧ (∀ s mode, mode < 4 → fwUp s = true → exec (.netArbMode mode) s = .next { s with netMode := mode })

/-- An arbiter instance keeps a round-robin pointer, 0 at reset. A grant's end moves the pointer to its owner. With no grant running the
arbiter grants the first requester with a presented request at or after the index one above the pointer, wrapping at the highest index;
a requester's presented request is the head of its pending queue if that is not empty, and its live request otherwise (11 R265); the live ones
are those of the cycle and those that wait at a full queue. A grant whose only unit ends in the cycle has ended in the state after it. -/
def Obligations.ArbiterGrantsInTurn : Prop :=
  (∀ a, (arbOf State.reset a).ptr = 0) ∧ (∀ s warm a, (arbOf (resetState s warm) a).ptr = 0)
  ∧ ∀ s a (ins : List ArbIn) last, arbPresent a = true → (ins.map (arbIdx a)).all (arbReqOk a) = true →
    (ins.map (arbIdx a)).eraseDups = ins.map (arbIdx a) →
    clocksOn s = true → (arbOf s a).cyc < 2 ^ (arbOf s a).winLog → arbHoldOk s.netMode a (arbOf s a) (ins.map (arbIdx a)) last = true →
    let n := arbReqs a
    let x := arbOf s a
    let live := arbLiveIn x (ins.map (arbIdx a))
    let presented := fun r => 0 < tget 0 x.parked r ∨ r ∈ live
    let turn := fun r => (r + n - (x.ptr + 1) % n) % n
    ∃ t, exec (.arbGrant a ins last) s = .next t ∧ t = { s with arbs := t.arbs } ∧ (∀ b, b ≠ a → arbOf t b = arbOf s b)
      ∧ (let holds := fun g => (arbOf t a).owner = some g ∧ (arbOf t a).ptr = x.ptr ∨
          last ≠ .goesOn ∧ (arbOf t a).owner = none ∧ (arbOf t a).ptr = g
        (∀ o, x.owner = some o → holds o)
        ∧ (x.owner = none → (∀ r, r < n → ¬ presented r) → (arbOf t a).owner = none ∧ (arbOf t a).ptr = x.ptr)
        ∧ (x.owner = none → (∃ r, r < n ∧ presented r) → ∃ g, holds g ∧ g < n ∧ presented g
            ∧ (∀ r, r < n → presented r → turn g ≤ turn r)
            ∧ (tget 0 x.parked g = 0 → tget 0 (arbOf t a).parked g = min 8 (live.count g - 1))
            ∧ (0 < tget 0 x.parked g →
                tget 0 (arbOf t a).parked g = max (tget 0 x.parked g - 1) (min 8 (tget 0 x.parked g - 1 + live.count g)))))

/-! Recorder, store, resets. -/

/-- Resets: a cold reset starts at a device without power, a warm reset at a powered one with PERST_N high, a fall of PWRGD stops everything,
PERST_N's rise starts link training, a watchdog expiry and a recovery boot run the ROM. That the straps a watchdog reset samples may have changed
is the model's choice (log 11). A reset keeps the flash, the store banks, the calibration set, the flushed log, the last rail setpoint, which a cold
reset starts at 0.75 V (log 42), host memory and the fuses; that it keeps the flash operations under way, without what their ends would answer, is
the model's choice (DESIGN CHOICE, log 56). It clears jobs, images, functions, writes and the spires' contexts
(18 R398; 19 R415 to R417, R432; 17 R381; 21 R447, R451). -/
def Obligations.ResetCommandsComplete : Prop :=
  (∀ s strap fails, strap < 4 → failsOk fails = true →
    (s.boot.pwrgd = false → exec (.coldReset strap fails) s = .next
      (romRun (resetState { s with boot := { s.boot with pwrgd := true, strap := strap, faultN := true }
                                   power := { s.power with vddMv := 750 } } false) fails))
    ∧ (s.boot.pwrgd = true → s.boot.perstN = true → s.boot.stage ≠ .stopped → exec (.warmReset strap fails) s = .next
      (romRun (resetState { s with boot := { s.boot with perstN := false, strap := strap } } true) fails)))
  ∧ (∀ s, s.boot.pwrgd = true → exec .pwrgdFall s = .next (powerOff s))
  ∧ (∀ s, s.boot.pwrgd = true → s.boot.perstN = false → s.boot.stage ≠ .stopped → exec .perstNDeassert s = .next (perstUp s))
  ∧ (∀ s, fwUp s = true → exec .lanternWatchdogExpiry s = .next
      (romRun (resetState (freeStrap { s with boot := { s.boot with faultN := false, wdogAt := some (opSecs s) } }) true) ⟨[], []⟩))
  ∧ (∀ s len fails, len < 2 ^ 32 → failsOk fails = true → s.boot.pwrgd = true → s.boot.stage = .recovery →
    let rd := fun i => if i < len then ((cellAt s.boot.recImg i).getD 0).toNat else 0xFF
    let i := slotAt s.fuse rd
    let t := fwStart s 2 i id fails
    exec (.mgmtRecoveryBoot len fails) s = .next (if i.res = 0 ∧ 0x8000 + rdLe rd 0xC 4 ≤ len
      then { t with boot := { t.boot with mgmt := [0] } } else { s with boot := { s.boot with mgmt := [3] } }))
  ∧ (∀ s warm, let t := resetState s warm
    t.flash = s.flash ∧ t.bankA = s.bankA ∧ t.bankB = s.bankB ∧ t.calib = s.calib ∧ t.hmem = s.hmem ∧ t.fuse = s.fuse
    ∧ t.evr.flash = s.evr.flash ∧ t.flashOps = s.flashOps.map (fun o => { o with ends := [] }) ∧ t.flashCuts = s.flashCuts ∧ t.power.vddMv = s.power.vddMv ∧ t.evr.ram = [] ∧ t.jobs = [] ∧ t.images = [] ∧ t.fns = [] ∧ t.writes = [] ∧ t.sigs = []
    ∧ t.groups = [] ∧ t.models = [] ∧ t.wins = [] ∧ t.netMode = 1 ∧ t.quantum = 100
    ∧ ∀ p x, tfind t.spires p = some x → x.st = .off ∧ x.run = none ∧ x.job = none ∧ x.infl = [])

/-! Power and management. -/

/-- Gates and levels: EN starts a transition and its end sets the state; the levels follow the temperatures and the mean of ten power
estimates; a clamp above 2,400 A marks every request throttled; a level change takes effect when it is done (19 R419 to R425). -/
def Obligations.PowerCommandsComplete : Prop :=
  (∀ s n en, n < 104 → fwUp s = true → gateMay s n en = true →
    exec (.pwrGateEn n en) s = .next (portGate (gateWrite s n en) n))
  ∧ (∀ s n, n < 104 → fwUp s = true → ((gateOf s n).st = 1 ∨ (gateOf s n).st = 3) →
    exec (.gateTransitionEnd n) s = .next (gateEnd s n))
  ∧ (∀ s temps video, temps.length = 96 → fwUp s = true → exec (.thermalLevelUpdate temps video) s = .next
    (markSlow (retarget (thermIsland
      ((List.range 32).foldl (fun s c => thermIsland s c (tDie temps c) (some (tDram s c))) s) 32 video none))))
  ∧ (∀ s watts, watts < 2 ^ 16 → fwUp s = true → exec (.powerEstimate watts) s = .next
    { s with power := { s.power with ests := (s.power.ests ++ [watts]).drop (s.power.ests.length + 1 - 10) } })
  ∧ (∀ s, fwUp s = true → s.power.ests.length = 10 → exec .devLevelUpdate s = .next (devUpdate s))
  ∧ (∀ s amps, fwUp s = true → (amps ≤ 2400 → exec (.coreCurrentEstimate amps) s =
        .next { s with power := { s.power with clamp := false, clampUs := satAdd 16 s.power.clampUs 0 } })
    ∧ (2400 < amps → exec (.coreCurrentEstimate amps) s = .next (markThrottled
        { s with power := { s.power with clamp := true, clampUs := satAdd 16 s.power.clampUs 1 } } fun _ _ => true)))
  ∧ (∀ s c l, c < 33 → fwUp s = true → (thermOf s c).pend = some l →
    let x' := { thermOf s c with run := l, pend := none }
    exec (.levelChangeDone c) s = .next (markSlow (setVdd { s with therms := tset s.therms c x' })))

/-- The device level after an update rises by one above the limit, falls by one below the limit less 50 W once ten updates have passed since its
last change, and else stays; it never passes 11 (19 R424). That the ALERT bit is set by every update with a level above 0, and that PKG_W is the mean
rounded down, is the model's choice (log 41). -/
def Obligations.DeviceLevelFollowsThePowerLimit : Prop :=
  ∀ s t, exec .devLevelUpdate s = .next t →
    let p := s.power
    let sum := sumN p.ests
    (p.plimit * 10 < sum → p.devLevel < 11 → t.power.devLevel = p.devLevel + 1)
    ∧ (p.plimit * 10 < sum → p.devLevel = 11 → t.power.devLevel = 11)
    ∧ (sum < (p.plimit - 50) * 10 → sum ≤ p.plimit * 10 → 10 ≤ p.devHeld + 1 → t.power.devLevel = p.devLevel - 1)
    ∧ (sum < (p.plimit - 50) * 10 → sum ≤ p.plimit * 10 → p.devHeld + 1 < 10 → t.power.devLevel = p.devLevel)
    ∧ ((p.plimit - 50) * 10 ≤ sum → sum ≤ p.plimit * 10 → t.power.devLevel = p.devLevel)
    ∧ (0 < t.power.devLevel → bitOf t.power.alert 2 = true) ∧ t.power.pkgW = sum / 10

/-- A trip stops the device with THERMTRIP_N low; a shutdown by the PF ends every job; the microsecond that passes once flash writes may run begins
its last writes, and once every flash operation has ended, or 2 s have passed, one leaves it QUIESCED (the model's choice, log 57); one by another function is discarded; ALERT_CAUSE is cleared where the PF writes 1; a loss of lock and a rail out of tolerance have their outcomes; that a rail out of tolerance ends jobs
with 0501h is the model's reading (DEDUCED, log 42), that VDD_IO then stays out of tolerance until PWRGD falls its choice (log 46) (19 R418, R426, R427, R430, R433). -/
def Obligations.TripShutdownAndLossComplete : Prop :=
  (∀ s sensor (temp : Int), sensor < 256 → s.boot.pwrgd = true → s.boot.stage ≠ .stopped → (sensor < 128 → 920 ≤ temp) →
    (128 ≤ sensor → 840 ≤ temp) → ∃ t, exec (.thermalTrip sensor temp) s = .next t ∧ t.boot.stage = .stopped
      ∧ t.boot.thermtripN = false ∧ t.boot.linkUp = false ∧ t.mem = s.mem ∧ t.jobs = s.jobs)
  ∧ (∀ s f, f < 17 → hostUp s = true → (fnOf s f).enabled = true →
    (s.power.shutdown = false → f = 0 → exec (.shutdown f) s = .next (doShutdown s) ∧ (doShutdown s).power.shutdown = true)
    ∧ (f ≠ 0 → exec (.shutdown f) s = .next s)
    ∧ (∀ mask, mask < 256 → (f ≠ 0 → exec (.alertCauseClear f mask) s = .next s)
        ∧ (f = 0 → ∃ t, exec (.alertCauseClear f mask) s = .next t ∧ t = { s with power := { s.power with alert := t.power.alert } }
          ∧ ∀ i, bitOf t.power.alert i = (bitOf s.power.alert i && !bitOf mask i))))
  ∧ (∀ s, s.pending = [] → shutdownDue s = true → ∃ t, step s = .next t ∧ t.power.shutdown = true
    ∧ (s.power.closing = none → t.power.closing = some (s.now + 1) ∧ t.power.quiesced = false)
    ∧ (∀ c, s.power.closing = some c → (c + 2000000 ≤ s.now + 1 ∨ s.flashOps = [] ∧ ringBusy s = false) →
        t.power.quiesced = true ∧ t.flashOps = []))
  ∧ (∀ s k n, k < 7 → n < islandCount k → fwUp s = true → exec (.pllLockLost k n) s = .next (pllLost s k n))
  ∧ (∀ s rail mv, rail < 64 → mv < 2 ^ 16 → fwUp s = true → exec (.railOutOfTolerance rail mv) s =
    .next (deviceFault (evrAdd { s with power := { s.power with ioOut := s.power.ioOut || Config.vddIoSensor rail } }
      0x0C17 3 9 [rail, mv, 0, 0]) 0x0501 9 0))

/-- The management pair: status, shutdown, flash reads, erasures and programming in the firmware slots while firmware runs, bytes of a recovery
image in recovery mode. An erasure or a program replies 01h until it has ended, then 00h; a read replies at once, or as the operations before it
have ended. That a flash command waits with status busy until PERST_N is deasserted, and that a program ANDs its bytes into the flash, is the
model's reading (DEDUCED, log 43). The JTAG port captures the pins, holds what TDO shifts out and loads its registers; that with DEBUG_LOCK an
instruction that is no boundary scan reaches the bypass bit alone is the model's (PRESUMED, log 46) (17 R393; 18 R395, R404; 19 R417; 21 R445, R449). -/
def Obligations.ManagementCommandsComplete : Prop :=
  (∀ s, mgmtUp s = true →
    exec .mgmtStatus s = .next { s with boot := { s.boot with mgmt := [b2n (flashDue s), stageByte s] ++ leBytes 4 s.boot.version } }
    ∧ exec .mgmtShutdown s = .next (if fwRuns s then mgmtReply (doShutdown s) [0] else mgmtReply s [2]))
  ∧ (∀ s addr len, addr < 2 ^ 32 → mgmtUp s = true → fwUp s = true → s.boot.perstN = true → 1 ≤ len → len ≤ 256 →
    addr + len ≤ 0x1000000 →
    let reply := 0 :: (List.range len).map fun i => flashByte s (addr + i)
    (s.flashOps = [] → exec (.flashRead addr len) s = .next { s with boot := { s.boot with mgmt := reply } })
    ∧ (s.flashOps ≠ [] → exec (.flashRead addr len) s = .next (flashThen { s with boot := { s.boot with mgmt := [1] } } [.reply reply])))
  ∧ (∀ s addr len, addr < 2 ^ 32 → mgmtUp s = true → fwUp s = true → s.boot.perstN = false → 1 ≤ len → len ≤ 256 →
    addr + len ≤ 0x1000000 → exec (.flashRead addr len) s =
      .next { s with boot := { s.boot with mgmtQ := s.boot.mgmtQ ++ [.read addr len], mgmt := [1] } })
  ∧ (∀ s addr, mgmtUp s = true → fwUp s = true → s.boot.perstN = true → addr % 65536 = 0 → addr + 65536 ≤ 0x1000000 →
    s.evr.absent = false → tfind s.fuse.worn (addr / 65536) ≠ some 0 →
    ∃ t, exec (.flashErase addr true) s = .next t ∧ (s.flashOps = [] → (flashTick true t).boot.mgmt = [0]) ∧ (∀ a, addr ≤ a → a < addr + 65536 → flashByte t a = 255)
      ∧ (∀ a, (a < addr ∨ addr + 65536 ≤ a) → flashByte t a = flashByte s a)
      ∧ t = { s with flash := t.flash, flashOps := t.flashOps, flashCuts := t.flashCuts, boot := { s.boot with mgmt := [1] } })
  ∧ (∀ s addr (bytes : List Byte), mgmtUp s = true → fwUp s = true → s.boot.perstN = true → bytes ≠ [] → bytes.length ≤ 256 →
    addr + bytes.length ≤ 0x1000000 → s.evr.absent = false → tfind s.fuse.worn (addr / 65536) ≠ some 1 →
    ∃ t, exec (.flashProgram addr bytes true) s = .next t ∧ (s.flashOps = [] → (flashTick true t).boot.mgmt = [0])
      ∧ (∀ k, k < bytes.length → flashByte t (addr + k) = flashByte s (addr + k) &&& (bytes.getD k 0).toNat)
      ∧ (∀ a, (a < addr ∨ addr + bytes.length ≤ a) → flashByte t a = flashByte s a)
      ∧ t = { s with flash := t.flash, flashOps := t.flashOps, boot := { s.boot with mgmt := [1] } })
  ∧ (∀ s off (bytes : List Byte), off < 2 ^ 32 → bytes ≠ [] → bytes.length ≤ 256 → mgmtUp s = true → s.boot.stage = .recovery →
    exec (.recoveryData off bytes) s = .next { s with boot := { s.boot with
      recImg := Memory.put (fun _ => some 0) s.boot.recImg off (bytes.map BitVec.toNat), mgmt := [0] } })
  ∧ (∀ s ir dr, s.boot.pwrgd = true →
    let locked := s.fuse.debugLock && !Config.jtagScan ir
    exec (.jtagBoundaryScan ir dr) s = .next { s with boot := { s.boot with
      jtagIr := ir, jtagDr := if locked then dr % 2 else dr, jtagOn := true
      jtagTdo := if locked then 0 else Config.jtagOut ir s.boot.jtagDr (pinsNow s) } })

/-! Registers. -/

/-- A write of 4 or 8 bytes, aligned, reaches its register, and an access of another size or alignment changes nothing but BAD_ACCESS. SCRATCH
takes what is written; the lantern's writes of QUANTUM, NET_ARB_MODE, PLIMIT and UE_FENCE are held in their ranges; a write by a virtual
function beyond its host block, and a write to a read-only register, are discarded (20 R437 to R441). -/
def Obligations.RegisterWritesComplete : Prop :=
  (∀ s f off size w, f < 17 → hostUp s = true → (fnOf s f).enabled = true → size ≠ 0 → accessOk off size = false → off < bar0Size f →
    exec (.bar0BadAccess f off size w) s = .next { s with glb := { s.glb with badAccess := satAdd 32 s.glb.badAccess 1 } })
  ∧ (∀ s v, v < 2 ^ 64 → hostUp s = true → (fnOf s 0).enabled = true →
    exec (.registerWrite 0 0x70 8 v) s = .next { s with glb := { s.glb with scratch := v } })
  ∧ (∀ s v, v < 2 ^ 64 → fwUp s = true →
    exec (.registerWrite 17 0x3000 8 v) s = .next { s with quantum := max 1 (v % 65536) }
    ∧ exec (.registerWrite 17 0x6000 8 v) s = .next { s with netMode := v % 4 }
    ∧ exec (.registerWrite 17 0x9000 8 v) s = .next { s with ueFence := max 1 (v % 16) }
    ∧ (bitOf v 0 = false → exec (.registerWrite 17 0x5000 8 v) s =
        .next { s with power := { s.power with plimit := min 1600 (max 600 (fld v 47 32)) } }))
  ∧ (∀ s f off v, 1 ≤ f → f < 17 → hostUp s = true → (fnOf s f).enabled = true → 0x40 ≤ off → off < 0x10000 → off % 8 = 0 →
    v < 2 ^ 64 → exec (.registerWrite f off 8 v) s = .next s)
  ∧ (∀ s off v, hostUp s = true → (fnOf s 0).enabled = true → off < 0x70 → off % 8 = 0 → v < 2 ^ 64 →
    exec (.registerWrite 0 off 8 v) s = .next s)
  ∧ (∀ s v, hostUp s = true → (fnOf s 0).enabled = true → (fnOf s 0).en = false → v < 2 ^ 64 →
    exec (.registerWrite 0 0x1000 8 v) s = .next (setFn s 0 { fnOf s 0 with asq := v / 4096 * 4096 }))
end

