-- ==== Sys2Proof/Laws/Memory.lean ====
section
/-! SUPPORT. Tables and memories: reading after writing, and every memory operation keeps the canonical form. -/
namespace Sys2Proof.Machine

/-! Tables. -/

theorem tfind_tset {α : Type} (t : Tbl α) (i j : Nat) (v : α) :
    tfind (tset t i v) j = if i = j then some v else tfind t j := by
  induction t with
  | nil => rfl
  | cons p t ih =>
    obtain ⟨k, w⟩ := p
    simp only [tset]
    split
    · rfl
    · split
      · subst i; simp only [tfind]; split <;> rfl
      · simp only [tfind, ih]; split <;> split <;> first | rfl | omega

@[simp] theorem tfind_tset_self {α : Type} (t : Tbl α) (i : Nat) (v : α) : tfind (tset t i v) i = some v := by
  simp [tfind_tset]

theorem tfind_tset_ne {α : Type} {t : Tbl α} {i j : Nat} {v : α} (h : i ≠ j) : tfind (tset t i v) j = tfind t j := by
  simp [tfind_tset, h]

@[simp] theorem tget_tset_self {α : Type} (d : α) (t : Tbl α) (i : Nat) (v : α) : tget d (tset t i v) i = v := by
  simp [tget]

theorem tget_tset_ne {α : Type} {d : α} {t : Tbl α} {i j : Nat} {v : α} (h : i ≠ j) :
    tget d (tset t i v) j = tget d t j := by
  simp [tget, tfind_tset, h]

@[simp] theorem tset_tset {α : Type} (t : Tbl α) (i : Nat) (v w : α) : tset (tset t i v) i w = tset t i w := by
  induction t with
  | nil => simp [tset]
  | cons p t ih =>
    obtain ⟨k, u⟩ := p
    simp only [tset]
    split
    · simp [tset]
    · split
      · simp [tset]
      · next h₁ h₂ => simp [tset, h₁, h₂, ih]

theorem tget_of_tfind {α : Type} {d : α} {t : Tbl α} {i : Nat} {v : α} (h : tfind t i = some v) : tget d t i = v := by
  simp [tget, h]

/-! Lists of cells. -/

theorem wf_iff {d : Nat → Option Byte} {m : Memory} :
    Memory.wf d m = true ↔ m.Pairwise (fun a b => a.1 < b.1) ∧ ∀ c ∈ m, d c.1 ≠ some c.2 := by
  simp [Memory.wf]

theorem runCells_pairwise (a : Nat) (bs : List Nat) : (runCells a bs).Pairwise fun a b => a.1 < b.1 := by
  rw [List.pairwise_iff_getElem]
  intro i j hi hj hij
  simp [runCells]; omega

theorem mem_runCells {a : Nat} {bs : List Nat} {c : Host.Cell} (h : c ∈ runCells a bs) :
    a ≤ c.1 ∧ c.1 < a + bs.length := by
  obtain ⟨i, hi, rfl⟩ := List.mem_mapIdx.mp h
  simp; omega

/-- Writing a run of bytes keeps the canonical form. -/
theorem Memory.put_wf {d : Nat → Option Byte} {m : Memory} (a : Nat) (bs : List Nat) (h : Memory.wf d m = true) :
    Memory.wf d (Memory.put d m a bs) = true := by
  rw [wf_iff] at h ⊢
  obtain ⟨hp, hd⟩ := h
  constructor
  · simp only [Memory.put, List.pairwise_append]
    refine ⟨⟨hp.filter _, (runCells_pairwise a bs).filter _, ?_⟩, hp.filter _, ?_⟩
    · intro x hx y hy
      have := (mem_runCells (List.mem_filter.mp hy).1).1
      have hx := (List.mem_filter.mp hx).2
      simp at hx; omega
    · intro x hx y hy
      have hy := (List.mem_filter.mp hy).2
      rcases List.mem_append.mp hx with hx | hx
      · have hx := (List.mem_filter.mp hx).2
        simp at hx hy; omega
      · have := (mem_runCells (List.mem_filter.mp hx).1).2
        simp at hy; omega
  · intro c hc
    simp only [Memory.put, List.mem_append, List.mem_filter] at hc
    rcases hc with (hc | hc) | hc
    · exact hd c hc.1
    · simpa using hc.2
    · exact hd c hc.1

/-- No longer listing a range keeps the canonical form, where the default outside the range is as before. -/
theorem Memory.drop_wf {d e : Nat → Option Byte} {m : Memory} {a n : Nat}
    (he : ∀ x, x < a ∨ a + n ≤ x → e x = d x) (h : Memory.wf d m = true) : Memory.wf e (Memory.drop m a n) = true := by
  rw [wf_iff] at h ⊢
  refine ⟨h.1.filter _, fun c hc => ?_⟩
  have hm := List.mem_filter.mp hc
  have hx : c.1 < a ∨ a + n ≤ c.1 := by simpa using hm.2
  rw [he _ hx]
  exact h.2 c hm.1

theorem tfind_none_of_lt {m : Memory} {a : Nat} (h : ∀ c ∈ m, a < c.1) : tfind m a = none := by
  induction m with
  | nil => rfl
  | cons c m ih =>
    have := h c (by simp)
    simp only [tfind]
    rw [if_neg (by omega)]
    exact ih fun x hx => h x (by simp [hx])

theorem tfind_append (l m : Memory) (a : Nat) : tfind (l ++ m) a = (tfind l a).or (tfind m a) := by
  induction l with
  | nil => rfl
  | cons c l ih => simp only [List.cons_append, tfind]; split <;> simp [ih]

theorem tfind_filter_keep {m : Memory} {p : Nat → Bool} {a : Nat} (h : p a = true) :
    tfind (m.filter fun c => p c.1) a = tfind m a := by
  induction m with
  | nil => rfl
  | cons c m ih =>
    simp only [List.filter_cons]
    split
    · simp only [tfind, ih]
    · next hp =>
      simp only [tfind]
      rw [ih, if_neg]
      rintro rfl; exact hp h

theorem tfind_filter_drop {m : Memory} {p : Nat → Bool} {a : Nat} (h : p a = false) :
    tfind (m.filter fun c => p c.1) a = none := by
  induction m with
  | nil => rfl
  | cons c m ih =>
    simp only [List.filter_cons]
    split
    · next hp =>
      simp only [tfind]
      rw [ih, if_neg]
      rintro rfl; simp [h] at hp
    · exact ih

theorem tfind_none_of_notMem {m : Memory} {a : Nat} (h : ∀ c ∈ m, c.1 ≠ a) : tfind m a = none := by
  induction m with
  | nil => rfl
  | cons c m ih =>
    simp only [tfind]
    rw [if_neg (h c (by simp))]
    exact ih fun x hx => h x (by simp [hx])

/-- What a byte of memory reads as: its cell, else the default. -/
def Memory.read (d : Nat → Option Byte) (m : Memory) (a : Nat) : Option Byte := (cellAt m a).or (d a)

/-- A write leaves every byte outside its run as it was. -/
theorem cellAt_put_out {d : Nat → Option Byte} {m : Memory} {a x : Nat} {bs : List Nat}
    (h : x < a ∨ a + bs.length ≤ x) : cellAt (Memory.put d m a bs) x = cellAt m x := by
  have hn : tfind ((runCells a bs).filter fun c => d c.1 != some c.2) x = none :=
    tfind_none_of_notMem fun c hc => by
      have := mem_runCells (List.mem_filter.mp hc).1
      omega
  simp only [cellAt, Memory.put, tfind_append, hn]
  rcases h with h | h
  · rw [tfind_filter_keep (p := fun c => decide (c < a)) (by simpa), tfind_filter_drop (p := fun c => decide (a + bs.length ≤ c)) (by simp; omega)]
    simp
  · rw [tfind_filter_keep (p := fun c => decide (a + bs.length ≤ c)) (by simpa), tfind_filter_drop (p := fun c => decide (c < a)) (by simp; omega)]
    simp

theorem tfind_runCells {d : Nat → Option Byte} {a k : Nat} {bs : List Nat} (h : k < bs.length) :
    (tfind ((runCells a bs).filter fun c => d c.1 != some c.2) (a + k)).or (d (a + k))
      = some (BitVec.ofNat 8 (bs.getD k 0)) := by
  induction bs generalizing a k with
  | nil => simp at h
  | cons b bs ih =>
    have hr : runCells a (b :: bs) = (a, BitVec.ofNat 8 b) :: runCells (a + 1) bs := by
      simp only [runCells, List.mapIdx_cons, Nat.add_zero]
      congr 2
      funext i b; congr 1; omega
    rw [hr, List.filter_cons]
    cases k with
    | zero =>
      split
      · simp [tfind]
      · next hd =>
        have hd : d a = some (BitVec.ofNat 8 b) := by simpa using hd
        rw [tfind_none_of_notMem]
        · simp [hd]
        · intro c hc
          have := mem_runCells (List.mem_filter.mp hc).1
          omega
    | succ k =>
      have hk : k < bs.length := by simpa using h
      have := ih (a := a + 1) hk
      rw [show a + 1 + k = a + (k + 1) by omega] at this
      split
      · simp only [tfind]
        rw [if_neg (by omega), this]; simp
      · rw [this]; simp

/-- A byte of a write's run reads as what was written. -/
theorem read_put_in {d : Nat → Option Byte} {m : Memory} {a k : Nat} {bs : List Nat} (h : k < bs.length) :
    Memory.read d (Memory.put d m a bs) (a + k) = some (BitVec.ofNat 8 (bs.getD k 0)) := by
  simp only [Memory.read, cellAt, Memory.put, tfind_append]
  rw [tfind_filter_drop (p := fun c => decide (c < a)) (by simp),
    tfind_filter_drop (p := fun c => decide (a + bs.length ≤ c)) (by simp; omega)]
  simpa using tfind_runCells (d := d) (a := a) h

theorem cellAt_drop {m : Memory} {a n x : Nat} :
    cellAt (Memory.drop m a n) x = if x < a ∨ a + n ≤ x then cellAt m x else none := by
  simp only [cellAt, Memory.drop]
  split
  · next h => exact tfind_filter_keep (p := fun c => decide (c < a) || decide (a + n ≤ c)) (by simpa using h)
  · next h => exact tfind_filter_drop (p := fun c => decide (c < a) || decide (a + n ≤ c)) (by simpa using h)

/-! Stores: the ranges of free values do not move the default of an address outside a marked range. -/

theorem inRange_iff {r : Nat × Nat × Nat} {a : Nat} : inRange r a = true ↔ r.1 ≤ a ∧ a < r.1 + r.2.1 := by
  simp [inRange]

theorem find_filter_out {l : List (Nat × Nat × Nat)} {a n x : Nat} (h : x < a ∨ a + n ≤ x) :
    (l.filter fun r => !(decide (a ≤ r.1) && decide (r.1 + r.2.1 ≤ a + n))).find? (fun r => inRange r x)
      = l.find? fun r => inRange r x := by
  induction l with
  | nil => rfl
  | cons r l ih =>
    simp only [List.filter_cons]
    split
    · simp only [List.find?_cons, ih]
    · next hp =>
      have hb : ¬ inRange r x = true := by
        rw [inRange_iff]; simp at hp; omega
      rw [ih, List.find?_cons_of_neg (by simpa using hb)]

theorem find_cons_out {l : List (Nat × Nat × Nat)} {a n id x : Nat} (h : x < a ∨ a + n ≤ x) :
    ((a, n, id) :: l).find? (fun r => inRange r x) = l.find? fun r => inRange r x := by
  have hb : inRange (a, n, id) x = false := by
    rw [← Bool.not_eq_true, inRange_iff]; simp; omega
  simp [hb]

theorem Store.mark_find {st : Store} {a n id x : Nat} (h : x < a ∨ a + n ≤ x) :
    (st.mark a n id).free.find? (fun r => inRange r x) = st.free.find? fun r => inRange r x := by
  simp only [Store.mark]
  split
  · exact find_filter_out h
  · rw [find_cons_out h]; exact find_filter_out h

theorem Store.mark_dflt {st : Store} {a n id x : Nat} (h : x < a ∨ a + n ≤ x) : (st.mark a n id).dflt x = st.dflt x := by
  simp only [Store.dflt, Store.mark_find h]

theorem Store.put_wf {st : Store} (a : Nat) (bs : List Nat) (h : st.wf = true) : (st.put a bs).wf = true :=
  Memory.put_wf a bs h

theorem Store.mark_wf {st : Store} (a n id : Nat) (h : st.wf = true) : (st.mark a n id).wf = true :=
  Memory.drop_wf (fun _ hx => Store.mark_dflt hx) h

theorem Store.farPut_wf {st : Store} (a : Nat) (bs : List Nat) (h : st.farWf = true) : (st.farPut a bs).farWf = true :=
  Memory.put_wf a bs h

theorem Store.farMark_dflt {st : Store} {a n id x : Nat} (h : x < a ∨ a + n ≤ x) :
    (st.farMark a n id).farDflt x = st.farDflt x := by
  have hf : (st.farMark a n id).free.find? (fun r => inRange r x) = st.free.find? fun r => inRange r x :=
    (find_cons_out h).trans (find_filter_out h)
  simp only [Store.farDflt, hf]

theorem Store.farMark_wf {st : Store} (a n id : Nat) (h : st.farWf = true) : (st.farMark a n id).farWf = true :=
  Memory.drop_wf (fun _ hx => Store.farMark_dflt hx) h

theorem farNewOwner_wf {s : State} (tag page : Nat) (h : s.far.farWf = true) : (farNewOwner tag s page).far.farWf = true :=
  Memory.drop_wf (fun x hx => by
    have hf : (farNewOwner tag s page).far.free.find? (fun r => inRange r x) = s.far.free.find? fun r => inRange r x :=
      find_filter_out hx
    simp only [Store.farDflt, hf]) h

/-- A byte of a store outside a marked range reads as before. -/
theorem Store.mark_get {st : Store} {a n id x : Nat} (h : x < a ∨ a + n ≤ x) : (st.mark a n id).get x = st.get x := by
  simp only [Store.get, Store.mark_find h]
  rw [show (st.mark a n id).cells = Memory.drop st.cells a n from rfl, cellAt_drop, if_pos h]

/-- A byte of a range marked with zeros reads 0. -/
theorem Store.mark_zero {st : Store} {a n x : Nat} (h₁ : a ≤ x) (h₂ : x < a + n) : (st.mark a n 0).get x = 0 := by
  have hc : cellAt (st.mark a n 0).cells x = none := by
    rw [show (st.mark a n 0).cells = Memory.drop st.cells a n from rfl, cellAt_drop, if_neg (by omega)]
  have hf : (st.mark a n 0).free.find? (fun r => inRange r x) = none
      ∨ ∃ b c, (st.mark a n 0).free.find? (fun r => inRange r x) = some (b, c, 0) := by
    simp only [Store.mark]
    split
    · next hall =>
      refine .inl (List.find?_eq_none.mpr fun r hr => ?_)
      have h := (Bool.and_eq_true _ _ ▸ hall : _ ∧ _).2
      have h := List.all_eq_true.mp h r hr
      rw [inRange_iff]
      simp at h; omega
    · exact .inr ⟨a, n, List.find?_cons_of_pos (by rw [inRange_iff]; simp; omega)⟩
  simp only [Store.get, hc]
  rcases hf with hf | ⟨b, c, hf⟩ <;> simp only [hf]

/-- A byte of a store outside a written run reads as before. -/
theorem Store.put_get_out {st : Store} {a x : Nat} {bs : List Nat} (h : x < a ∨ a + bs.length ≤ x) :
    (st.put a bs).get x = st.get x := by
  simp only [Store.get]
  rw [show (st.put a bs).cells = Memory.put st.dflt st.cells a bs from rfl, cellAt_put_out h]
  rfl

end Sys2Proof.Machine
end

