-- ==== Sys2Proof/Laws/Ops.lean ====
section
/-! SUPPORT. One lemma per shared operation: what an issue, a data instruction, a host command and a fabric frame do where their
premises hold, and what the operations on units answer. -/
namespace Sys2Proof.Machine

@[simp] theorem guardNext_true {r : Refusal} {s : State} : guardNext true r s = .next s := rfl
@[simp] theorem guardNext_false {r : Refusal} {s : State} : guardNext false r s = .refused r := rfl

theorem guardNext_next {c : Bool} {r : Refusal} {s t : State} : guardNext c r s = .next t ↔ c = true ∧ s = t := by
  cases c <;> simp

/-! Tile instructions. -/

/-- A word that is issued meets its own rules. -/
theorem issue_of_issues {o : Op} {form : Nat → Bool} {s : State} {p : Nat} {w : IWord} {i : Iss} (go : Iss → Nat → Out)
    (h : Issues o s p w i) (hf : form w.toNat = true) : issue o form s p w go = go i w.toNat := by
  have hp : ¬ 256 ≤ p := by have := h.spire; omega
  have hs : ¬ 8 ≤ i.x.infl.length := by have := h.slots; omega
  simp [issue, h.op, h.fetched, h.may, h.legal, h.pred, hf, hp, hs]

/-- The same for an instruction of one form. -/
theorem issue_any {o : Op} {s : State} {p : Nat} {w : IWord} {i : Iss} (go : Iss → Nat → Out) (h : Issues o s p w i) :
    issue o anyForm s p w go = go i w.toNat := issue_of_issues go h rfl

/-- A word whose predicate does not hold passes on. -/
theorem issue_of_not_pred {o : Op} {form : Nat → Bool} {s : State} {p : Nat} {w : IWord} {i : Iss} (go : Iss → Nat → Out)
    (hp : p < 256) (ho : isOp o w.toNat = true) (hf : form w.toNat = true) (hi : issOf s p w.toNat = some i)
    (hm : mayIssue i.x i.c = true) (hl : wordLegal w.toNat = true)
    (hpr : predHolds i.c.preds (wNeg w.toNat) (wPred w.toNat) = false) :
    issue o form s p w go = .next (atOnce s p (pcSkip i.c w.toNat)) := by
  have hp : ¬ 256 ≤ p := by omega
  simp [issue, atOnce, *]

/-- An illegal word is refused with ILLEGAL_WORD. -/
theorem issue_of_illegal {o : Op} {form : Nat → Bool} {s : State} {p : Nat} {w : IWord} {i : Iss} (go : Iss → Nat → Out)
    (hp : p < 256) (ho : isOp o w.toNat = true) (hf : form w.toNat = true) (hi : issOf s p w.toNat = some i)
    (hm : mayIssue i.x i.c = true) (hl : wordLegal w.toNat = false) :
    issue o form s p w go = .next (refuse s p i.j i.c (chk true 0x100)) := by
  have hp : ¬ 256 ≤ p := by omega
  simp [issue, *]

/-- No event leaves the state. -/
@[simp] theorem evAll_nil (s : State) (p j : Nat) : evAll s p j [] = s := rfl

/-- A data instruction that is issued and goes takes its effect. -/
theorem dataIssue_goes {o : Op} {form : Nat → Bool} {s : State} {p : Nat} {w : IWord} {i : Iss}
    {mk : State → Nat → Iss → Nat → DataOp} (h : Issues o s p w i) (hf : form w.toNat = true) (g : Goes s i (mk s p i w.toNat)) :
    dataIssue o form s p w mk = .next (dataGo s p i w.toNat (mk s p i w.toNat)) := by
  simp [dataIssue, issue_of_issues _ h hf, dataStep, g.unrefused, g.free]

/-- The same for an instruction of one form. -/
theorem dataIssue_any {o : Op} {s : State} {p : Nat} {w : IWord} {i : Iss} {mk : State → Nat → Iss → Nat → DataOp}
    (h : Issues o s p w i) (g : Goes s i (mk s p i w.toNat)) :
    dataIssue o anyForm s p w mk = .next (dataGo s p i w.toNat (mk s p i w.toNat)) := dataIssue_goes h rfl g

/-! Host commands. -/

/-- May a queue pair carry a command of this kind (`queue`: 0 admin, 1 I/O, 2 either), and the function send it? -/
def QueueFits (queue : Nat) (pfOnly : Bool) (f q : Nat) : Prop :=
  ¬ (queue = 0 ∧ q ≠ 0) ∧ ¬ (queue = 1 ∧ q = 0) ∧ ¬ (pfOnly = true ∧ f ≠ 0)

/-- A host command that is taken runs its body on the state without its mailbox entry. -/
theorem hostExec_takes {opc : Nat} {s : State} {f q : Nat} {e : Entry} {x : Fetched} {queue : Nat} {pfOnly : Bool}
    {resv : Nat → Nat} (body : State → CmdRef → Nat → State) (h : Takes opc s f q e x) (hq : QueueFits queue pfOnly f q)
    (hr : resv e.toNat = 0) :
    hostExec opc s f q e true queue pfOnly resv body = .next (body (taken s x) (cmdOf f q x e) e.toNat) := by
  obtain ⟨h1, h2, h3, h4, h5, h6⟩ := h
  obtain ⟨q1, q2, q3⟩ := hq
  have hb : ((decide (queue = 0) && q != 0) || (decide (queue = 1) && decide (q = 0)) || (pfOnly && f != 0)) = false := by
    cases pfOnly <;> simp_all
  simp [hostExec, h1, hostReady, h2, h3, h4, hostCmd, h5, h6, hr, hb, taken, cmdOf]

/-- A handle that names a slot is not 0 and is the handle of a job there. -/
theorem slotOf_eq_some {s : State} {h j : Nat} (hs : slotOf s h = some j) :
    h ≠ 0 ∧ ∃ x, (j, x) ∈ s.jobs ∧ x.handle = h := by
  unfold slotOf at hs
  split at hs
  · cases hs
  · obtain ⟨⟨k, x⟩, hx, rfl⟩ := Option.map_eq_some_iff.mp hs
    exact ⟨by assumption, x, List.mem_of_find?_eq_some hx, by simpa using List.find?_some hx⟩

/-- The body of a command that names an own job. -/
theorem withJob_own {s : State} {r : CmdRef} {h j : Nat} {x : Job} (body : Nat → Job → State) (hs : slotOf s h = some j)
    (hj : jobOf s j = some x) (hf : x.fn = r.fn) : withJob s r h body = body j x := by
  simp [withJob, hs, hj, hf]

/-! Fabric frames. -/

/-- An accepted frame has its own meaning. -/
theorem rx_accepted {s : State} {f : Frame} {type n : Nat} (body : State → State) (h : Accepted s f type n) :
    rx s f type n body = .next (body (linked s f n)) := by
  obtain ⟨h1, h2, h3, h4, h5, h6⟩ := h
  have ht : (linkTake s f n).2 = true := by simp [linkTake, h4, h5, h6]
  simp [rx, h1, h2, h3, ht, linked]

/-- A lantern message from a member of a job held here. -/
theorem rx_fromMember {s : State} {f : Frame} {l j : Nat} {x : Job} (body : State → Nat → Job → State) (h : FromMember s f l j x) :
    rx s f 5 0 (fun s => ctlIn s f l body) = .next (body (linked s f 0) j x) := by
  rw [rx_accepted _ h.link]
  simp [ctlIn, h.job, h.src]

/-! Units. -/

@[simp] theorem spOf_setSp_self (s : State) (p : Nat) (x : Spire) : spOf (setSp s p x) p = x := by simp [spOf, setSp]
theorem spOf_setSp_ne {s : State} {p q : Nat} {x : Spire} (h : p ≠ q) : spOf (setSp s p x) q = spOf s q := by
  simp [spOf, setSp, tget_tset_ne h]
@[simp] theorem spOf_modSp_self (s : State) (p : Nat) (f : Spire → Spire) : spOf (modSp s p f) p = f (spOf s p) := by simp [modSp]
theorem spOf_modSp_ne {s : State} {p q : Nat} {f : Spire → Spire} (h : p ≠ q) : spOf (modSp s p f) q = spOf s q :=
  spOf_setSp_ne h
@[simp] theorem fnOf_setFn_self (s : State) (f : Nat) (x : Fn) : fnOf (setFn s f x) f = x := by simp [fnOf, setFn]
theorem fnOf_setFn_ne {s : State} {f g : Nat} {x : Fn} (h : f ≠ g) : fnOf (setFn s f x) g = fnOf s g := by
  simp [fnOf, setFn, tget_tset_ne h]
@[simp] theorem fnOf_modFn_self (s : State) (f : Nat) (g : Fn → Fn) : fnOf (modFn s f g) f = g (fnOf s f) := by simp [modFn]
@[simp] theorem jobOf_setJob_self (s : State) (j : Nat) (x : Job) : jobOf (setJob s j x) j = some x := by simp [jobOf, setJob]
theorem jobOf_setJob_ne {s : State} {j k : Nat} {x : Job} (h : j ≠ k) : jobOf (setJob s j x) k = jobOf s k := by
  simp [jobOf, setJob, tfind_tset_ne h]
theorem modJob_of_job {s : State} {j : Nat} {x : Job} (f : Job → Job) (h : jobOf s j = some x) : modJob s j f = setJob s j (f x) := by
  simp [modJob, h]
theorem modJob_of_none {s : State} {j : Nat} (f : Job → Job) (h : jobOf s j = none) : modJob s j f = s := by simp [modJob, h]
theorem jobOf_modJob_ne {s : State} {j k : Nat} {f : Job → Job} (h : j ≠ k) : jobOf (modJob s j f) k = jobOf s k := by
  unfold modJob; split
  · exact jobOf_setJob_ne h
  · rfl
@[simp] theorem portOf_modPort_self (s : State) (p : Nat) (f : Port → Port) : portOf (modPort s p f) p = f (portOf s p) := by
  simp [portOf, modPort]
theorem portOf_modPort_ne {s : State} {p q : Nat} {f : Port → Port} (h : p ≠ q) : portOf (modPort s p f) q = portOf s q := by
  simp [portOf, modPort, tget_tset_ne h]

/-- A write of a run of bytes to host memory: each byte of the run reads as written, every other as before. -/
theorem hostByte_hostPut_out {s : State} {a x : Nat} {bs : List Nat} (h : x < a ∨ a + bs.length ≤ x) :
    hostByte (hostPut s a bs) x = hostByte s x := by
  simp only [hostByte, hostPut, cellAt_put_out h]

theorem getD_or {o : Option Byte} {b : Byte} (h : o.or (some 0) = some b) : o.getD 0 = b := by cases o <;> simpa using h

theorem hostByte_hostPut_in {s : State} {a k : Nat} {bs : List Nat} (h : k < bs.length) :
    hostByte (hostPut s a bs) (a + k) = nth bs k % 256 := by
  have := read_put_in (d := fun _ => some 0) (m := s.hmem) (a := a) h
  simp only [hostByte, hostPut, getD_or this, nth, BitVec.toNat_ofNat]

end Sys2Proof.Machine
end

