-- ==== Sys2Proof/Laws/Pages.lean ====
section
/-! SUPPORT. The two-level page table of 09 R216 walks to what the job's table lists. -/
namespace Sys2Proof.Machine
/-- An entry whose fields fit Table MEM-3 is what its 64 bits decode to. -/
theorem pteDec_pteBits {e : Pte} (ht : e.tier < 8) (hs : e.slot < 32) (hp : e.pfn < 2 ^ 27) : pteDec (pteBits e) = some e := by
  obtain ⟨tier, ilv, shr, wp, slot, pfn⟩ := e
  dsimp only at ht hs hp
  cases ilv <;> cases shr <;> cases wp <;>
    simp [pteDec, pteBits, bitOf, fld, b2n, Nat.shiftRight_eq_div_pow] <;> omega

/-- The directory index of a page that a table lists is among those with a leaf table. -/
theorem mem_leafIdx {j : Job} {i : Nat} {e : Pte} (h : tfind j.pt i = some e) : i / 8192 ∈ leafIdx j := by
  rw [leafIdx, List.mem_eraseDups, List.mem_map]
  revert h
  induction j.pt with
  | nil => intro h; cases h
  | cons p t ih =>
    intro h
    simp only [tfind] at h
    split at h
    · exact ⟨p, by simp, by simp_all⟩
    · obtain ⟨x, hx, hy⟩ := ih h
      exact ⟨x, by simp [hx], hy⟩

/-- The entry of a list at the first place of one of its members. -/
theorem getD_idxOf {l : List Nat} {i d : Nat} (h : i ∈ l) : l.getD (l.idxOf i) d = i := by
  have hl := List.idxOf_lt_length_of_mem h
  rw [List.getD_eq_getElem?_getD, List.getElem?_eq_getElem hl, List.getElem_idxOf hl, Option.getD_some]

/-- The directory's place is a multiple of 64 KiB below 2^38. -/
theorem ptBase_eq {j : Job} (hc : nth j.cups 0 < 32) : ∃ n, n < 2 ^ 22 ∧ ptBase j = n * 65536 :=
  ⟨nth j.cups 0 * 65536 + 65024 + j.tableAt % 4 * 128, by omega, by rw [ptBase]; omega⟩

/-- The directory's word of an index. -/
theorem ptWord_dir {j : Job} {i : Nat} (hi : i < 16384) : ptWord j (ptBase j + 8 * i) = dirEntry j i := by
  rw [ptWord]
  simp only [Nat.add_sub_cancel_left]
  rw [if_pos (by omega), Nat.mul_div_cancel_left _ (by decide)]

/-- The word of the leaf table that a directory entry names. -/
theorem ptWord_leaf {j : Job} {i k : Nat} (hc : nth j.cups 0 < 32) (hl : (leafIdx j).length ≤ 16384) (hi : i ∈ leafIdx j) (hk : k < 8192) :
    ptWord j (fld (dirEntry j i) 47 16 * 65536 + 8 * k) = leafEntry j i k := by
  obtain ⟨n, hn, hb⟩ := ptBase_eq hc
  have hx := List.idxOf_lt_length_of_mem hi
  have hd : fld (dirEntry j i) 47 16 * 65536 = ptBase j + 131072 + (leafIdx j).idxOf i * 65536 := by
    rw [dirEntry, if_pos (by simpa using hi), hb, fld, Nat.shiftRight_eq_div_pow]
    omega
  have ho : fld (dirEntry j i) 47 16 * 65536 + 8 * k - ptBase j = 131072 + (leafIdx j).idxOf i * 65536 + 8 * k := by omega
  rw [ptWord]
  simp only [ho]
  rw [if_neg (by omega), show (131072 + (leafIdx j).idxOf i * 65536 + 8 * k - 131072) / 65536 = (leafIdx j).idxOf i by omega, getD_idxOf hi,
    show (131072 + (leafIdx j).idxOf i * 65536 + 8 * k) % 65536 / 8 = k by omega]

/-- The directory and leaf indices of an address are its virtual page number. -/
theorem fld_vpn {va : Nat} (hv : va < 2 ^ 48) :
    fld va 47 34 * 8192 + fld va 33 21 = va / 2 ^ 21 ∧ fld va 47 34 = va / 2 ^ 21 / 8192 := by
  simp [fld, Nat.shiftRight_eq_div_pow]; omega

/-- A directory entry with a leaf table is valid. -/
theorem dirEntry_valid {j : Job} {i : Nat} (hc : nth j.cups 0 < 32) (hl : (leafIdx j).length ≤ 16384) (hi : i ∈ leafIdx j) :
    bitOf (dirEntry j i) 63 = true := by
  obtain ⟨n, hn, hb⟩ := ptBase_eq hc
  have hx := List.idxOf_lt_length_of_mem hi
  have hz : ∀ m : Nat, m < 2 ^ 62 → (2 ^ 63 + m) / 2 ^ 63 % 2 = 1 := by intro m hm; omega
  rw [dirEntry, if_pos (by simpa using hi), bitOf, Nat.shiftRight_eq_div_pow, hb, hz _ (by omega)]
  rfl

/-- A directory entry without one is zero. -/
theorem dirEntry_absent {j : Job} {i : Nat} (hi : i ∉ leafIdx j) : dirEntry j i = 0 := if_neg (by simpa using hi)

/-- The directory index has 14 bits, the leaf index 13. -/
theorem fld_idx (va : Nat) : fld va 47 34 < 16384 ∧ fld va 33 21 < 8192 := by
  simp [fld, Nat.shiftRight_eq_div_pow]; omega

/-- The walk of an address whose directory entry is valid reads its leaf entry. -/
theorem ptWalk_leaf {j : Job} {va : Nat} (hc : nth j.cups 0 < 32) (hl : (leafIdx j).length ≤ 16384) (hm : fld va 47 34 ∈ leafIdx j) :
    ptWalk j va = pteDec (leafEntry j (fld va 47 34) (fld va 33 21)) := by
  obtain ⟨h1, h2⟩ := fld_idx va
  rw [ptWalk]
  simp only [ptWord_dir h1]
  rw [dirEntry_valid hc hl hm, if_pos rfl, ptWord_leaf hc hl hm h2]

/-- The walk of an address whose directory entry is not valid. -/
theorem ptWalk_absent {j : Job} {va : Nat} (hm : fld va 47 34 ∉ leafIdx j) : ptWalk j va = none := by
  obtain ⟨h1, h2⟩ := fld_idx va
  rw [ptWalk]
  simp only [ptWord_dir h1]
  rw [dirEntry_absent hm, show bitOf 0 63 = false by rfl]
  rfl

/-- An entry that is zero translates nothing. -/
theorem pteDec_zero : pteDec 0 = none := rfl

/-- The walk of the two-level table, word by word at its addresses in the system area, finds what the job's table lists (09 R216): a page translates
where it has an entry, whose fields fit Table MEM-3; the job's first cupola exists. -/
theorem ptWalk_eq {j : Job} {va : Nat} (hv : va < 2 ^ 48) (hc : nth j.cups 0 < 32) (hl : (leafIdx j).length ≤ 16384)
    (hp : ∀ e, tfind j.pt (va / 2 ^ 21) = some e → e.tier < 8 ∧ e.slot < 32 ∧ e.pfn < 2 ^ 27) :
    ptWalk j va = tfind j.pt (va / 2 ^ 21) := by
  obtain ⟨hk, hi⟩ := fld_vpn hv
  generalize va / 2 ^ 21 = n at *
  by_cases hm : fld va 47 34 ∈ leafIdx j
  · rw [ptWalk_leaf hc hl hm, leafEntry, hk]
    cases h : tfind j.pt n with
    | none => rw [Option.map_none, Option.getD_none, pteDec_zero]
    | some e => rw [Option.map_some, Option.getD_some, pteDec_pteBits (hp e h).1 (hp e h).2.1 (hp e h).2.2]
  · rw [ptWalk_absent hm]
    cases h : tfind j.pt n with
    | none => rfl
    | some e => exact absurd (hi ▸ mem_leafIdx h) hm

/-- Translation through the walk is a look-up of the page (09 R219). -/
theorem xlate_eq {s : State} {j : Job} {va : Nat} (hv : va < 2 ^ 48) (hc : nth j.cups 0 < 32) (hl : (leafIdx j).length ≤ 16384)
    (hp : ∀ e, tfind j.pt (va / 2 ^ 21) = some e → e.tier < 8 ∧ e.slot < 32 ∧ e.pfn < 2 ^ 27) :
    xlate s j va = (tfind j.pt (va / 2 ^ 21)).map fun e => (e, placePa j (ptePa s e (va % 2 ^ 21))) := by
  rw [xlate, if_pos hv, ptWalk_eq hv hc hl hp]
end Sys2Proof.Machine
end

