-- ==== Sys2Proof/Laws/State.lean ====
section
/-! SUPPORT. What each update of State leaves: one lemma per field and update, so that no proof unfolds a record update; a unit read
after another unit's update. -/
namespace Sys2Proof.Machine


/-! setSp changes spires alone. -/

section
variable (s : State) (p : Nat) (x : Spire)

@[simp] theorem setSp_pending : (setSp s p x).pending = s.pending := rfl
@[simp] theorem setSp_now : (setSp s p x).now = s.now := rfl
@[simp] theorem setSp_freeCtr : (setSp s p x).freeCtr = s.freeCtr := rfl
@[simp] theorem setSp_ids : (setSp s p x).ids = s.ids := rfl
@[simp] theorem setSp_fuse : (setSp s p x).fuse = s.fuse := rfl
@[simp] theorem setSp_boot : (setSp s p x).boot = s.boot := rfl
@[simp] theorem setSp_glb : (setSp s p x).glb = s.glb := rfl
@[simp] theorem setSp_hmem : (setSp s p x).hmem = s.hmem := rfl
@[simp] theorem setSp_msixOut : (setSp s p x).msixOut = s.msixOut := rfl
@[simp] theorem setSp_fabOut : (setSp s p x).fabOut = s.fabOut := rfl
@[simp] theorem setSp_fetched : (setSp s p x).fetched = s.fetched := rfl
@[simp] theorem setSp_fns : (setSp s p x).fns = s.fns := rfl
@[simp] theorem setSp_images : (setSp s p x).images = s.images := rfl
@[simp] theorem setSp_imgSeq : (setSp s p x).imgSeq = s.imgSeq := rfl
@[simp] theorem setSp_wins : (setSp s p x).wins = s.wins := rfl
@[simp] theorem setSp_models : (setSp s p x).models = s.models := rfl
@[simp] theorem setSp_hotSeq : (setSp s p x).hotSeq = s.hotSeq := rfl
@[simp] theorem setSp_pool : (setSp s p x).pool = s.pool := rfl
@[simp] theorem setSp_poolSeq : (setSp s p x).poolSeq = s.poolSeq := rfl
@[simp] theorem setSp_jobs : (setSp s p x).jobs = s.jobs := rfl
@[simp] theorem setSp_jobSeq : (setSp s p x).jobSeq = s.jobSeq := rfl
@[simp] theorem setSp_jobRegs : (setSp s p x).jobRegs = s.jobRegs := rfl
@[simp] theorem setSp_groups : (setSp s p x).groups = s.groups := rfl
@[simp] theorem setSp_quantum : (setSp s p x).quantum = s.quantum := rfl
@[simp] theorem setSp_mem : (setSp s p x).mem = s.mem := rfl
@[simp] theorem setSp_far : (setSp s p x).far = s.far := rfl
@[simp] theorem setSp_farEpoch : (setSp s p x).farEpoch = s.farEpoch := rfl
@[simp] theorem setSp_farKeys : (setSp s p x).farKeys = s.farKeys := rfl
@[simp] theorem setSp_farTags : (setSp s p x).farTags = s.farTags := rfl
@[simp] theorem setSp_writes : (setSp s p x).writes = s.writes := rfl
@[simp] theorem setSp_sigs : (setSp s p x).sigs = s.sigs := rfl
@[simp] theorem setSp_csem : (setSp s p x).csem = s.csem := rfl
@[simp] theorem setSp_dsPart : (setSp s p x).dsPart = s.dsPart := rfl
@[simp] theorem setSp_slices : (setSp s p x).slices = s.slices := rfl
@[simp] theorem setSp_vchans : (setSp s p x).vchans = s.vchans := rfl
@[simp] theorem setSp_layers : (setSp s p x).layers = s.layers := rfl
@[simp] theorem setSp_vaults : (setSp s p x).vaults = s.vaults := rfl
@[simp] theorem setSp_wbulk : (setSp s p x).wbulk = s.wbulk := rfl
@[simp] theorem setSp_ueFence : (setSp s p x).ueFence = s.ueFence := rfl
@[simp] theorem setSp_fchans : (setSp s p x).fchans = s.fchans := rfl
@[simp] theorem setSp_farFenced : (setSp s p x).farFenced = s.farFenced := rfl
@[simp] theorem setSp_arbs : (setSp s p x).arbs = s.arbs := rfl
@[simp] theorem setSp_netMode : (setSp s p x).netMode = s.netMode := rfl
@[simp] theorem setSp_ports : (setSp s p x).ports = s.ports := rfl
@[simp] theorem setSp_etherType : (setSp s p x).etherType = s.etherType := rfl
@[simp] theorem setSp_vlanEn : (setSp s p x).vlanEn = s.vlanEn := rfl
@[simp] theorem setSp_vlanId : (setSp s p x).vlanId = s.vlanId := rfl
@[simp] theorem setSp_landings : (setSp s p x).landings = s.landings := rfl
@[simp] theorem setSp_video : (setSp s p x).video = s.video := rfl
@[simp] theorem setSp_evr : (setSp s p x).evr = s.evr := rfl
@[simp] theorem setSp_bar4Rd : (setSp s p x).bar4Rd = s.bar4Rd := rfl
@[simp] theorem setSp_bankA : (setSp s p x).bankA = s.bankA := rfl
@[simp] theorem setSp_bankB : (setSp s p x).bankB = s.bankB := rfl
@[simp] theorem setSp_lastBank : (setSp s p x).lastBank = s.lastBank := rfl
@[simp] theorem setSp_calib : (setSp s p x).calib = s.calib := rfl
@[simp] theorem setSp_flash : (setSp s p x).flash = s.flash := rfl
@[simp] theorem setSp_flashOps : (setSp s p x).flashOps = s.flashOps := rfl
@[simp] theorem setSp_flashCuts : (setSp s p x).flashCuts = s.flashCuts := rfl
@[simp] theorem setSp_gates : (setSp s p x).gates = s.gates := rfl
@[simp] theorem setSp_therms : (setSp s p x).therms = s.therms := rfl
@[simp] theorem setSp_power : (setSp s p x).power = s.power := rfl
end

/-! setFn changes fns alone. -/

section
variable (s : State) (f : Nat) (x : Fn)

@[simp] theorem setFn_pending : (setFn s f x).pending = s.pending := rfl
@[simp] theorem setFn_now : (setFn s f x).now = s.now := rfl
@[simp] theorem setFn_freeCtr : (setFn s f x).freeCtr = s.freeCtr := rfl
@[simp] theorem setFn_ids : (setFn s f x).ids = s.ids := rfl
@[simp] theorem setFn_fuse : (setFn s f x).fuse = s.fuse := rfl
@[simp] theorem setFn_boot : (setFn s f x).boot = s.boot := rfl
@[simp] theorem setFn_glb : (setFn s f x).glb = s.glb := rfl
@[simp] theorem setFn_hmem : (setFn s f x).hmem = s.hmem := rfl
@[simp] theorem setFn_msixOut : (setFn s f x).msixOut = s.msixOut := rfl
@[simp] theorem setFn_fabOut : (setFn s f x).fabOut = s.fabOut := rfl
@[simp] theorem setFn_fetched : (setFn s f x).fetched = s.fetched := rfl
@[simp] theorem setFn_images : (setFn s f x).images = s.images := rfl
@[simp] theorem setFn_imgSeq : (setFn s f x).imgSeq = s.imgSeq := rfl
@[simp] theorem setFn_wins : (setFn s f x).wins = s.wins := rfl
@[simp] theorem setFn_models : (setFn s f x).models = s.models := rfl
@[simp] theorem setFn_hotSeq : (setFn s f x).hotSeq = s.hotSeq := rfl
@[simp] theorem setFn_pool : (setFn s f x).pool = s.pool := rfl
@[simp] theorem setFn_poolSeq : (setFn s f x).poolSeq = s.poolSeq := rfl
@[simp] theorem setFn_jobs : (setFn s f x).jobs = s.jobs := rfl
@[simp] theorem setFn_jobSeq : (setFn s f x).jobSeq = s.jobSeq := rfl
@[simp] theorem setFn_jobRegs : (setFn s f x).jobRegs = s.jobRegs := rfl
@[simp] theorem setFn_groups : (setFn s f x).groups = s.groups := rfl
@[simp] theorem setFn_quantum : (setFn s f x).quantum = s.quantum := rfl
@[simp] theorem setFn_spires : (setFn s f x).spires = s.spires := rfl
@[simp] theorem setFn_mem : (setFn s f x).mem = s.mem := rfl
@[simp] theorem setFn_far : (setFn s f x).far = s.far := rfl
@[simp] theorem setFn_farEpoch : (setFn s f x).farEpoch = s.farEpoch := rfl
@[simp] theorem setFn_farKeys : (setFn s f x).farKeys = s.farKeys := rfl
@[simp] theorem setFn_farTags : (setFn s f x).farTags = s.farTags := rfl
@[simp] theorem setFn_writes : (setFn s f x).writes = s.writes := rfl
@[simp] theorem setFn_sigs : (setFn s f x).sigs = s.sigs := rfl
@[simp] theorem setFn_csem : (setFn s f x).csem = s.csem := rfl
@[simp] theorem setFn_dsPart : (setFn s f x).dsPart = s.dsPart := rfl
@[simp] theorem setFn_slices : (setFn s f x).slices = s.slices := rfl
@[simp] theorem setFn_vchans : (setFn s f x).vchans = s.vchans := rfl
@[simp] theorem setFn_layers : (setFn s f x).layers = s.layers := rfl
@[simp] theorem setFn_vaults : (setFn s f x).vaults = s.vaults := rfl
@[simp] theorem setFn_wbulk : (setFn s f x).wbulk = s.wbulk := rfl
@[simp] theorem setFn_ueFence : (setFn s f x).ueFence = s.ueFence := rfl
@[simp] theorem setFn_fchans : (setFn s f x).fchans = s.fchans := rfl
@[simp] theorem setFn_farFenced : (setFn s f x).farFenced = s.farFenced := rfl
@[simp] theorem setFn_arbs : (setFn s f x).arbs = s.arbs := rfl
@[simp] theorem setFn_netMode : (setFn s f x).netMode = s.netMode := rfl
@[simp] theorem setFn_ports : (setFn s f x).ports = s.ports := rfl
@[simp] theorem setFn_etherType : (setFn s f x).etherType = s.etherType := rfl
@[simp] theorem setFn_vlanEn : (setFn s f x).vlanEn = s.vlanEn := rfl
@[simp] theorem setFn_vlanId : (setFn s f x).vlanId = s.vlanId := rfl
@[simp] theorem setFn_landings : (setFn s f x).landings = s.landings := rfl
@[simp] theorem setFn_video : (setFn s f x).video = s.video := rfl
@[simp] theorem setFn_evr : (setFn s f x).evr = s.evr := rfl
@[simp] theorem setFn_bar4Rd : (setFn s f x).bar4Rd = s.bar4Rd := rfl
@[simp] theorem setFn_bankA : (setFn s f x).bankA = s.bankA := rfl
@[simp] theorem setFn_bankB : (setFn s f x).bankB = s.bankB := rfl
@[simp] theorem setFn_lastBank : (setFn s f x).lastBank = s.lastBank := rfl
@[simp] theorem setFn_calib : (setFn s f x).calib = s.calib := rfl
@[simp] theorem setFn_flash : (setFn s f x).flash = s.flash := rfl
@[simp] theorem setFn_flashOps : (setFn s f x).flashOps = s.flashOps := rfl
@[simp] theorem setFn_flashCuts : (setFn s f x).flashCuts = s.flashCuts := rfl
@[simp] theorem setFn_gates : (setFn s f x).gates = s.gates := rfl
@[simp] theorem setFn_therms : (setFn s f x).therms = s.therms := rfl
@[simp] theorem setFn_power : (setFn s f x).power = s.power := rfl
end

/-! setJob changes jobs alone. -/

section
variable (s : State) (j : Nat) (x : Job)

@[simp] theorem setJob_pending : (setJob s j x).pending = s.pending := rfl
@[simp] theorem setJob_now : (setJob s j x).now = s.now := rfl
@[simp] theorem setJob_freeCtr : (setJob s j x).freeCtr = s.freeCtr := rfl
@[simp] theorem setJob_ids : (setJob s j x).ids = s.ids := rfl
@[simp] theorem setJob_fuse : (setJob s j x).fuse = s.fuse := rfl
@[simp] theorem setJob_boot : (setJob s j x).boot = s.boot := rfl
@[simp] theorem setJob_glb : (setJob s j x).glb = s.glb := rfl
@[simp] theorem setJob_hmem : (setJob s j x).hmem = s.hmem := rfl
@[simp] theorem setJob_msixOut : (setJob s j x).msixOut = s.msixOut := rfl
@[simp] theorem setJob_fabOut : (setJob s j x).fabOut = s.fabOut := rfl
@[simp] theorem setJob_fetched : (setJob s j x).fetched = s.fetched := rfl
@[simp] theorem setJob_fns : (setJob s j x).fns = s.fns := rfl
@[simp] theorem setJob_images : (setJob s j x).images = s.images := rfl
@[simp] theorem setJob_imgSeq : (setJob s j x).imgSeq = s.imgSeq := rfl
@[simp] theorem setJob_wins : (setJob s j x).wins = s.wins := rfl
@[simp] theorem setJob_models : (setJob s j x).models = s.models := rfl
@[simp] theorem setJob_hotSeq : (setJob s j x).hotSeq = s.hotSeq := rfl
@[simp] theorem setJob_pool : (setJob s j x).pool = s.pool := rfl
@[simp] theorem setJob_poolSeq : (setJob s j x).poolSeq = s.poolSeq := rfl
@[simp] theorem setJob_jobSeq : (setJob s j x).jobSeq = s.jobSeq := rfl
@[simp] theorem setJob_jobRegs : (setJob s j x).jobRegs = s.jobRegs := rfl
@[simp] theorem setJob_groups : (setJob s j x).groups = s.groups := rfl
@[simp] theorem setJob_quantum : (setJob s j x).quantum = s.quantum := rfl
@[simp] theorem setJob_spires : (setJob s j x).spires = s.spires := rfl
@[simp] theorem setJob_mem : (setJob s j x).mem = s.mem := rfl
@[simp] theorem setJob_far : (setJob s j x).far = s.far := rfl
@[simp] theorem setJob_farEpoch : (setJob s j x).farEpoch = s.farEpoch := rfl
@[simp] theorem setJob_farKeys : (setJob s j x).farKeys = s.farKeys := rfl
@[simp] theorem setJob_farTags : (setJob s j x).farTags = s.farTags := rfl
@[simp] theorem setJob_writes : (setJob s j x).writes = s.writes := rfl
@[simp] theorem setJob_sigs : (setJob s j x).sigs = s.sigs := rfl
@[simp] theorem setJob_csem : (setJob s j x).csem = s.csem := rfl
@[simp] theorem setJob_dsPart : (setJob s j x).dsPart = s.dsPart := rfl
@[simp] theorem setJob_slices : (setJob s j x).slices = s.slices := rfl
@[simp] theorem setJob_vchans : (setJob s j x).vchans = s.vchans := rfl
@[simp] theorem setJob_layers : (setJob s j x).layers = s.layers := rfl
@[simp] theorem setJob_vaults : (setJob s j x).vaults = s.vaults := rfl
@[simp] theorem setJob_wbulk : (setJob s j x).wbulk = s.wbulk := rfl
@[simp] theorem setJob_ueFence : (setJob s j x).ueFence = s.ueFence := rfl
@[simp] theorem setJob_fchans : (setJob s j x).fchans = s.fchans := rfl
@[simp] theorem setJob_farFenced : (setJob s j x).farFenced = s.farFenced := rfl
@[simp] theorem setJob_arbs : (setJob s j x).arbs = s.arbs := rfl
@[simp] theorem setJob_netMode : (setJob s j x).netMode = s.netMode := rfl
@[simp] theorem setJob_ports : (setJob s j x).ports = s.ports := rfl
@[simp] theorem setJob_etherType : (setJob s j x).etherType = s.etherType := rfl
@[simp] theorem setJob_vlanEn : (setJob s j x).vlanEn = s.vlanEn := rfl
@[simp] theorem setJob_vlanId : (setJob s j x).vlanId = s.vlanId := rfl
@[simp] theorem setJob_landings : (setJob s j x).landings = s.landings := rfl
@[simp] theorem setJob_video : (setJob s j x).video = s.video := rfl
@[simp] theorem setJob_evr : (setJob s j x).evr = s.evr := rfl
@[simp] theorem setJob_bar4Rd : (setJob s j x).bar4Rd = s.bar4Rd := rfl
@[simp] theorem setJob_bankA : (setJob s j x).bankA = s.bankA := rfl
@[simp] theorem setJob_bankB : (setJob s j x).bankB = s.bankB := rfl
@[simp] theorem setJob_lastBank : (setJob s j x).lastBank = s.lastBank := rfl
@[simp] theorem setJob_calib : (setJob s j x).calib = s.calib := rfl
@[simp] theorem setJob_flash : (setJob s j x).flash = s.flash := rfl
@[simp] theorem setJob_flashOps : (setJob s j x).flashOps = s.flashOps := rfl
@[simp] theorem setJob_flashCuts : (setJob s j x).flashCuts = s.flashCuts := rfl
@[simp] theorem setJob_gates : (setJob s j x).gates = s.gates := rfl
@[simp] theorem setJob_therms : (setJob s j x).therms = s.therms := rfl
@[simp] theorem setJob_power : (setJob s j x).power = s.power := rfl
end

/-! modPort changes ports alone. -/

section
variable (s : State) (p : Nat) (f : Port → Port)

@[simp] theorem modPort_pending : (modPort s p f).pending = s.pending := rfl
@[simp] theorem modPort_now : (modPort s p f).now = s.now := rfl
@[simp] theorem modPort_freeCtr : (modPort s p f).freeCtr = s.freeCtr := rfl
@[simp] theorem modPort_ids : (modPort s p f).ids = s.ids := rfl
@[simp] theorem modPort_fuse : (modPort s p f).fuse = s.fuse := rfl
@[simp] theorem modPort_boot : (modPort s p f).boot = s.boot := rfl
@[simp] theorem modPort_glb : (modPort s p f).glb = s.glb := rfl
@[simp] theorem modPort_hmem : (modPort s p f).hmem = s.hmem := rfl
@[simp] theorem modPort_msixOut : (modPort s p f).msixOut = s.msixOut := rfl
@[simp] theorem modPort_fabOut : (modPort s p f).fabOut = s.fabOut := rfl
@[simp] theorem modPort_fetched : (modPort s p f).fetched = s.fetched := rfl
@[simp] theorem modPort_fns : (modPort s p f).fns = s.fns := rfl
@[simp] theorem modPort_images : (modPort s p f).images = s.images := rfl
@[simp] theorem modPort_imgSeq : (modPort s p f).imgSeq = s.imgSeq := rfl
@[simp] theorem modPort_wins : (modPort s p f).wins = s.wins := rfl
@[simp] theorem modPort_models : (modPort s p f).models = s.models := rfl
@[simp] theorem modPort_hotSeq : (modPort s p f).hotSeq = s.hotSeq := rfl
@[simp] theorem modPort_pool : (modPort s p f).pool = s.pool := rfl
@[simp] theorem modPort_poolSeq : (modPort s p f).poolSeq = s.poolSeq := rfl
@[simp] theorem modPort_jobs : (modPort s p f).jobs = s.jobs := rfl
@[simp] theorem modPort_jobSeq : (modPort s p f).jobSeq = s.jobSeq := rfl
@[simp] theorem modPort_jobRegs : (modPort s p f).jobRegs = s.jobRegs := rfl
@[simp] theorem modPort_groups : (modPort s p f).groups = s.groups := rfl
@[simp] theorem modPort_quantum : (modPort s p f).quantum = s.quantum := rfl
@[simp] theorem modPort_spires : (modPort s p f).spires = s.spires := rfl
@[simp] theorem modPort_mem : (modPort s p f).mem = s.mem := rfl
@[simp] theorem modPort_far : (modPort s p f).far = s.far := rfl
@[simp] theorem modPort_farEpoch : (modPort s p f).farEpoch = s.farEpoch := rfl
@[simp] theorem modPort_farKeys : (modPort s p f).farKeys = s.farKeys := rfl
@[simp] theorem modPort_farTags : (modPort s p f).farTags = s.farTags := rfl
@[simp] theorem modPort_writes : (modPort s p f).writes = s.writes := rfl
@[simp] theorem modPort_sigs : (modPort s p f).sigs = s.sigs := rfl
@[simp] theorem modPort_csem : (modPort s p f).csem = s.csem := rfl
@[simp] theorem modPort_dsPart : (modPort s p f).dsPart = s.dsPart := rfl
@[simp] theorem modPort_slices : (modPort s p f).slices = s.slices := rfl
@[simp] theorem modPort_vchans : (modPort s p f).vchans = s.vchans := rfl
@[simp] theorem modPort_layers : (modPort s p f).layers = s.layers := rfl
@[simp] theorem modPort_vaults : (modPort s p f).vaults = s.vaults := rfl
@[simp] theorem modPort_wbulk : (modPort s p f).wbulk = s.wbulk := rfl
@[simp] theorem modPort_ueFence : (modPort s p f).ueFence = s.ueFence := rfl
@[simp] theorem modPort_fchans : (modPort s p f).fchans = s.fchans := rfl
@[simp] theorem modPort_farFenced : (modPort s p f).farFenced = s.farFenced := rfl
@[simp] theorem modPort_arbs : (modPort s p f).arbs = s.arbs := rfl
@[simp] theorem modPort_netMode : (modPort s p f).netMode = s.netMode := rfl
@[simp] theorem modPort_etherType : (modPort s p f).etherType = s.etherType := rfl
@[simp] theorem modPort_vlanEn : (modPort s p f).vlanEn = s.vlanEn := rfl
@[simp] theorem modPort_vlanId : (modPort s p f).vlanId = s.vlanId := rfl
@[simp] theorem modPort_landings : (modPort s p f).landings = s.landings := rfl
@[simp] theorem modPort_video : (modPort s p f).video = s.video := rfl
@[simp] theorem modPort_evr : (modPort s p f).evr = s.evr := rfl
@[simp] theorem modPort_bar4Rd : (modPort s p f).bar4Rd = s.bar4Rd := rfl
@[simp] theorem modPort_bankA : (modPort s p f).bankA = s.bankA := rfl
@[simp] theorem modPort_bankB : (modPort s p f).bankB = s.bankB := rfl
@[simp] theorem modPort_lastBank : (modPort s p f).lastBank = s.lastBank := rfl
@[simp] theorem modPort_calib : (modPort s p f).calib = s.calib := rfl
@[simp] theorem modPort_flash : (modPort s p f).flash = s.flash := rfl
@[simp] theorem modPort_flashOps : (modPort s p f).flashOps = s.flashOps := rfl
@[simp] theorem modPort_flashCuts : (modPort s p f).flashCuts = s.flashCuts := rfl
@[simp] theorem modPort_gates : (modPort s p f).gates = s.gates := rfl
@[simp] theorem modPort_therms : (modPort s p f).therms = s.therms := rfl
@[simp] theorem modPort_power : (modPort s p f).power = s.power := rfl
end

/-! modVch changes vchans alone. -/

section
variable (s : State) (v c : Nat) (f : VChan → VChan)

@[simp] theorem modVch_pending : (modVch s v c f).pending = s.pending := rfl
@[simp] theorem modVch_now : (modVch s v c f).now = s.now := rfl
@[simp] theorem modVch_freeCtr : (modVch s v c f).freeCtr = s.freeCtr := rfl
@[simp] theorem modVch_ids : (modVch s v c f).ids = s.ids := rfl
@[simp] theorem modVch_fuse : (modVch s v c f).fuse = s.fuse := rfl
@[simp] theorem modVch_boot : (modVch s v c f).boot = s.boot := rfl
@[simp] theorem modVch_glb : (modVch s v c f).glb = s.glb := rfl
@[simp] theorem modVch_hmem : (modVch s v c f).hmem = s.hmem := rfl
@[simp] theorem modVch_msixOut : (modVch s v c f).msixOut = s.msixOut := rfl
@[simp] theorem modVch_fabOut : (modVch s v c f).fabOut = s.fabOut := rfl
@[simp] theorem modVch_fetched : (modVch s v c f).fetched = s.fetched := rfl
@[simp] theorem modVch_fns : (modVch s v c f).fns = s.fns := rfl
@[simp] theorem modVch_images : (modVch s v c f).images = s.images := rfl
@[simp] theorem modVch_imgSeq : (modVch s v c f).imgSeq = s.imgSeq := rfl
@[simp] theorem modVch_wins : (modVch s v c f).wins = s.wins := rfl
@[simp] theorem modVch_models : (modVch s v c f).models = s.models := rfl
@[simp] theorem modVch_hotSeq : (modVch s v c f).hotSeq = s.hotSeq := rfl
@[simp] theorem modVch_pool : (modVch s v c f).pool = s.pool := rfl
@[simp] theorem modVch_poolSeq : (modVch s v c f).poolSeq = s.poolSeq := rfl
@[simp] theorem modVch_jobs : (modVch s v c f).jobs = s.jobs := rfl
@[simp] theorem modVch_jobSeq : (modVch s v c f).jobSeq = s.jobSeq := rfl
@[simp] theorem modVch_jobRegs : (modVch s v c f).jobRegs = s.jobRegs := rfl
@[simp] theorem modVch_groups : (modVch s v c f).groups = s.groups := rfl
@[simp] theorem modVch_quantum : (modVch s v c f).quantum = s.quantum := rfl
@[simp] theorem modVch_spires : (modVch s v c f).spires = s.spires := rfl
@[simp] theorem modVch_mem : (modVch s v c f).mem = s.mem := rfl
@[simp] theorem modVch_far : (modVch s v c f).far = s.far := rfl
@[simp] theorem modVch_farEpoch : (modVch s v c f).farEpoch = s.farEpoch := rfl
@[simp] theorem modVch_farKeys : (modVch s v c f).farKeys = s.farKeys := rfl
@[simp] theorem modVch_farTags : (modVch s v c f).farTags = s.farTags := rfl
@[simp] theorem modVch_writes : (modVch s v c f).writes = s.writes := rfl
@[simp] theorem modVch_sigs : (modVch s v c f).sigs = s.sigs := rfl
@[simp] theorem modVch_csem : (modVch s v c f).csem = s.csem := rfl
@[simp] theorem modVch_dsPart : (modVch s v c f).dsPart = s.dsPart := rfl
@[simp] theorem modVch_slices : (modVch s v c f).slices = s.slices := rfl
@[simp] theorem modVch_layers : (modVch s v c f).layers = s.layers := rfl
@[simp] theorem modVch_vaults : (modVch s v c f).vaults = s.vaults := rfl
@[simp] theorem modVch_wbulk : (modVch s v c f).wbulk = s.wbulk := rfl
@[simp] theorem modVch_ueFence : (modVch s v c f).ueFence = s.ueFence := rfl
@[simp] theorem modVch_fchans : (modVch s v c f).fchans = s.fchans := rfl
@[simp] theorem modVch_farFenced : (modVch s v c f).farFenced = s.farFenced := rfl
@[simp] theorem modVch_arbs : (modVch s v c f).arbs = s.arbs := rfl
@[simp] theorem modVch_netMode : (modVch s v c f).netMode = s.netMode := rfl
@[simp] theorem modVch_ports : (modVch s v c f).ports = s.ports := rfl
@[simp] theorem modVch_etherType : (modVch s v c f).etherType = s.etherType := rfl
@[simp] theorem modVch_vlanEn : (modVch s v c f).vlanEn = s.vlanEn := rfl
@[simp] theorem modVch_vlanId : (modVch s v c f).vlanId = s.vlanId := rfl
@[simp] theorem modVch_landings : (modVch s v c f).landings = s.landings := rfl
@[simp] theorem modVch_video : (modVch s v c f).video = s.video := rfl
@[simp] theorem modVch_evr : (modVch s v c f).evr = s.evr := rfl
@[simp] theorem modVch_bar4Rd : (modVch s v c f).bar4Rd = s.bar4Rd := rfl
@[simp] theorem modVch_bankA : (modVch s v c f).bankA = s.bankA := rfl
@[simp] theorem modVch_bankB : (modVch s v c f).bankB = s.bankB := rfl
@[simp] theorem modVch_lastBank : (modVch s v c f).lastBank = s.lastBank := rfl
@[simp] theorem modVch_calib : (modVch s v c f).calib = s.calib := rfl
@[simp] theorem modVch_flash : (modVch s v c f).flash = s.flash := rfl
@[simp] theorem modVch_flashOps : (modVch s v c f).flashOps = s.flashOps := rfl
@[simp] theorem modVch_flashCuts : (modVch s v c f).flashCuts = s.flashCuts := rfl
@[simp] theorem modVch_gates : (modVch s v c f).gates = s.gates := rfl
@[simp] theorem modVch_therms : (modVch s v c f).therms = s.therms := rfl
@[simp] theorem modVch_power : (modVch s v c f).power = s.power := rfl
end

/-! hostPut changes hmem alone. -/

section
variable (s : State) (a : Nat) (bs : List Nat)

@[simp] theorem hostPut_pending : (hostPut s a bs).pending = s.pending := rfl
@[simp] theorem hostPut_now : (hostPut s a bs).now = s.now := rfl
@[simp] theorem hostPut_freeCtr : (hostPut s a bs).freeCtr = s.freeCtr := rfl
@[simp] theorem hostPut_ids : (hostPut s a bs).ids = s.ids := rfl
@[simp] theorem hostPut_fuse : (hostPut s a bs).fuse = s.fuse := rfl
@[simp] theorem hostPut_boot : (hostPut s a bs).boot = s.boot := rfl
@[simp] theorem hostPut_glb : (hostPut s a bs).glb = s.glb := rfl
@[simp] theorem hostPut_msixOut : (hostPut s a bs).msixOut = s.msixOut := rfl
@[simp] theorem hostPut_fabOut : (hostPut s a bs).fabOut = s.fabOut := rfl
@[simp] theorem hostPut_fetched : (hostPut s a bs).fetched = s.fetched := rfl
@[simp] theorem hostPut_fns : (hostPut s a bs).fns = s.fns := rfl
@[simp] theorem hostPut_images : (hostPut s a bs).images = s.images := rfl
@[simp] theorem hostPut_imgSeq : (hostPut s a bs).imgSeq = s.imgSeq := rfl
@[simp] theorem hostPut_wins : (hostPut s a bs).wins = s.wins := rfl
@[simp] theorem hostPut_models : (hostPut s a bs).models = s.models := rfl
@[simp] theorem hostPut_hotSeq : (hostPut s a bs).hotSeq = s.hotSeq := rfl
@[simp] theorem hostPut_pool : (hostPut s a bs).pool = s.pool := rfl
@[simp] theorem hostPut_poolSeq : (hostPut s a bs).poolSeq = s.poolSeq := rfl
@[simp] theorem hostPut_jobs : (hostPut s a bs).jobs = s.jobs := rfl
@[simp] theorem hostPut_jobSeq : (hostPut s a bs).jobSeq = s.jobSeq := rfl
@[simp] theorem hostPut_jobRegs : (hostPut s a bs).jobRegs = s.jobRegs := rfl
@[simp] theorem hostPut_groups : (hostPut s a bs).groups = s.groups := rfl
@[simp] theorem hostPut_quantum : (hostPut s a bs).quantum = s.quantum := rfl
@[simp] theorem hostPut_spires : (hostPut s a bs).spires = s.spires := rfl
@[simp] theorem hostPut_mem : (hostPut s a bs).mem = s.mem := rfl
@[simp] theorem hostPut_far : (hostPut s a bs).far = s.far := rfl
@[simp] theorem hostPut_farEpoch : (hostPut s a bs).farEpoch = s.farEpoch := rfl
@[simp] theorem hostPut_farKeys : (hostPut s a bs).farKeys = s.farKeys := rfl
@[simp] theorem hostPut_farTags : (hostPut s a bs).farTags = s.farTags := rfl
@[simp] theorem hostPut_writes : (hostPut s a bs).writes = s.writes := rfl
@[simp] theorem hostPut_sigs : (hostPut s a bs).sigs = s.sigs := rfl
@[simp] theorem hostPut_csem : (hostPut s a bs).csem = s.csem := rfl
@[simp] theorem hostPut_dsPart : (hostPut s a bs).dsPart = s.dsPart := rfl
@[simp] theorem hostPut_slices : (hostPut s a bs).slices = s.slices := rfl
@[simp] theorem hostPut_vchans : (hostPut s a bs).vchans = s.vchans := rfl
@[simp] theorem hostPut_layers : (hostPut s a bs).layers = s.layers := rfl
@[simp] theorem hostPut_vaults : (hostPut s a bs).vaults = s.vaults := rfl
@[simp] theorem hostPut_wbulk : (hostPut s a bs).wbulk = s.wbulk := rfl
@[simp] theorem hostPut_ueFence : (hostPut s a bs).ueFence = s.ueFence := rfl
@[simp] theorem hostPut_fchans : (hostPut s a bs).fchans = s.fchans := rfl
@[simp] theorem hostPut_farFenced : (hostPut s a bs).farFenced = s.farFenced := rfl
@[simp] theorem hostPut_arbs : (hostPut s a bs).arbs = s.arbs := rfl
@[simp] theorem hostPut_netMode : (hostPut s a bs).netMode = s.netMode := rfl
@[simp] theorem hostPut_ports : (hostPut s a bs).ports = s.ports := rfl
@[simp] theorem hostPut_etherType : (hostPut s a bs).etherType = s.etherType := rfl
@[simp] theorem hostPut_vlanEn : (hostPut s a bs).vlanEn = s.vlanEn := rfl
@[simp] theorem hostPut_vlanId : (hostPut s a bs).vlanId = s.vlanId := rfl
@[simp] theorem hostPut_landings : (hostPut s a bs).landings = s.landings := rfl
@[simp] theorem hostPut_video : (hostPut s a bs).video = s.video := rfl
@[simp] theorem hostPut_evr : (hostPut s a bs).evr = s.evr := rfl
@[simp] theorem hostPut_bar4Rd : (hostPut s a bs).bar4Rd = s.bar4Rd := rfl
@[simp] theorem hostPut_bankA : (hostPut s a bs).bankA = s.bankA := rfl
@[simp] theorem hostPut_bankB : (hostPut s a bs).bankB = s.bankB := rfl
@[simp] theorem hostPut_lastBank : (hostPut s a bs).lastBank = s.lastBank := rfl
@[simp] theorem hostPut_calib : (hostPut s a bs).calib = s.calib := rfl
@[simp] theorem hostPut_flash : (hostPut s a bs).flash = s.flash := rfl
@[simp] theorem hostPut_flashOps : (hostPut s a bs).flashOps = s.flashOps := rfl
@[simp] theorem hostPut_flashCuts : (hostPut s a bs).flashCuts = s.flashCuts := rfl
@[simp] theorem hostPut_gates : (hostPut s a bs).gates = s.gates := rfl
@[simp] theorem hostPut_therms : (hostPut s a bs).therms = s.therms := rfl
@[simp] theorem hostPut_power : (hostPut s a bs).power = s.power := rfl
end

/-! zeroMem changes mem and wbulk alone. -/

section
variable (s : State) (a n : Nat)

@[simp] theorem zeroMem_pending : (zeroMem s a n).pending = s.pending := rfl
@[simp] theorem zeroMem_now : (zeroMem s a n).now = s.now := rfl
@[simp] theorem zeroMem_freeCtr : (zeroMem s a n).freeCtr = s.freeCtr := rfl
@[simp] theorem zeroMem_ids : (zeroMem s a n).ids = s.ids := rfl
@[simp] theorem zeroMem_fuse : (zeroMem s a n).fuse = s.fuse := rfl
@[simp] theorem zeroMem_boot : (zeroMem s a n).boot = s.boot := rfl
@[simp] theorem zeroMem_glb : (zeroMem s a n).glb = s.glb := rfl
@[simp] theorem zeroMem_hmem : (zeroMem s a n).hmem = s.hmem := rfl
@[simp] theorem zeroMem_msixOut : (zeroMem s a n).msixOut = s.msixOut := rfl
@[simp] theorem zeroMem_fabOut : (zeroMem s a n).fabOut = s.fabOut := rfl
@[simp] theorem zeroMem_fetched : (zeroMem s a n).fetched = s.fetched := rfl
@[simp] theorem zeroMem_fns : (zeroMem s a n).fns = s.fns := rfl
@[simp] theorem zeroMem_images : (zeroMem s a n).images = s.images := rfl
@[simp] theorem zeroMem_imgSeq : (zeroMem s a n).imgSeq = s.imgSeq := rfl
@[simp] theorem zeroMem_wins : (zeroMem s a n).wins = s.wins := rfl
@[simp] theorem zeroMem_models : (zeroMem s a n).models = s.models := rfl
@[simp] theorem zeroMem_hotSeq : (zeroMem s a n).hotSeq = s.hotSeq := rfl
@[simp] theorem zeroMem_pool : (zeroMem s a n).pool = s.pool := rfl
@[simp] theorem zeroMem_poolSeq : (zeroMem s a n).poolSeq = s.poolSeq := rfl
@[simp] theorem zeroMem_jobs : (zeroMem s a n).jobs = s.jobs := rfl
@[simp] theorem zeroMem_jobSeq : (zeroMem s a n).jobSeq = s.jobSeq := rfl
@[simp] theorem zeroMem_jobRegs : (zeroMem s a n).jobRegs = s.jobRegs := rfl
@[simp] theorem zeroMem_groups : (zeroMem s a n).groups = s.groups := rfl
@[simp] theorem zeroMem_quantum : (zeroMem s a n).quantum = s.quantum := rfl
@[simp] theorem zeroMem_spires : (zeroMem s a n).spires = s.spires := rfl
@[simp] theorem zeroMem_far : (zeroMem s a n).far = s.far := rfl
@[simp] theorem zeroMem_farEpoch : (zeroMem s a n).farEpoch = s.farEpoch := rfl
@[simp] theorem zeroMem_farKeys : (zeroMem s a n).farKeys = s.farKeys := rfl
@[simp] theorem zeroMem_farTags : (zeroMem s a n).farTags = s.farTags := rfl
@[simp] theorem zeroMem_writes : (zeroMem s a n).writes = s.writes := rfl
@[simp] theorem zeroMem_sigs : (zeroMem s a n).sigs = s.sigs := rfl
@[simp] theorem zeroMem_csem : (zeroMem s a n).csem = s.csem := rfl
@[simp] theorem zeroMem_dsPart : (zeroMem s a n).dsPart = s.dsPart := rfl
@[simp] theorem zeroMem_slices : (zeroMem s a n).slices = s.slices := rfl
@[simp] theorem zeroMem_vchans : (zeroMem s a n).vchans = s.vchans := rfl
@[simp] theorem zeroMem_layers : (zeroMem s a n).layers = s.layers := rfl
@[simp] theorem zeroMem_vaults : (zeroMem s a n).vaults = s.vaults := rfl
@[simp] theorem zeroMem_wbulk : (zeroMem s a n).wbulk = bulkAdd s a n := rfl
@[simp] theorem zeroMem_ueFence : (zeroMem s a n).ueFence = s.ueFence := rfl
@[simp] theorem zeroMem_fchans : (zeroMem s a n).fchans = s.fchans := rfl
@[simp] theorem zeroMem_farFenced : (zeroMem s a n).farFenced = s.farFenced := rfl
@[simp] theorem zeroMem_arbs : (zeroMem s a n).arbs = s.arbs := rfl
@[simp] theorem zeroMem_netMode : (zeroMem s a n).netMode = s.netMode := rfl
@[simp] theorem zeroMem_ports : (zeroMem s a n).ports = s.ports := rfl
@[simp] theorem zeroMem_etherType : (zeroMem s a n).etherType = s.etherType := rfl
@[simp] theorem zeroMem_vlanEn : (zeroMem s a n).vlanEn = s.vlanEn := rfl
@[simp] theorem zeroMem_vlanId : (zeroMem s a n).vlanId = s.vlanId := rfl
@[simp] theorem zeroMem_landings : (zeroMem s a n).landings = s.landings := rfl
@[simp] theorem zeroMem_video : (zeroMem s a n).video = s.video := rfl
@[simp] theorem zeroMem_evr : (zeroMem s a n).evr = s.evr := rfl
@[simp] theorem zeroMem_bar4Rd : (zeroMem s a n).bar4Rd = s.bar4Rd := rfl
@[simp] theorem zeroMem_bankA : (zeroMem s a n).bankA = s.bankA := rfl
@[simp] theorem zeroMem_bankB : (zeroMem s a n).bankB = s.bankB := rfl
@[simp] theorem zeroMem_lastBank : (zeroMem s a n).lastBank = s.lastBank := rfl
@[simp] theorem zeroMem_calib : (zeroMem s a n).calib = s.calib := rfl
@[simp] theorem zeroMem_flash : (zeroMem s a n).flash = s.flash := rfl
@[simp] theorem zeroMem_flashOps : (zeroMem s a n).flashOps = s.flashOps := rfl
@[simp] theorem zeroMem_flashCuts : (zeroMem s a n).flashCuts = s.flashCuts := rfl
@[simp] theorem zeroMem_gates : (zeroMem s a n).gates = s.gates := rfl
@[simp] theorem zeroMem_therms : (zeroMem s a n).therms = s.therms := rfl
@[simp] theorem zeroMem_power : (zeroMem s a n).power = s.power := rfl
end

/-! taken changes fetched alone. -/

section
variable (s : State) (x : Fetched)

@[simp] theorem taken_pending : (taken s x).pending = s.pending := rfl
@[simp] theorem taken_now : (taken s x).now = s.now := rfl
@[simp] theorem taken_freeCtr : (taken s x).freeCtr = s.freeCtr := rfl
@[simp] theorem taken_ids : (taken s x).ids = s.ids := rfl
@[simp] theorem taken_fuse : (taken s x).fuse = s.fuse := rfl
@[simp] theorem taken_boot : (taken s x).boot = s.boot := rfl
@[simp] theorem taken_glb : (taken s x).glb = s.glb := rfl
@[simp] theorem taken_hmem : (taken s x).hmem = s.hmem := rfl
@[simp] theorem taken_msixOut : (taken s x).msixOut = s.msixOut := rfl
@[simp] theorem taken_fabOut : (taken s x).fabOut = s.fabOut := rfl
@[simp] theorem taken_fns : (taken s x).fns = s.fns := rfl
@[simp] theorem taken_images : (taken s x).images = s.images := rfl
@[simp] theorem taken_imgSeq : (taken s x).imgSeq = s.imgSeq := rfl
@[simp] theorem taken_wins : (taken s x).wins = s.wins := rfl
@[simp] theorem taken_models : (taken s x).models = s.models := rfl
@[simp] theorem taken_hotSeq : (taken s x).hotSeq = s.hotSeq := rfl
@[simp] theorem taken_pool : (taken s x).pool = s.pool := rfl
@[simp] theorem taken_poolSeq : (taken s x).poolSeq = s.poolSeq := rfl
@[simp] theorem taken_jobs : (taken s x).jobs = s.jobs := rfl
@[simp] theorem taken_jobSeq : (taken s x).jobSeq = s.jobSeq := rfl
@[simp] theorem taken_jobRegs : (taken s x).jobRegs = s.jobRegs := rfl
@[simp] theorem taken_groups : (taken s x).groups = s.groups := rfl
@[simp] theorem taken_quantum : (taken s x).quantum = s.quantum := rfl
@[simp] theorem taken_spires : (taken s x).spires = s.spires := rfl
@[simp] theorem taken_mem : (taken s x).mem = s.mem := rfl
@[simp] theorem taken_far : (taken s x).far = s.far := rfl
@[simp] theorem taken_farEpoch : (taken s x).farEpoch = s.farEpoch := rfl
@[simp] theorem taken_farKeys : (taken s x).farKeys = s.farKeys := rfl
@[simp] theorem taken_farTags : (taken s x).farTags = s.farTags := rfl
@[simp] theorem taken_writes : (taken s x).writes = s.writes := rfl
@[simp] theorem taken_sigs : (taken s x).sigs = s.sigs := rfl
@[simp] theorem taken_csem : (taken s x).csem = s.csem := rfl
@[simp] theorem taken_dsPart : (taken s x).dsPart = s.dsPart := rfl
@[simp] theorem taken_slices : (taken s x).slices = s.slices := rfl
@[simp] theorem taken_vchans : (taken s x).vchans = s.vchans := rfl
@[simp] theorem taken_layers : (taken s x).layers = s.layers := rfl
@[simp] theorem taken_vaults : (taken s x).vaults = s.vaults := rfl
@[simp] theorem taken_wbulk : (taken s x).wbulk = s.wbulk := rfl
@[simp] theorem taken_ueFence : (taken s x).ueFence = s.ueFence := rfl
@[simp] theorem taken_fchans : (taken s x).fchans = s.fchans := rfl
@[simp] theorem taken_farFenced : (taken s x).farFenced = s.farFenced := rfl
@[simp] theorem taken_arbs : (taken s x).arbs = s.arbs := rfl
@[simp] theorem taken_netMode : (taken s x).netMode = s.netMode := rfl
@[simp] theorem taken_ports : (taken s x).ports = s.ports := rfl
@[simp] theorem taken_etherType : (taken s x).etherType = s.etherType := rfl
@[simp] theorem taken_vlanEn : (taken s x).vlanEn = s.vlanEn := rfl
@[simp] theorem taken_vlanId : (taken s x).vlanId = s.vlanId := rfl
@[simp] theorem taken_landings : (taken s x).landings = s.landings := rfl
@[simp] theorem taken_video : (taken s x).video = s.video := rfl
@[simp] theorem taken_evr : (taken s x).evr = s.evr := rfl
@[simp] theorem taken_bar4Rd : (taken s x).bar4Rd = s.bar4Rd := rfl
@[simp] theorem taken_bankA : (taken s x).bankA = s.bankA := rfl
@[simp] theorem taken_bankB : (taken s x).bankB = s.bankB := rfl
@[simp] theorem taken_lastBank : (taken s x).lastBank = s.lastBank := rfl
@[simp] theorem taken_calib : (taken s x).calib = s.calib := rfl
@[simp] theorem taken_flash : (taken s x).flash = s.flash := rfl
@[simp] theorem taken_flashOps : (taken s x).flashOps = s.flashOps := rfl
@[simp] theorem taken_flashCuts : (taken s x).flashCuts = s.flashCuts := rfl
@[simp] theorem taken_gates : (taken s x).gates = s.gates := rfl
@[simp] theorem taken_therms : (taken s x).therms = s.therms := rfl
@[simp] theorem taken_power : (taken s x).power = s.power := rfl
end

/-! Units read after the update of another kind of unit. -/

@[simp] theorem spOf_setFn (s : State) (i : Nat) (x : Fn) (k : Nat) : spOf (setFn s i x) k = spOf s k := rfl
@[simp] theorem spOf_setJob (s : State) (i : Nat) (x : Job) (k : Nat) : spOf (setJob s i x) k = spOf s k := rfl
@[simp] theorem spOf_modPort (s : State) (i : Nat) (x : Port → Port) (k : Nat) : spOf (modPort s i x) k = spOf s k := rfl
@[simp] theorem spOf_modVch (s : State) (i k : Nat) (x : VChan → VChan) (k' : Nat) : spOf (modVch s i k x) k' = spOf s k' := rfl
@[simp] theorem spOf_hostPut (s : State) (i : Nat) (x : List Nat) (k : Nat) : spOf (hostPut s i x) k = spOf s k := rfl
@[simp] theorem spOf_zeroMem (s : State) (i : Nat) (x : Nat) (k : Nat) : spOf (zeroMem s i x) k = spOf s k := rfl
@[simp] theorem spOf_taken (s : State) (x : Fetched) (k : Nat) : spOf (taken s x) k = spOf s k := rfl
@[simp] theorem fnOf_setSp (s : State) (i : Nat) (x : Spire) (k : Nat) : fnOf (setSp s i x) k = fnOf s k := rfl
@[simp] theorem fnOf_setJob (s : State) (i : Nat) (x : Job) (k : Nat) : fnOf (setJob s i x) k = fnOf s k := rfl
@[simp] theorem fnOf_modPort (s : State) (i : Nat) (x : Port → Port) (k : Nat) : fnOf (modPort s i x) k = fnOf s k := rfl
@[simp] theorem fnOf_modVch (s : State) (i k : Nat) (x : VChan → VChan) (k' : Nat) : fnOf (modVch s i k x) k' = fnOf s k' := rfl
@[simp] theorem fnOf_hostPut (s : State) (i : Nat) (x : List Nat) (k : Nat) : fnOf (hostPut s i x) k = fnOf s k := rfl
@[simp] theorem fnOf_zeroMem (s : State) (i : Nat) (x : Nat) (k : Nat) : fnOf (zeroMem s i x) k = fnOf s k := rfl
@[simp] theorem fnOf_taken (s : State) (x : Fetched) (k : Nat) : fnOf (taken s x) k = fnOf s k := rfl
@[simp] theorem jobOf_setSp (s : State) (i : Nat) (x : Spire) (k : Nat) : jobOf (setSp s i x) k = jobOf s k := rfl
@[simp] theorem jobOf_setFn (s : State) (i : Nat) (x : Fn) (k : Nat) : jobOf (setFn s i x) k = jobOf s k := rfl
@[simp] theorem jobOf_modPort (s : State) (i : Nat) (x : Port → Port) (k : Nat) : jobOf (modPort s i x) k = jobOf s k := rfl
@[simp] theorem jobOf_modVch (s : State) (i k : Nat) (x : VChan → VChan) (k' : Nat) : jobOf (modVch s i k x) k' = jobOf s k' := rfl
@[simp] theorem jobOf_hostPut (s : State) (i : Nat) (x : List Nat) (k : Nat) : jobOf (hostPut s i x) k = jobOf s k := rfl
@[simp] theorem jobOf_zeroMem (s : State) (i : Nat) (x : Nat) (k : Nat) : jobOf (zeroMem s i x) k = jobOf s k := rfl
@[simp] theorem jobOf_taken (s : State) (x : Fetched) (k : Nat) : jobOf (taken s x) k = jobOf s k := rfl
@[simp] theorem portOf_setSp (s : State) (i : Nat) (x : Spire) (k : Nat) : portOf (setSp s i x) k = portOf s k := rfl
@[simp] theorem portOf_setFn (s : State) (i : Nat) (x : Fn) (k : Nat) : portOf (setFn s i x) k = portOf s k := rfl
@[simp] theorem portOf_setJob (s : State) (i : Nat) (x : Job) (k : Nat) : portOf (setJob s i x) k = portOf s k := rfl
@[simp] theorem portOf_modVch (s : State) (i k : Nat) (x : VChan → VChan) (k' : Nat) : portOf (modVch s i k x) k' = portOf s k' := rfl
@[simp] theorem portOf_hostPut (s : State) (i : Nat) (x : List Nat) (k : Nat) : portOf (hostPut s i x) k = portOf s k := rfl
@[simp] theorem portOf_zeroMem (s : State) (i : Nat) (x : Nat) (k : Nat) : portOf (zeroMem s i x) k = portOf s k := rfl
@[simp] theorem portOf_taken (s : State) (x : Fetched) (k : Nat) : portOf (taken s x) k = portOf s k := rfl
@[simp] theorem fchOf_setSp (s : State) (i : Nat) (x : Spire) (k : Nat) : fchOf (setSp s i x) k = fchOf s k := rfl
@[simp] theorem fchOf_setFn (s : State) (i : Nat) (x : Fn) (k : Nat) : fchOf (setFn s i x) k = fchOf s k := rfl
@[simp] theorem fchOf_setJob (s : State) (i : Nat) (x : Job) (k : Nat) : fchOf (setJob s i x) k = fchOf s k := rfl
@[simp] theorem fchOf_modPort (s : State) (i : Nat) (x : Port → Port) (k : Nat) : fchOf (modPort s i x) k = fchOf s k := rfl
@[simp] theorem fchOf_modVch (s : State) (i k : Nat) (x : VChan → VChan) (k' : Nat) : fchOf (modVch s i k x) k' = fchOf s k' := rfl
@[simp] theorem fchOf_hostPut (s : State) (i : Nat) (x : List Nat) (k : Nat) : fchOf (hostPut s i x) k = fchOf s k := rfl
@[simp] theorem fchOf_zeroMem (s : State) (i : Nat) (x : Nat) (k : Nat) : fchOf (zeroMem s i x) k = fchOf s k := rfl
@[simp] theorem fchOf_taken (s : State) (x : Fetched) (k : Nat) : fchOf (taken s x) k = fchOf s k := rfl
@[simp] theorem arbOf_setSp (s : State) (i : Nat) (x : Spire) (k : Nat) : arbOf (setSp s i x) k = arbOf s k := rfl
@[simp] theorem arbOf_setFn (s : State) (i : Nat) (x : Fn) (k : Nat) : arbOf (setFn s i x) k = arbOf s k := rfl
@[simp] theorem arbOf_setJob (s : State) (i : Nat) (x : Job) (k : Nat) : arbOf (setJob s i x) k = arbOf s k := rfl
@[simp] theorem arbOf_modPort (s : State) (i : Nat) (x : Port → Port) (k : Nat) : arbOf (modPort s i x) k = arbOf s k := rfl
@[simp] theorem arbOf_modVch (s : State) (i k : Nat) (x : VChan → VChan) (k' : Nat) : arbOf (modVch s i k x) k' = arbOf s k' := rfl
@[simp] theorem arbOf_hostPut (s : State) (i : Nat) (x : List Nat) (k : Nat) : arbOf (hostPut s i x) k = arbOf s k := rfl
@[simp] theorem arbOf_zeroMem (s : State) (i : Nat) (x : Nat) (k : Nat) : arbOf (zeroMem s i x) k = arbOf s k := rfl
@[simp] theorem arbOf_taken (s : State) (x : Fetched) (k : Nat) : arbOf (taken s x) k = arbOf s k := rfl
@[simp] theorem gateOf_setSp (s : State) (i : Nat) (x : Spire) (k : Nat) : gateOf (setSp s i x) k = gateOf s k := rfl
@[simp] theorem gateOf_setFn (s : State) (i : Nat) (x : Fn) (k : Nat) : gateOf (setFn s i x) k = gateOf s k := rfl
@[simp] theorem gateOf_setJob (s : State) (i : Nat) (x : Job) (k : Nat) : gateOf (setJob s i x) k = gateOf s k := rfl
@[simp] theorem gateOf_modPort (s : State) (i : Nat) (x : Port → Port) (k : Nat) : gateOf (modPort s i x) k = gateOf s k := rfl
@[simp] theorem gateOf_modVch (s : State) (i k : Nat) (x : VChan → VChan) (k' : Nat) : gateOf (modVch s i k x) k' = gateOf s k' := rfl
@[simp] theorem gateOf_hostPut (s : State) (i : Nat) (x : List Nat) (k : Nat) : gateOf (hostPut s i x) k = gateOf s k := rfl
@[simp] theorem gateOf_zeroMem (s : State) (i : Nat) (x : Nat) (k : Nat) : gateOf (zeroMem s i x) k = gateOf s k := rfl
@[simp] theorem gateOf_taken (s : State) (x : Fetched) (k : Nat) : gateOf (taken s x) k = gateOf s k := rfl
@[simp] theorem thermOf_setSp (s : State) (i : Nat) (x : Spire) (k : Nat) : thermOf (setSp s i x) k = thermOf s k := rfl
@[simp] theorem thermOf_setFn (s : State) (i : Nat) (x : Fn) (k : Nat) : thermOf (setFn s i x) k = thermOf s k := rfl
@[simp] theorem thermOf_setJob (s : State) (i : Nat) (x : Job) (k : Nat) : thermOf (setJob s i x) k = thermOf s k := rfl
@[simp] theorem thermOf_modPort (s : State) (i : Nat) (x : Port → Port) (k : Nat) : thermOf (modPort s i x) k = thermOf s k := rfl
@[simp] theorem thermOf_modVch (s : State) (i k : Nat) (x : VChan → VChan) (k' : Nat) : thermOf (modVch s i k x) k' = thermOf s k' := rfl
@[simp] theorem thermOf_hostPut (s : State) (i : Nat) (x : List Nat) (k : Nat) : thermOf (hostPut s i x) k = thermOf s k := rfl
@[simp] theorem thermOf_zeroMem (s : State) (i : Nat) (x : Nat) (k : Nat) : thermOf (zeroMem s i x) k = thermOf s k := rfl
@[simp] theorem thermOf_taken (s : State) (x : Fetched) (k : Nat) : thermOf (taken s x) k = thermOf s k := rfl
@[simp] theorem fwUp_setSp (s : State) (i : Nat) (x : Spire) : fwUp (setSp s i x) = fwUp s := rfl
@[simp] theorem hostRead_setSp (s : State) (i : Nat) (x : Spire) (m n : Nat) : hostRead (setSp s i x) m n = hostRead s m n := rfl
@[simp] theorem fwUp_setFn (s : State) (i : Nat) (x : Fn) : fwUp (setFn s i x) = fwUp s := rfl
@[simp] theorem hostRead_setFn (s : State) (i : Nat) (x : Fn) (m n : Nat) : hostRead (setFn s i x) m n = hostRead s m n := rfl
@[simp] theorem fwUp_setJob (s : State) (i : Nat) (x : Job) : fwUp (setJob s i x) = fwUp s := rfl
@[simp] theorem hostRead_setJob (s : State) (i : Nat) (x : Job) (m n : Nat) : hostRead (setJob s i x) m n = hostRead s m n := rfl
@[simp] theorem fwUp_modPort (s : State) (i : Nat) (x : Port → Port) : fwUp (modPort s i x) = fwUp s := rfl
@[simp] theorem hostRead_modPort (s : State) (i : Nat) (x : Port → Port) (m n : Nat) : hostRead (modPort s i x) m n = hostRead s m n := rfl
@[simp] theorem fwUp_modVch (s : State) (i k : Nat) (x : VChan → VChan) : fwUp (modVch s i k x) = fwUp s := rfl
@[simp] theorem hostRead_modVch (s : State) (i k : Nat) (x : VChan → VChan) (m n : Nat) : hostRead (modVch s i k x) m n = hostRead s m n := rfl
@[simp] theorem fwUp_hostPut (s : State) (i : Nat) (x : List Nat) : fwUp (hostPut s i x) = fwUp s := rfl
@[simp] theorem fwUp_zeroMem (s : State) (i : Nat) (x : Nat) : fwUp (zeroMem s i x) = fwUp s := rfl
@[simp] theorem hostRead_zeroMem (s : State) (i : Nat) (x : Nat) (m n : Nat) : hostRead (zeroMem s i x) m n = hostRead s m n := rfl
@[simp] theorem fwUp_taken (s : State) (x : Fetched) : fwUp (taken s x) = fwUp s := rfl
@[simp] theorem hostRead_taken (s : State) (x : Fetched) (m n : Nat) : hostRead (taken s x) m n = hostRead s m n := rfl

@[simp] theorem setSp_setSp (s : State) (p : Nat) (x y : Spire) : setSp (setSp s p x) p y = setSp s p y := by simp [setSp]
@[simp] theorem setFn_setFn (s : State) (f : Nat) (x y : Fn) : setFn (setFn s f x) f y = setFn s f y := by simp [setFn]
@[simp] theorem setJob_setJob (s : State) (j : Nat) (x y : Job) : setJob (setJob s j x) j y = setJob s j y := by simp [setJob]

end Sys2Proof.Machine
end

