-- ==== Sys2Proof/Tests/Slice0.lean ====
section
/-! SUPPORT. Small states and words that meet the hypotheses of each statement, well-formedness refusals, and values that the rules of
the spec give. -/
namespace Sys2Proof.Tests

set_option Elab.async false

open Sys2Proof.Machine

/-! Builders of small states and words. -/

/-- An instruction word: opcode, class, and fields as (low bit, value). -/
def wd (o cl : Nat) (fs : List (Nat × Nat)) : IWord := BitVec.ofNat 128 (o + cl * 256 + sumN (fs.map fun f => f.2 * 2 ^ f.1))

/-- A submission entry: opcode, and fields as (low bit, value). -/
def en (o : Nat) (fs : List (Nat × Nat)) : Entry := BitVec.ofNat 512 (o + sumN (fs.map fun f => f.2 * 2 ^ f.1))

/-- A descriptor of one or more rows: space, base, format, DIM0, DIM1, row stride, scale base in 256 B. -/
def tdw (space base fmt d0 d1 s1 sb : Nat) : Nat :=
  base + space * 2 ^ 48 + fmt * 2 ^ 50 + d0 * 2 ^ 64 + d1 * 2 ^ 80 + 2 ^ 104 + 2 ^ 128 + s1 * 2 ^ 144 + sb * 2 ^ 304

/-- A plan of one logical spire. -/
def pl : Plan := { members := [1], progs := [], inits := [], sems := [4] }

/-- A job of the PF with that plan, with one vault page and one dome page mapped. -/
def jb : Job := { handle := 1, fn := 0, img := 0, plan := pl, ready := true, place := [0], cups := [0], semBase := [8]
                  pt := [(1, { tier := 0, pfn := 3 }), (2, { tier := 1, pfn := 0x20000 })] }

/-- The device with firmware running and the host link up. -/
def s0 : State :=
  { State.reset with
    gates := [(0, { en := true, st := 2 })]
    boot := { stage := .firmware, pwrgd := true, perstN := true, linkUp := true, trained := true, admitReady := true } }

/-- Physical spire 0 runs logical spire 0 of the job in slot 0, whose program starts with these words. -/
def tS (ws : List IWord) (c : LCtx := { lidx := 0 }) (y : Job := jb) (x : Spire := {}) : State :=
  { s0 with
    jobs := [(0, y)]
    spires := [(0, { x with st := .running, job := some 0, run := some c, progs := [(0, ws.map (·.toNat))] })] }

/-- Some issue meets a tile statement's premises and its own condition. -/
def Meets (o : Op) (s : State) (w : IWord) (c : Iss → Bool) : Prop := ∃ i, Issues o s 0 w i ∧ c i = true

/-- The premises of `Issues`, evaluated. -/
def meets (o : Op) (s : State) (w : IWord) (c : Iss → Bool) : Bool :=
  match issOf s 0 w.toNat with
  | some i => isOp o w.toNat && mayIssue i.x i.c && wordLegal w.toNat && predHolds i.c.preds (wNeg w.toNat) (wPred w.toNat)
      && decide (i.x.infl.length < 8) && c i
  | none => false

theorem meets_of {o : Op} {s : State} {w : IWord} {c : Iss → Bool} (h : meets o s w c = true) : Meets o s w c := by
  unfold meets at h
  split at h
  · rename_i i hi
    simp only [Bool.and_eq_true, decide_eq_true_eq] at h
    exact ⟨i, ⟨by decide, h.1.1.1.1.1, hi, h.1.1.1.1.2, h.1.1.1.2, h.1.1.2, h.1.2⟩, h.2⟩
  · cases h

/-- Some issue of a data instruction meets `Issues`, `Goes` and a condition of its own. -/
def MeetsData (o : Op) (s : State) (w : IWord) (mk : State → Nat → Iss → Nat → DataOp) (c : Iss → Bool) : Prop :=
  ∃ i, Issues o s 0 w i ∧ Goes s i (mk s 0 i w.toNat) ∧ c i = true

/-- The premises of `Goes`, evaluated. -/
def goes (s : State) (i : Iss) (d : DataOp) : Bool :=
  (firstBad d.chks).isNone && !dataHeld s i d && (accAll s i.y d.vrd (effRanges d.eff)).isNone

theorem meetsData_of {o : Op} {s : State} {w : IWord} {mk : State → Nat → Iss → Nat → DataOp} {c : Iss → Bool}
    (h : meets o s w (fun i => goes s i (mk s 0 i w.toNat) && c i) = true) : MeetsData o s w mk c := by
  obtain ⟨i, hi, hc⟩ := meets_of h
  simp only [goes, Bool.and_eq_true, Option.isNone_iff_eq_none, Bool.not_eq_true'] at hc
  exact ⟨i, hi, ⟨hc.1.1.1, hc.1.1.2, hc.1.2⟩, hc.2⟩

/-! Well-formedness: a term that each check refuses. -/

/-- Every ill-formed command of a list is refused by name. -/
def refused (l : List Instr) : Bool := l.all fun c => !c.wf && (match exec c s0 with | .refused _ => true | _ => false)

theorem test_wf_tile : refused [.loop 0 ⟨wd 2 0 [], []⟩, .endl 256 ⟨wd 2 0 [], []⟩, .endl 0 ⟨wd 2 0 [], [.hostErr 0 0]⟩, .vopTensor 0 (wd 0x20 2 [(126, 1)]) [],
    .vopScalar 0 ⟨wd 0x20 2 [(126, 0)], []⟩, .vopDescriptor 0 ⟨wd 0x20 2 [(126, 1)], []⟩, .xrecvArm 0 ⟨wd 0x61 6 [(113, 1)], []⟩,
    .xrecvWait 0 ⟨wd 0x61 6 [], []⟩, .mma 0 (wd 0x10 1 []) [.spireUe 4 0], .move 0 (wd 0x50 5 []) [.vaultCe 32 0 0]] = true := by decide +kernel
theorem test_wf_events : refused [.mma 0 (wd 0x10 1 []) [.vaultUe 0x002000000000], .mma 0 (wd 0x10 1 []) [.domeUe 0 3],
    .mma 0 (wd 0x10 1 []) [.farUe 0], .mma 0 (wd 0x10 1 []) [.hostErr 0x040B 0x100000000000], .mma 0 (wd 0x10 1 []) [.spireCe 0 32]]
    = true := by decide +kernel
theorem test_wf_spire : refused [.stealIteration 0 0, .stealIteration 0 8, .clear 256, .run 256, .saveReq 256, .sfnCompat 256 true,
    .semaphoreHomeCycle 2 0 [] ⟨[], []⟩, .semaphoreHomeCycle 0 32 [] ⟨[], []⟩, .semaphoreHomeCycle 0 0 [1, 1] ⟨[], []⟩,
    .semaphoreHomeCycle 0 0 [] ⟨[1, 1], []⟩] = true := by decide +kernel
theorem test_wf_host : refused [.sqTailDoorbell 17 0 0 4 0, .sqTailDoorbell 0 0 4 4 0, .sqTailDoorbell 0 0 0 4 (2 ^ 32),
    .cqHeadDoorbell 0 0 0 4 0, .cqHeadDoorbell 0 0 4096 4 0, .adminQueueEnable 17, .bar4Access true 0 ⟨[], []⟩, .qpCreate 0 0 (en 2 []),
    .submit 0 1 (en 0x41 []), .doeDiscovery 0 [], .doeAbort 17, .registerWrite 18 0 8 0, .registerWrite 0 4 8 0,
    .registerWrite 0 0 8 (2 ^ 64), .bar0BadAccess 0 0 8 false, .vfEnable 0, .vfEnable 17, .marginComplete [(128, 0, 0)]]
    = true := by decide +kernel

/-- A frame that arrives correctly on port 0. -/
def fr (type : Nat) : Frame :=
  { port := 0, fcs := true, ver := 1, type := type, vc := 0, cvc := 0, lsn := 0, ackLsn := 0, ackV := false, nak := false, cred := 0
    srcFa := 0x0041, dstFa := 0, job := 7, group := 0, last := true, first := true, arr := false, slot := 0, offset := 0, plen := 0 }

theorem test_wf_fabric : refused [.link { fr 1 with port := 4 }, .data { fr 0 with lsn := 65536 } ⟨[], []⟩, .redVerdict (fr 7) 16 true,
    .go (fr 5) 0 2, .reqEnd (fr 5) 0 0 65536, .jobFault (fr 5) 0 65536, .roster (fr 3) 128 0 0 0 [], .towers (fr 4) 0 [128],
    .ackTimer 4, .portTraining 0 256] = true := by decide +kernel
theorem test_wf_units : refused [.frameStart 4, .vaultRefresh 32 0 0, .vaultTempSample 0 4 0, .vaultWriteTurn 0 64,
    .vaultPatrol 0 (some 74) false, .farAccessTimeout 64 0 0, .farRefreshRead 16 true, .arbGrant 2404 [] .goesOn, .netArbMode 4,
    .coldReset 4 ⟨[], []⟩, .warmReset 0 ⟨[(2048, 0)], []⟩, .coldReset 0 ⟨[], [.farUe 0]⟩, .farMemoryTraining [64], .pwrGateEn 104 true, .thermalLevelUpdate [] 0,
    .powerEstimate 65536, .levelChangeDone 33, .thermalTrip 256 0, .alertCauseClear 0 256, .pllLockLost 7 0,
    .railOutOfTolerance 64 0, .flashRead (2 ^ 32) 1, .flashErase (2 ^ 32) true, .flashProgram (2 ^ 32) [] true,
    .recoveryData (2 ^ 32) [], .mgmtRecoveryBoot (2 ^ 32) ⟨[], []⟩] = true := by decide +kernel

/-! Tile instructions: control. -/

/-- LOOP of 3 iterations over a body of 2 words, S1 raised by 5. -/
def wLoop : IWord := wd 1 0 [(112, 2), (96, 3), (85, 1), (53, 5), (52, 1)]
/-- LOOP of 0 iterations. -/
def wLoop0 : IWord := wd 1 0 [(112, 2)]
/-- ENDL. -/
def wEndl : IWord := wd 2 0 []
/-- A loop of 3 iterations in its iteration `it`. -/
def frm (it : Nat) : LoopFr :=
  { pc := 0, fin := 1, cnt := 3, it := it, sInd := 1, base := 0, step := 5, indEn := true, steal := true, top := 3, out := 0
    sregs := [], tds := [], preds := 0 }

theorem wit_loop : Meets .loop (tS [wLoop] { lidx := 0, loops := List.replicate 7 (frm 0) }) wLoop
    fun i => i.c.loops.length < 8 && loopCnt i.c wLoop.toNat != 0 := meets_of (by decide +kernel)
theorem wit_loop_zero : Meets .loop (tS [wLoop0]) wLoop0 fun i => i.c.loops.length < 8 && loopCnt i.c wLoop0.toNat = 0 :=
  meets_of (by decide +kernel)
theorem wit_loop_depth : Meets .loop (tS [wLoop] { lidx := 0, loops := List.replicate 8 (frm 0) }) wLoop
    fun i => 8 ≤ i.c.loops.length := meets_of (by decide +kernel)
theorem wit_endl_next : Meets .endl (tS [wEndl] { lidx := 0, loops := [frm 1] }) wEndl fun i =>
    i.x.stolen.isNone && match i.c.loops with | f :: _ => f.it + 1 < f.top | [] => false := meets_of (by decide +kernel)
/-- The own iterations of a stealable loop have nothing in flight: what is in flight stands outside the body. -/
theorem wit_endl_last : Meets .endl (tS [wEndl] { lidx := 0, loops := [frm 2] } jb
      { infl := [{ seq := 0, lidx := 0, pc := 1, word := 0, units := [0], rd := [], wr := [] }] }) wEndl fun i =>
    i.x.stolen.isNone && match i.c.loops with
      | f :: _ => f.top ≤ f.it + 1 && f.out = 0 && f.steal
          && i.x.infl.all fun g => !(g.lidx = i.c.lidx && f.pc < g.pc && g.pc < f.fin)
      | [] => false := meets_of (by decide +kernel)
/-- A loop whose last iteration a thief ran, with a trace marker: S1 takes its value in that iteration, the marker enters the trace (04 R128, R129). -/
theorem test_endl_stolen_tail : (match exec (.endl 0 ⟨wEndl, []⟩)
      (tS [wEndl] { lidx := 0, loops := [{ frm 1 with top := 2, marks := [(2, [[9, 0, 4]])] }] } { jb with trace := true }) with
    | .next t => (curCtx (spOf t 0)).any (fun c => sF c 0 4 0 = 0 && tget 0 c.sregs 1 = 10) && (jobOf t 0).any fun y => y.traceRing = [[9, 0, 4]]
    | _ => false) = true := by decide +kernel
/-- A spire that runs the stolen iteration 2 of spire 1's loop. -/
theorem wit_endl_stolen : Meets .endl (tS [wEndl] { lidx := 0 } jb { steal := [wEndl.toNat], stolen := some ⟨1, 0, 0, 2, { lidx := 0, pc := 1, loops := [frm 2] }, []⟩ }) wEndl fun i =>
    i.x.stolen.isSome && i.x.infl.isEmpty := meets_of (by decide +kernel)
/-- BR one word back; YIELD; HALT. -/
def wBr : IWord := wd 3 0 [(104, 2 ^ 24 - 1)]
theorem wit_br : Meets .br (tS [wd 4 0 [], wBr] { lidx := 0, pc := 1 }) wBr fun _ => true := meets_of (by decide +kernel)
theorem wit_yield : Meets .yield (tS [wd 4 0 []]) (wd 4 0 []) fun _ => true := meets_of (by decide +kernel)
theorem wit_halt : Meets .halt (tS [wd 5 0 []]) (wd 5 0 []) fun _ => true := meets_of (by decide +kernel)

/-- A1 as the base of two tables in the scratchpad: header VALID with PASS 5 at 0, PASS 4 at 256, entry 0 equal to 9. -/
def gSp : Store := { cells := [(0, 1), (4, 5), (64, 9), (256, 1), (260, 4), (320, 9)] }
/-- GATE in exact mode of TD0 against TD1 into P2. -/
def wGate : IWord := wd 6 0 [(121, 0), (115, 1), (102, 2)]
/-- A state in which wGate decides to reuse. -/
def gS : State := tS [wGate] { lidx := 0, tds := [(0, tdw 0 0 10 1 1 0 0), (1, tdw 0 256 10 1 1 0 0)] } jb { sp := gSp }
/-- The last two premises of the GATE statements. -/
def gateFree (s : State) (w : IWord) (i : Iss) : Bool :=
  let n := w.toNat
  let thr := bitOf n 127
  let cur := tdF i.c n 126 121
  let prev := tdF i.c n 120 115
  let rs := gateReads thr cur prev (sF i.c n 114 110)
  (firstBad (tdChk false cur ++ tdIf (!thr) false prev)).isNone
    && ivHeld i.x (tdScratchIv cur ++ ivIf (!thr) prev) [] = false
    && (accAll s i.y ((rs.filter fun r => r.1.space != 0).map (·.2)) []).isNone
theorem wit_gate : Meets .gate gS wGate fun i => gateFree gS wGate i && bitOf wGate.toNat 127 = false := meets_of (by decide +kernel)
/-- GATE in threshold mode over a table in job memory. -/
def wGateT : IWord := wd 6 0 [(127, 1), (121, 0), (102, 2)]
theorem wit_gate_threshold : Meets .gate (tS [wGateT] { lidx := 0, tds := [(0, tdw 1 0x200000 10 1 1 0 0)] }) wGateT fun i =>
    gateFree (tS [wGateT] { lidx := 0, tds := [(0, tdw 1 0x200000 10 1 1 0 0)] }) wGateT i := meets_of (by decide +kernel)
/-- R206: equal entries of consecutive passes are reused, so P2 becomes 0. -/
theorem test_gate_reuse : (match exec (.gate 0 ⟨wGate, []⟩) gS with
    | .next t => (curCtx (spOf t 0)).any fun c => predBit c.preds 2 = false && c.gate = 0
    | _ => false) = true := by decide +kernel
/-- A thief that traces. -/
theorem wit_finial_stolen : Meets .finial (tS [] { lidx := 0 } { jb with trace := true } { steal := [(wd 7 0 [(96, 77)]).toNat], stolen := some ⟨1, 0, 0, 2, { lidx := 0, pc := 1, loops := [frm 2] }, []⟩ }) (wd 7 0 [(96, 77)]) fun i =>
    i.x.stolen.isSome && i.y.trace := meets_of (by decide +kernel)
theorem wit_finial : Meets .finial (tS [wd 7 0 [(96, 77)]]) (wd 7 0 [(96, 77)]) fun _ => true := meets_of (by decide +kernel)

/-- VOP ADD S3 = S1 + S2; SUB; SLT into P1; descriptor reads and writes of DIM0. -/
def wAdd (op : Nat) : IWord := wd 0x20 2 [(126, 1), (121, 3), (116, 1), (111, 2), (105, op), (69, 1)]
/-- S1 = 2^64 − 1 and S2 = 2. -/
def cS : LCtx := { lidx := 0, sregs := [(1, 2 ^ 64 - 1), (2, 2)] }
theorem wit_vop_scalar : Meets .vop (tS [wAdd 1] cS) (wAdd 1) fun i =>
    fld (wAdd 1).toNat 127 126 = 1 && fld (wAdd 1).toNat 110 105 = 1 && decide (sF i.c (wAdd 1).toNat 120 116 < 2 ^ 64) :=
  meets_of (by decide +kernel)
theorem wit_vop_difference : Meets .vop (tS [wAdd 2] cS) (wAdd 2) fun i =>
    fld (wAdd 2).toNat 127 126 = 1 && fld (wAdd 2).toNat 110 105 = 2 && decide (sF i.c (wAdd 2).toNat 120 116 < 2 ^ 64)
      && decide (sF i.c (wAdd 2).toNat 115 111 < 2 ^ 64) := meets_of (by decide +kernel)
theorem wit_vop_compare : Meets .vop (tS [wAdd 0x12] cS) (wAdd 0x12) fun _ =>
    fld (wAdd 0x12).toNat 127 126 = 1 && fld (wAdd 0x12).toNat 110 105 = 0x12 := meets_of (by decide +kernel)
/-- Table TIS-9: a sum wraps, and −1 is below 2 as a signed number. -/
theorem test_scalar_add_wraps : scalarOp 1 0 (2 ^ 64 - 1) 2 0 = 1 ∧ scalarOp 2 0 1 2 0 = 2 ^ 64 - 1 := by decide +kernel
theorem test_scalar_compare : scalarCmp 0x12 (2 ^ 64 - 1) 2 = true ∧ scalarCmp 0x14 (2 ^ 64 - 1) 2 = false := by decide +kernel
/-- VOP in descriptor form: S3 = DIM0 of TD5; DIM0 of TD5 = S3. -/
def wDesc (rd : Nat) : IWord := wd 0x20 2 [(126, 2), (120, 5), (116, 1), (115, rd), (110, 3)]
theorem wit_vop_descriptor_read : Meets .vop (tS [wDesc 1]) (wDesc 1) fun _ =>
    fld (wDesc 1).toNat 127 126 = 2 && bitOf (wDesc 1).toNat 115 := meets_of (by decide +kernel)
theorem wit_vop_descriptor_write : Meets .vop (tS [wDesc 0]) (wDesc 0) fun _ =>
    fld (wDesc 0).toNat 127 126 = 2 && bitOf (wDesc 0).toNat 115 = false := meets_of (by decide +kernel)
/-- The commands of the frame answer a next state where their premises hold, an ENDL also at the end of a stolen iteration. -/
theorem wit_at_once : (∃ t, exec (.loop 0 ⟨wLoop, []⟩) (tS [wLoop]) = .next t) ∧ (∃ t, exec (.br 0 ⟨wBr, []⟩) (tS [wd 4 0 [], wBr] { lidx := 0, pc := 1 }) = .next t)
    ∧ (∃ t, exec (.halt 0 ⟨wd 5 0 [], []⟩) (tS [wd 5 0 []]) = .next t) ∧ (∃ t, exec (.endl 0 ⟨wEndl, []⟩) (tS [wEndl] { lidx := 0, loops := [frm 1] }) = .next t)
    ∧ (∃ t, exec (.vopScalar 0 ⟨wAdd 1, []⟩) (tS [wAdd 1] cS) = .next t) ∧ (∃ t, exec (.vopDescriptor 0 ⟨wDesc 1, []⟩) (tS [wDesc 1]) = .next t)
    ∧ ∃ t, exec (.endl 0 ⟨wEndl, []⟩) (tS [wEndl] { lidx := 0 } jb
      { steal := [wEndl.toNat], stolen := some ⟨1, 0, 0, 2, { lidx := 0, pc := 1, loops := [frm 2] }, []⟩ }) = .next t :=
  ⟨⟨_, rfl⟩, ⟨_, rfl⟩, ⟨_, rfl⟩, ⟨_, rfl⟩, ⟨_, rfl⟩, ⟨_, rfl⟩, ⟨_, rfl⟩⟩

/-! Tile instructions: data. Operands in the scratchpad of spire 0, one row of 32 elements; job memory where the form allows it. -/

/-- Descriptors: TD0 A8 at 0, TD1 W8 at 256, TD2 FP32 of 1 × 1 at 512, TD3 FP32 of 1 × 32 at 1024, TD4 A8 in job memory, TD5 FP32 in job
memory, TD6 a second A8, TD7 FP32 of 32 elements at 2048. -/
def tds0 : Tbl Nat :=
  [(0, tdw 0 0 5 32 1 64 1), (1, tdw 0 256 1 32 1 64 3), (2, tdw 0 512 10 1 1 64 0), (3, tdw 0 1024 10 32 1 128 0),
   (4, tdw 1 0x200000 5 32 1 64 0x2100), (5, tdw 1 0x210000 10 32 1 128 0), (6, tdw 0 1536 5 32 1 64 7), (7, tdw 0 2048 10 32 1 128 0)]
/-- S0 = 1, S1 = 32, and the descriptors. -/
def cD : LCtx := { lidx := 0, tds := tds0, sregs := [(0, 1), (1, 32)] }
/-- The same state with a program of one word. -/
def dS (w : IWord) : State := tS [w] cD jb { sp := { cells := [(0, 3), (256, 2), (257, 250), (260, 0x78), (768, 0x78), (1027, 0x3F)] } }
/-- MMA of one query row against one weight row over K = 32 into TD2. -/
def wMma : IWord := wd 0x10 1 [(122, 0), (116, 1), (110, 2), (99, 0), (94, 0), (89, 1)]
theorem wit_mma : MeetsData .mma (dS wMma) wMma mmaOp fun _ => true := meetsData_of (by decide +kernel)
/-- MMA2 of one row: K1 = 32, N1 = 32 into TD6 (A8), N2 = 1 into TD2. -/
def wMma2 : IWord := wd 0x11 1 [(122, 0), (116, 1), (110, 1), (104, 6), (98, 2), (81, 0), (76, 1), (71, 0), (66, 0)]
theorem wit_mma2 : MeetsData .mma2 (dS wMma2) wMma2 mma2Op fun _ => true :=
  meetsData_of (by decide +kernel)
/-- VOP ADD of TD3 and TD7 into TD7 over 32 elements. -/
def wVop : IWord := wd 0x20 2 [(120, 7), (114, 3), (108, 7), (96, 0), (91, 1)]
theorem wit_vop_tensor : MeetsData .vop (dS wVop) wVop vopOp fun _ => fld wVop.toNat 127 126 = 0 := meetsData_of (by decide +kernel)
/-- SFN code 02h of TD3 into TD7. -/
def wSfn : IWord := wd 0x21 2 [(122, 7), (116, 3), (111, 2), (106, 1)]
theorem wit_sfn : MeetsData .sfn (dS wSfn) wSfn sfnOp fun _ => true := meetsData_of (by decide +kernel)
/-- RSTAT 0 of one row of TD3 into TD2. -/
def wRstat : IWord := wd 0x22 2 [(122, 2), (116, 3), (113, 0), (108, 0), (103, 1)]
theorem wit_rstat : MeetsData .rstat (dS wRstat) wRstat rstatOp fun _ => true := meetsData_of (by decide +kernel)
/-- CDW with 0 run-time positions, where no layout is read. -/
def wCdw : IWord := wd 0x23 2 [(122, 7), (116, 0), (110, 1), (75, 9)]
theorem wit_cdw : MeetsData .cdw (dS wCdw) wCdw cdwOp fun _ => true := meetsData_of (by decide +kernel)
/-- QNT of TD3 into TD4 (job memory), DQT of TD0 into TD5 (job memory), COMB of two partials. -/
def wQnt : IWord := wd 0x40 4 [(122, 4), (116, 3), (107, 0), (102, 1)]
theorem wit_qnt : MeetsData .qnt (dS wQnt) wQnt qntOp fun _ => true := meetsData_of (by decide +kernel)
def wDqt : IWord := wd 0x41 4 [(122, 5), (116, 0), (110, 0), (105, 1)]
theorem wit_dqt : MeetsData .dqt (dS wDqt) wDqt dqtOp fun _ => true := meetsData_of (by decide +kernel)
/-- MOVE copies TD4 in job memory to TD6. -/
def wMove : IWord := wd 0x50 5 [(122, 6), (116, 4), (112, 0), (101, 1)]
theorem wit_move : MeetsData .move (dS wMove) wMove moveOp fun _ => true := meetsData_of (by decide +kernel)
/-- ATTN of one query of TD0 over one key of TD1 by the list TD2 into TD3, scores in TD4, all in the scratchpad. -/
def wAttn : IWord := wd 0x30 3 [(122, 0), (116, 1), (110, 1), (104, 3), (98, 4), (92, 2), (76, 0), (71, 0)]
/-- Its descriptors: A8 queries, A8 keys and values, FP32 key list, FP32 output, FP32 scores of 128 × 128. -/
def aS : State := tS [wAttn] { lidx := 0, sregs := [(0, 1)], tds :=
  [(0, tdw 0 0 5 128 1 128 2), (1, tdw 0 1024 5 128 1 128 6), (2, tdw 0 4096 10 128 1 512 0), (3, tdw 0 8192 10 128 1 512 0),
   (4, tdw 0 65536 10 128 128 512 0)] }
theorem wit_attn : MeetsData .attn aS wAttn attnOp fun _ => true := meetsData_of (by decide +kernel)
/-- COMB of two partials of 32 elements into TD3. -/
def wComb : IWord := wd 0x51 5 [(122, 3), (116, 8), (91, 1)]
/-- The partials: TD8 with DIM3 = 2. -/
def kS : State :=
  tS [wComb] { cD with tds := tset tds0 8 (4096 + 10 * 2 ^ 50 + 32 * 2 ^ 64 + 2 ^ 80 + 2 ^ 104 + 2 * 2 ^ 128 + 128 * 2 ^ 144 + 128 * 2 ^ 208) }
theorem wit_comb : MeetsData .comb kS wComb combOp fun _ => true := meetsData_of (by decide +kernel)

/-- A group of two members, slots of 256 B, its receive area and maps in page 1 of the job. -/
def grp : Grp := { raBase := 0x2400, ctlBase := 0x2300, slotUnits := 1, nslot := 4, nred := 1, z := [1], raSp := false, raLsp := 0
                   hop1 := true, swred := true, arr := false }
/-- A member of a job of two devices. -/
def jM : Job := { jb with plan := { pl with groups := [(1, grp)] }, m := 2, l := 0, grid := [1], fabId := 7, fas := [0, 0x0041] }
/-- XSEND of 8 bytes of TD0 to rank 1, slot 3 of group 1. -/
def wXsend : IWord := wd 0x60 6 [(122, 0), (118, 1), (113, 0), (108, 2), (103, 3), (101, 1)]
/-- A state that sends. -/
def xS : State := tS [wXsend] { cD with sregs := [(0, 1), (2, 3), (3, 8)] } jM
theorem wit_xsend : MeetsData .xsend xS wXsend (xsendOp []) fun i => (sendTo i wXsend.toNat).any fun q => q.2 != .dev i.y.l := meetsData_of (by decide +kernel)
/-- XSEND of 8 bytes to this device's own rank, whose slot 3 is ARMED. -/
def wXown : IWord := wd 0x60 6 [(122, 0), (118, 1), (113, 4), (108, 2), (103, 3), (101, 1)]
def xO : State := { tS [wXown] { cD with sregs := [(0, 1), (2, 3), (3, 8)] } jM { sp := { cells := [(0, 3)] } } with mem := ({} : Store).put (3 * 2 ^ 21 + 0x30000 + 8) [8] }
theorem wit_xsend_own : MeetsData .xsend xO wXown (xsendOp []) fun i => sendTo i wXown.toNat = some (grp, .dev i.y.l)
    && sF i.c wXown.toNat 112 108 = 3 && (ctlBad xO i.y (slotAcc grp 3) []).isNone && slotArmed xO i.y grp 3 && xO.landings.isEmpty
    && (accAll xO i.y [] (landAcc grp 3 0 8 true)).isNone := meetsData_of (by decide +kernel)
/-- R323: the piece lands in the slot, whose READY bit is set. -/
theorem test_xsend_own : (match exec (.xsend 0 wXown []) xO with
    | .next t => slotReady t jM grp 3 && rdBytes (vaByte t jM) 0x240300 8 = [3, 0, 0, 0, 0, 0, 0, 0] | _ => false) = true := by decide +kernel
theorem wit_data_frame : (match issOf (dS wQnt) 0 wQnt.toNat with
    | some i => (accAll (dS wQnt) i.y (qntOp (dS wQnt) 0 i wQnt.toNat).vrd (effRanges (qntOp (dS wQnt) 0 i wQnt.toNat).eff)).isNone
    | none => false) = true := by decide +kernel

/-- R31: the four codes of a byte E4h are 0, 1, 2, 3 from the low bits up; R32: an illegal WT byte reads as 0. -/
theorem test_w2_codes : (List.range 4).map (fun i => elemVal (fun _ _ => 0xE4) (tdDec (BitVec.ofNat 512 (tdw 0 0 3 4 1 64 0))) 0 i)
    = [fpOfInt (-3), fpOfInt (-1), fpOfInt 1, fpOfInt 3] := by decide +kernel
theorem test_wt_illegal : wtVal 0 243 = 0 ∧ wtVal 0 242 = 1 ∧ wtLegal 30 9 = false := by decide +kernel
theorem wit_w2 : (tdDec (BitVec.ofNat 512 (tdw 0 0 3 4 1 64 0))).fmt = 3 := by decide +kernel
theorem wit_w2_block : ({ kind := .int, vals := [], sc := 0, outs := [] } : Blk).sc = 0 := by decide
/-- R30: a block whose largest magnitude is 1 stores 127 for it, and −127 for its negative. -/
theorem test_a8_symmetric : (quantBlk 5 7 false [fpOfInt 127, fpOfInt (-127)]).codes.take 2 = [127, 129] := by decide +kernel

/-- Words under P1, which is 0. -/
def un (o cl : Nat) (fs : List (Nat × Nat)) : IWord := wd o cl ((12, 1) :: fs)
/-- Does a word under a predicate that does not hold meet the premises? -/
def skips (o : Op) (w : IWord) : Bool :=
  match issOf (tS [w]) 0 w.toNat with
  | some i => mayIssue i.x i.c && wordLegal w.toNat && predHolds i.c.preds (wNeg w.toNat) (wPred w.toNat) = false && isOp o w.toNat
      && (tileCommands 0 w).any (·.wf)
  | none => false
theorem wit_unpredicated : skips .sfn (un 0x21 2 []) && skips .mma2 (un 0x11 1 []) && skips .br (un 3 0 []) && skips .halt (un 5 0 [])
    && skips .sig (un 0x70 7 []) && skips .loop (un 1 0 [(112, 2)]) = true := by decide +kernel
/-- Does a word with a reserved bit set meet the premises of an illegal word? -/
def illegalAt (o : Op) (w : IWord) : Bool :=
  match issOf (tS [w]) 0 w.toNat with
  | some i => mayIssue i.x i.c && wordLegal w.toNat = false && isOp o w.toNat
  | none => false
theorem wit_illegal_word : illegalAt .fence (wd 0x72 7 []) && illegalAt .qnt (wd 0x40 4 [(16, 1)]) && illegalAt .endl (wd 2 0 [(127, 1)])
    && illegalAt .comb (wd 0x51 4 []) = true := by decide +kernel

/-! Completion, fences, sends. -/

/-- An instruction in flight on spire 0. -/
def fl (seq wait : Nat) : InFl :=
  { seq := seq, lidx := 0, pc := 0, word := 0x0000000000000000000000000000072 + 4 * 2 ^ 122, units := [], rd := [], wr := [], wait := wait
    lat := [9, 0] }
/-- Spire 0 with instructions in flight. -/
def fS (l : List InFl) : State := tS [] { lidx := 0 } jb { infl := l, seq := 5 }
theorem wit_instruction_complete : (inflOf (spOf (fS [fl 2 0]) 0) 2).any fun f => workDone (fS [fl 2 0]) 0 f := by decide +kernel
theorem wit_instruction_complete_last : (inflOf (spOf (fS [{ fl 2 3 with mg := 1, mgs := 1 }]) 0) 2).any fun f =>
    workDone (fS [{ fl 2 3 with mg := 1, mgs := 1 }]) 0 f := by decide +kernel
theorem wit_fence : Meets .fence (tS [wd 0x72 7 [(122, 4)]]) (wd 0x72 7 [(122, 4)]) fun _ => true := meets_of (by decide +kernel)
/-- A fence of the dome kind with a younger instruction and a younger write. -/
def nS : State := { fS [fl 3 1, fl 4 0] with writes := [⟨10, 0, 0, 4, false, false, 0x400000, 0x004000000000, [1]⟩] }
theorem wit_fence_complete : (inflOf (spOf nS 0) 3).any (fun f => f.wait = 1 && fenceDone nS 0 0 f) = true
    ∧ (spOf nS 0).job = some 0 := by decide +kernel
theorem wit_fence_covers : ∃ t, exec (.fenceComplete 0 3) nS = .next t := ⟨_, rfl⟩
/-- An older write of a kind that the fence names holds it. -/
theorem test_fence_waits : (match exec (.fenceComplete 0 3) { nS with writes := [⟨9, 0, 0, 2, false, false, 0x400000, 0x004000000000, [1]⟩] }
    with | .refused .notEnabled => true | _ => false) = true := by decide +kernel
theorem wit_xsend_complete : (inflOf (spOf (fS [fl 2 2]) 0) 2).any (fun f => f.wait = 2) = true
    ∧ ∀ pi, pi < 4 → ∀ g ∈ (portOf (fS [fl 2 2]) pi).txq, g.id ≠ 9 := by decide +kernel
/-- A piece stream whose one piece is READY: bit 0 of the word at 200000h. -/
def pS : State :=
  { fS [{ fl 2 3 with mg := 0, mgs := 1, lat := [1, 1, 32, 0x200000 + 7 * 2 ^ 54, 0, 32] }] with mem := { cells := [(3 * 2 ^ 21, 1)] } }
theorem wit_pstr : (pstrOf (spOf pS 0) 2).any (fun f => pstrReady pS jb (nth f.lat 3) f.mg && !pstrHeld pS 0 jb f) = true ∧ (spOf pS 0).job = some 0
    ∧ (curCtx (spOf pS 0)).isSome = true ∧ jobOf pS 0 = some jb := by decide +kernel
/-- XRECV of slots 1 and 2 of group 1. -/
def wRecv (wait : Nat) : IWord := wd 0x61 6 [(124, 1), (119, 0), (114, 1), (113, wait), (108, 9)]
/-- A state that receives. -/
def rS (wait : Nat) : State := tS [wRecv wait] { lidx := 0, sregs := [(0, 1), (1, 3)] } jM
theorem wit_xrecv_arm : Meets .xrecv (rS 0) (wRecv 0) fun i => bitOf (wRecv 0).toNat 113 = false
    && (ctlBad (rS 0) i.y [] (recvAcc i (wRecv 0).toNat)).isNone
    && recvGrp i (wRecv 0).toNat = some (grp, 1, 3) := meets_of (by decide +kernel)
theorem wit_xrecv_wait : Meets .xrecv (rS 1) (wRecv 1) fun i => bitOf (wRecv 1).toNat 113 && recvGrp i (wRecv 1).toNat = some (grp, 1, 3)
    && i.y.paused = [] && (ctlBad (rS 1) i.y (recvAcc i (wRecv 1).toNat) []).isNone := meets_of (by decide +kernel)

/-! Semaphores and writes at their homes. -/

/-- SIG of semaphore S0 with 5; WAITS for 5, with DEC. -/
def wSig : IWord := wd 0x70 7 [(122, 0), (90, 5)]
def wWaits : IWord := wd 0x71 7 [(122, 0), (90, 5), (83, 1)]
theorem wit_sig : Meets .sig (tS [wSig] { lidx := 0, sregs := [(0, 3)] }) wSig fun i =>
    (semRef (tS [wSig] { lidx := 0, sregs := [(0, 3)] }) 0 i.y i.c.lidx (fld wSig.toNat 127 127) (sF i.c wSig.toNat 126 122)).isSome :=
  meets_of (by decide +kernel)
theorem wit_waits : Meets .waits (tS [wWaits] { lidx := 0, sregs := [(0, 3)] }) wWaits fun i =>
    (semRef (tS [wWaits] { lidx := 0, sregs := [(0, 3)] }) 0 i.y i.c.lidx (fld wWaits.toNat 127 127) (sF i.c wWaits.toNat 126 122)).isSome :=
  meets_of (by decide +kernel)
/-- A SIG of 2 on its way to semaphore 11 of cupola 0, which holds 2^32 − 1. -/
def gSig : Sig := ⟨4, 0, 0, 0, 2, 0, 0, 11, 2⟩
def hS : State := { fS [fl 2 4] with sigs := [gSig], csem := [(11, 2 ^ 32 - 1)] }
theorem wit_home_cycle : fwUp hS = true ∧ [4].all (sigReady hS 0 0) = true ∧ ∀ a ∈ waitsAt hS 0 0, a.w.dec = true → a.w.id ∈ [] := by
  decide +kernel
theorem wit_sig_adds : fwUp hS = true ∧ hS.sigs.filter (fun h => h.id = gSig.id) = [gSig] ∧ sigReady hS 0 0 gSig.id = true
    ∧ waitsAt hS 0 0 = [] := by decide +kernel
theorem test_sig_wraps : (match exec (.semaphoreHomeCycle 0 0 [4] ⟨[], []⟩) hS with | .next t => semVal t 0 0 11 = 1 | _ => false) = true := by
  decide +kernel
/-- A ring whose control block starts the job's dome page. -/
def ringD : PlanRing := { ctl := 0x400000, base := 0x600000, patVa := 0, ringPages := 1, pfxRows := 0, pat := 0 }
/-- A SIG of 3 on its way to the dome semaphore at the start of the job's dome page, which is the ADV word of its ring. -/
def gDome : Sig := ⟨4, 0, 0, 0, 2, 1, 0, 0x004000000000, 3⟩
def hD : State := { fS [fl 2 4] with sigs := [gDome], jobs := [(0, { jb with plan := { pl with rings := [ringD] } })] }
theorem wit_sig_dome : fwUp hD = true ∧ hD.sigs.filter (fun h => h.id = gDome.id) = [gDome] ∧ sigReady hD 1 0 gDome.id = true
    ∧ waitsAt hD 1 0 = [] ∧ gDome.key % 4 = 0 ∧ paKind gDome.key = .dome
    ∧ (jobOf hD 0).any (fun x => (xlate hD x ringD.ctl).map (·.2) = some gDome.key) = true := by decide +kernel
/-- 06 R166: the ring takes three requests. -/
theorem test_sig_dome : (match exec (.semaphoreHomeCycle 1 0 [4] ⟨[], []⟩) hD with
    | .next t => semVal t 1 0 0x004000000000 = 3 && (jobOf t 0).any fun x => (ringOf x 0).adv = 3 | _ => false) = true := by decide +kernel
/-- A write of two bytes to vault memory. -/
def wr0 : PWr := ⟨6, 0, 0, 2, false, false, 0x200000, 0x600000, [7, 8]⟩
def wS : State := { s0 with writes := [wr0] }
theorem wit_home_write : wS.writes.find? (fun v => v.id == 6) = some wr0 ∧ fwUp wS = true ∧ wr0.qsw = false
    ∧ paKind wr0.pa = .vault ∧ marginHolds wS wr0.pa (wrLen wr0) = false
    ∧ [AccEv.vaultUe 0x600000, .vaultCe 0 0 0].all (evMerges wS wr0) = true := by decide +kernel
/-- R236: a write of a whole 64-byte codeword reads nothing, so that it meets no uncorrectable error. -/
theorem test_whole_codeword : evMerges wS { wr0 with data := List.replicate 64 0 } (.vaultUe 0x600000) = false := by decide +kernel

/-! Spires. -/

/-- Spire 0 in a state, with contexts. -/
def xSp (x : Spire) : State := { s0 with jobs := [(0, { jb with steal := true })], spires := [(0, { x with job := some 0 })] }
theorem wit_spire_hang : hung (spOf (xSp { hangShift := 3, cycles := 9, infl := [fl 1 0] }) 0) = true := by decide +kernel
theorem wit_change : changeDue (spOf (xSp { st := .running, run := some { lidx := 0, halted := true }, other := some { lidx := 1 } }) 0)
    = true := by decide +kernel
theorem wit_quantum : runnable (spOf (xSp { st := .running, run := some { lidx := 0, runCyc := 1048576 }, other := some { lidx := 1 } }) 0).other
    = true := by decide +kernel
/-- Spire 7 is idle beside spire 0, whose loop has two iterations that have not started. -/
def stS : State :=
  { xSp { st := .running, run := some { lidx := 0, loops := [frm 0] } } with
    spires := [(0, { st := .running, job := some 0, run := some { lidx := 0, loops := [frm 0] } }), (7, { st := .halted, job := some 0 })] }
theorem wit_steal : (stealFrom (spOf stS 0)).isSome = true ∧ mayStealNow (spOf stS 7) = true ∧ (spOf stS 0).saveReq = false
    ∧ (jobOf stS 0).any (·.steal) = true ∧ (spOf stS 7).job = some 0 := by decide +kernel
theorem wit_steal_next : ∃ t, exec (.stealIteration 7 0) stS = .next t := ⟨_, rfl⟩
theorem wit_save : saveReady (spOf (xSp { st := .saving, saveReq := true, run := some { lidx := 0 } }) 0) = true := by decide +kernel
theorem wit_spire_registers : fwUp (xSp {}) = true ∧ spEnabled (xSp {}) 254 = true ∧ (spOf (xSp { st := .idle }) 0).st = .idle
    ∧ (spOf (xSp { st := .loading, run := some { lidx := 0 } }) 0).run ≠ none := by decide +kernel
/-- A logical spire that can run, a spire in each state that the clauses of the control registers name. -/
def cR : LCtx := { lidx := 0 }
theorem wit_run : let x := spOf (xSp { st := .loading, run := some cR }) 0
    x.st = .loading ∧ x.run = some cR ∧ cR.halting = false ∧ cR.halted = false ∧ ctxBlocked cR = false ∧ x.saveReq = false := by decide +kernel
theorem wit_run_ignored : (spOf (xSp { st := .idle }) 0).run = none ∧ (spOf (xSp { st := .halted, run := some cR }) 0).st ≠ .idle
    ∧ (spOf (xSp { st := .halted, run := some cR }) 0).st ≠ .loading := by decide +kernel
theorem wit_save_request : let x := spOf (xSp { st := .blocked, run := some cR }) 0
    x.st = .blocked ∧ x.changing = false ∧ x.stolen = none := by decide +kernel
theorem wit_save_ignored : (spOf (xSp { st := .idle }) 0).st ≠ .running ∧ (spOf (xSp { st := .idle }) 0).st ≠ .blocked := by decide +kernel
theorem wit_compat_held : let x := spOf (xSp { st := .idle }) 0
    x.st ≠ .running ∧ x.st ≠ .blocked ∧ x.st ≠ .saving := by decide +kernel
theorem wit_compat_discarded : (spOf (xSp { st := .saving }) 0).st = .saving := by decide +kernel
theorem wit_clear_ignored : let x := spOf (xSp { st := .blocked }) 0
    x.st ≠ .idle ∧ x.st ≠ .halted ∧ x.st ≠ .faulted := by decide +kernel
theorem test_clear_ignored : (match exec (.clear 0) (xSp { st := .running }) with | .next t => (spOf t 0).st = .running | _ => false) = true := by
  decide +kernel
/-! Rings and prefixes. -/

/-- A ring of one page whose control block stands at the start of the dome page: ADV 1, REL 1, HEAD 1 of a one-chunk pattern. -/
def ringR : PlanRing :=
  { ctl := 0x400000, base := 0x600000, patVa := 0, ringPages := 1, pfxRows := 0
    pat := 1 * 2 ^ 160 + 16 * 2 ^ 144 + 8 * 2 ^ 128 + 128 * 2 ^ 112 + 1 * 2 ^ 90 + 8 * 2 ^ 66 + 16 * 2 ^ 58 + 8 * 2 ^ 51 + 8 * 2 ^ 44 + 1 * 2 ^ 37 }
/-- A request. -/
def rq0 : Req := { ref := ⟨0, 1, 65536⟩, shapes := [], pass := 0, chain := false, abs := 0, at_ := 0, c := 0, bound := 0, fs := 2100, num := 0 }
/-- The job of the ring, saved nowhere, running, with an increase of ADV and one of REL not served. -/
def ringJ : Job := { jb with plan := { pl with rings := [ringR] }, rings := [(0, { adv := 1, rel := 1 })]
                             running := some { req := rq0, first := true, since := 0, ordBase := 0 } }
/-- Its state: the control block holds ADV, REL and HEAD. -/
def ringS (head : Nat) : State :=
  let pa := ((tfind jb.pt 2).map fun e => e.pfn * 2 ^ 21).getD 0
  { s0 with jobs := [(0, ringJ)]
            mem := (({} : Store).put pa [1]).put (pa + 12) [1, 0, 0, 0, head] }
theorem wit_ring_tiers : (ringAt (ringS 0) 0 0).any (fun q => (accTier (ringS 0) q.1 [1] (ctlAcc q.2) (ctlAcc q.2)).isNone
    && !((listAcc (ringPat q.2) (ringOf q.1 0).lists).1 ++ (listAcc (ringPat q.2) (ringOf q.1 0).lists).2).any fun a => marginVa (ringS 0) q.1 a.1 a.2) = true := by
  decide +kernel
theorem wit_ring : (ringAt (ringS 0) 0 0).any (fun q => !(ringOf q.1 0).held && decide (0 < (ringOf q.1 0).adv) && ringPages q.1 0 q.2) = true
    ∧ (ringAt (ringS 1) 0 0).any (fun q => decide (0 < (ringOf q.1 0).rel) && listsDue (ringS 1) q.1 0 q.2) = true := by decide +kernel
/-- R157: a pattern with no frames is illegal, the ring's is not. -/
theorem test_pattern : patIllegal (patDec 0) = true ∧ patIllegal (patDec ringR.pat) = false := by decide +kernel
/-- A job whose sequences share page 2, with one copy page. -/
def pfxJ : Job := { ringJ with pt := [(1, { tier := 0, pfn := 3, shr := true }), (2, { tier := 1, pfn := 0x20000 })], plan := { pl with prefixes := [{ entry := 0x400000, vpns := [1] }] }, copies := [{ tier := 0, pfn := 9 }] }
theorem wit_prefix : (pfxOf pfxJ 1).isSome = true ∧ (tfind pfxJ.pt 1).isSome = true ∧ pfxJ.running.isSome = true ∧ pfxJ.saved = false
    ∧ (∃ e n, tfind pfxJ.pt 1 = some e ∧ n ∈ pfxJ.copies ∧ sameTier e n = true)
    ∧ pfxCopies (ringS 0) { pfxJ with copies := [] } { entry := 0x400000, vpns := [1] } = false :=
  ⟨by decide +kernel, by decide +kernel, by decide +kernel, by decide +kernel, ⟨_, _, rfl, List.mem_singleton.2 rfl, by decide +kernel⟩,
   by decide +kernel⟩

theorem wit_prefix_tier : (accTier (ringS 0) pfxJ [1] [(0x400000, 16)] [(0x400000, 16)]).isNone = true ∧ (ringS 0).glb.margin = none := by decide +kernel

/-! Host queues and commands. -/

/-- A queue pair of 64 entries each with commands outstanding. -/
def qp0 : QPair := { sqBase := 0x1000, cqBase := 0x2000, sqLog := 6, cqLog := 6, opened := [65536] }
/-- The PF with an admin and an I/O queue pair; function 1 enabled with an allotment. -/
def hq : State :=
  { s0 with fns := [(0, { fnReset 0 with en := true, rdy := true, qps := [(0, qp0), (1, qp0)] }), (1, { fnReset 1 with enabled := true, allot := 2 })]
            jobs := [(0, jb)] }
/-- An entry in the lantern's mailbox, with its command outstanding. -/
def hs (s : State) (q : Nat) (e : Entry) (recd : List Nat := []) : State :=
  { s with fetched := [{ fn := 0, qp := q, tok := 1, e := e, recd := recd }] }

/-- Some mailbox entry meets a host command's premises. -/
def Took (opc : Nat) (s : State) (q : Nat) (e : Entry) : Prop := ∃ x, Takes opc s 0 q e x
/-- The premises of `Takes`, evaluated. -/
def took (opc : Nat) (s : State) (q : Nat) (e : Entry) : Bool :=
  match fetchedOf s 0 q e with
  | some x => fld e.toNat 7 0 = opc && fwUp s && inOrder s x && !s.power.shutdown && fld e.toNat 47 32 = 0
  | none => false
theorem took_of {opc : Nat} {s : State} {q : Nat} {e : Entry} (h : took opc s q e = true) : Took opc s q e := by
  unfold took at h
  split at h
  · rename_i x hx
    simp only [Bool.and_eq_true, decide_eq_true_eq, Bool.not_eq_true'] at h
    exact ⟨x, h.1.1.1.1, h.1.1.1.2, hx, h.1.1.2, h.1.2, h.2⟩
  · cases h

theorem wit_completion : tfind (fnOf hq 0).qps 1 = some qp0 ∧ 65536 ∈ qp0.opened ∧ qp0.waitq = [] ∧ cqRoom qp0 = true
    ∧ ({ qp0 with ien := false } : QPair).ien = false ∧ cqRoom { qp0 with cqTail := 63 } = false := by decide +kernel
theorem test_completion_wraps : (match completeX { hq with fns := [(0, { fnReset 0 with qps := [(0, { qp0 with cqTail := 63, cqHead := 5, ien := false })] })] }
    ⟨0, 0, 65536⟩ 0 0 0 0 0 with
    | t => (tfind (fnOf t 0).qps 0).any fun q => q.cqTail = 0 && q.phase = 0 && hostByte t (0x2000 + 63 * 32 + 31) / 128 = 1) = true := by
  decide +kernel
theorem wit_doorbells : hostUp hq = true ∧ (fnOf hq 0).enabled = true ∧ (fnOf hq 0).d3hot = false ∧ tfind (fnOf hq 0).qps 1 = some qp0
    ∧ qp0.err = false ∧ 63 < 2 ^ qp0.sqLog ∧ 2 ^ qp0.sqLog ≤ 64 ∧ qp0.waitq = [] := by decide +kernel
/-- A full ring of 64 whose one waiting entry a head of 5, below the tail of 9, lets go; a head beyond the tail. -/
def qpW : QPair := { qp0 with cqTail := 9, cqHead := 10, waitq := [7], ien := false }
theorem wit_cq_head : let n := 2 ^ qpW.cqLog
    (5 < n ∧ (5 + n - qpW.cqHead) % n ≤ (qpW.cqTail + n - qpW.cqHead) % n) ∧ 5 ≠ qpW.cqTail ∧ (qpW.cqTail + 1) % n ≠ 5 ∧ qpW.waitq = [7]
    ∧ ¬ (63 < 2 ^ qp0.cqLog ∧ (63 + 2 ^ qp0.cqLog - qp0.cqHead) % 2 ^ qp0.cqLog ≤ (qp0.cqTail + 2 ^ qp0.cqLog - qp0.cqHead) % 2 ^ qp0.cqLog)
    ∧ ({ qp0 with cqTail := 9, coalUs := 1 } : QPair).coalUs ≠ 0 ∧ ({ qp0 with cqTail := 9, ien := true, coalUs := 0 } : QPair).waitq = [] := by decide +kernel
/-- R364: the entry that waited is written at the tail. -/
theorem test_cq_head : (match exec (.cqHeadDoorbell 0 1 4 4 5) { hq with fns := [(0, { fnReset 0 with qps := [(1, qpW)] })] } with
    | .next t => hostByte t (0x2000 + 32 * 9) = 7 && (tfind (fnOf t 0).qps 1).any fun q => q.cqTail = 10 && q.waitq.isEmpty | _ => false) = true := by
  decide +kernel
/-- A queue pair with an entry to read: QUERY at its head. -/
def qpF : QPair := { qp0 with sqTail := 1, opened := [], waiting := true, coalUs := 3 }
theorem wit_fetch : tfind (fnOf { hq with fns := [(0, { fnReset 0 with qps := [(1, qpF)] })] } 0).qps 1 = some qpF ∧ qpF.sqHead ≠ qpF.sqTail
    ∧ qpF.opened.length + qpF.waitq.length < 2 ^ qpF.cqLog - 1 ∧ qpF.ien = true ∧ qpF.waiting = true ∧ qpF.since + qpF.coalUs ≤ 3
    ∧ fetchNext { hq with fns := [(0, { fnReset 0 with qps := [(1, qpF)] })] } = some 0 ∧ 4096 * 1 < bar2Size 0 ∧ 4096 * 63 < bar2Size 16 := by
  decide +kernel
/-- 11 R265: from the pointer's reset value the mailbox serves function 1 first, then function 0, whose request is parked. -/
theorem test_fetch_turn : (let s := { hq with fns := [(0, { fnReset 0 with qps := [(1, qpF)] }), (1, { fnReset 1 with qps := [(0, qpF)] })] }
    fetchNext s = some 1 ∧ fetchNext (fetchTurn s) = some 0) := by decide +kernel
theorem wit_admin_enable : hostUp hq = true ∧ (fnOf hq 1).enabled = true ∧ (fnOf hq 1).en = false := by decide +kernel
/-- QP_CREATE of queue pair 2 with 65,536 entries each. -/
def eCreate : Entry := en 1 [(374, 2), (369, 16), (364, 16), (448, 0x10000), (384, 0x20000)]
theorem wit_qp_create : Took 0x01 (hs hq 0 eCreate) 0 eCreate := took_of (by decide +kernel)
theorem wit_qp_create_fields : fld eCreate.toNat 336 64 = 0 ∧ fld eCreate.toNat 383 374 < allotOf (hs hq 0 eCreate) 0
    ∧ tfind (fnOf (hs hq 0 eCreate) 0).qps 2 = none ∧ fld eCreate.toNat 373 369 = 16 ∧ fld eCreate.toNat 511 448 % 4096 = 0 := by decide +kernel
def eDelete : Entry := en 2 [(374, 1)]
theorem wit_qp_delete : Took 0x02 (hs hq 0 eDelete) 0 eDelete ∧ tfind (fnOf (hs hq 0 eDelete) 0).qps 1 = some qp0 :=
  ⟨took_of (by decide +kernel), by decide +kernel⟩
def eAllot : Entry := en 3 [(368, 1), (352, 64)]
theorem wit_qp_allot : Took 0x03 (hs hq 0 eAllot) 0 eAllot ∧ (fnOf (hs hq 0 eAllot) 1).enabled = true ∧ allotNeed (hs hq 0 eAllot) 1 ≤ 64
    ∧ 64 + allotNeed (hs hq 0 eAllot) 0 ≤ 1024 := ⟨took_of (by decide +kernel), by decide +kernel⟩

/-- An image of the PF under handle 1, a job that uses it not. -/
def im : Image := { fn := 0, len := 16, digest := [], signer := [], plan := pl }
def eUnload : Entry := en 6 [(416, 1)]
theorem wit_program_unload : Took 0x06 (hs { hq with images := [(1, im)] } 0 eUnload) 0 eUnload ∧ im.fn = 0 ∧ (∀ k ∈ [(0, jb)], k.2.img ≠ 1) :=
  ⟨took_of (by decide +kernel), by decide +kernel⟩
/-- PROGRAM_LOAD of 16 bytes without a seal. -/
def eLoad : Entry := en 5 [(448, 0x8000), (416, 16)]
theorem wit_program_load : Took 0x05 (hs hq 0 eLoad) 0 eLoad ∧ sealPass (hostRead (hs hq 0 eLoad) 0x8000 16) = true :=
  ⟨took_of (by decide +kernel), by decide +kernel⟩

/-- JOB_ADMIT of image 1 by a parameter block of one device at 10000h. -/
def eAdmit : Entry := en 8 [(448, 0x10000), (416, 1)]
def aDev : State := hs { hq with images := [(1, im)], jobs := [], hmem := [(0x10008, 1)] } 0 eAdmit
/-- The job of that block. -/
def aJob : Job := blockJob 0 1 pl (blockRead aDev 0x10000)
theorem wit_job_admit : Took 0x08 aDev 0 eAdmit ∧ blockOk (blockRead aDev 0x10000) = true ∧ noMargin aDev = true
    ∧ admitHeld aDev eAdmit.toNat = false := ⟨took_of (by decide +kernel), by decide +kernel⟩
theorem wit_job_admit_checks : admitChecks { aDev with fetched := [] } aJob = none
    ∧ (match admitReserve { aDev with fetched := [] } aJob with
       | (s1, _, some (y, g)) =>
         let h := nextHandle 16 s1.jobSeq (s1.jobs.map (·.2.handle))
         (admitModels (y.plan.rings.foldl (fun s q => ringWords s (freeSlot s1) q)
           (admitPlace { s1 with jobSeq := h + 1 } (freeSlot s1) { y with handle := h, admCmd := some ⟨0, 0, 65536⟩ } g)) y).2.2
       | _ => false) = true := by decide +kernel
def eRelease : Entry := en 9 [(48, 1)]
theorem wit_job_release : Took 0x09 (hs hq 0 eRelease) 0 eRelease ∧ noMargin (hs hq 0 eRelease) = true
    ∧ slotOf (hs hq 0 eRelease) (fld eRelease.toNat 63 48) = some 0 := ⟨took_of (by decide +kernel), by decide +kernel⟩

/-- A resident model of handle 5. -/
def mo : Model := { fn := 0, st := .resident, size := 4096, frames := [] }
def mS (m : Model) : State := { hq with models := [(5, m)] }
def eModel (o : Nat) : Entry := en o [(352, 5)]
theorem wit_models : Took 0x0B (hs (mS mo) 0 (eModel 0x0B)) 0 (eModel 0x0B)
    ∧ Took 0x0C (hs (mS { mo with pins := 1, st := .pinned }) 0 (eModel 0x0C)) 0 (eModel 0x0C)
    ∧ Took 0x0D (hs (mS mo) 0 (eModel 0x0D)) 0 (eModel 0x0D) ∧ mo.st = .resident ∧ mo.pins = 0 ∧ mo.uses = 0
    ∧ fld (eModel 0x0B).toNat 383 352 = 5 :=
  ⟨took_of (by decide +kernel), took_of (by decide +kernel), took_of (by decide +kernel), by decide +kernel⟩
/-- MODEL_LOAD of 4,096 bytes from host memory. -/
def eMload : Entry := en 0x0A [(448, 0x9000), (384, 4096)]
theorem wit_model_load : Took 0x0A (hs hq 0 eMload) 0 eMload ∧ loadMargin hq 5 mo = false ∧ marginFrames hq [0] = false
    ∧ (loadStart { hs hq 0 eMload with fetched := [] } (modelHandle hq) 0 4096 1 0x9000 false 0 [⟨0, 0, 65536⟩]).2 = true :=
  ⟨took_of (by decide +kernel), by decide +kernel⟩

/-! Windows, transfers, queries, margining. -/

/-- WINDOW_MAP of 2 pages at 600000h for job 0. -/
def eMap : Entry := en 0x10 [(48, 1), (8, 3), (448, 0x100000), (400, 0x600000), (384, 2)]
theorem wit_window_map : Took 0x10 (hs hq 0 eMap) 0 eMap ∧ winFieldsBad 0x100000 0x600000 2 = false ∧ (∀ g ∈ jb.pt, ¬(3 ≤ g.1 ∧ g.1 < 5))
    ∧ fld eMap.toNat 447 400 = 0x600000 ∧ (bitOf eMap.toNat 10 = true → jb.kt ≠ []) ∧ ({ jb with kt := [1] } : Job).kt ≠ [] :=
  ⟨took_of (by decide +kernel), by decide +kernel⟩
/-- R389: a protected window of a tenant whose key is not delivered is refused. -/
theorem test_window_key : (match exec (.windowMap 0 0 (eMap ||| en 0 [(10, 1)])) (hs hq 0 (eMap ||| en 0 [(10, 1)])) with
    | .next t => t.wins.isEmpty && (jobOf t 0).any fun y => y.pt.length = jb.pt.length
    | _ => false) = true := by decide +kernel
theorem wit_window_count : (hq.wins.filter fun k => k.2.job = 0).length < min 256 jb.plan.windows := by decide +kernel
theorem wit_window_free : (freeKeys hq.wins 3840).head? = some 0 := by
  simp [freeKeys, show hq.wins = [] from rfl, tfind, List.head?_range]
def eUnmap : Entry := en 0x11 [(48, 1), (372, 0)]
theorem wit_window_unmap : Took 0x11 (hs { hq with wins := [(0, ⟨0, 0x100000, 2, 0x600000, true, true, false⟩)] } 0 eUnmap) 0 eUnmap :=
  took_of (by decide +kernel)
/-- DMA of 8 bytes out of page 1. -/
def eDma (out : Nat) : Entry := en 0x41 [(48, 1), (8, out), (448, 0x3000), (384, 0x200000), (320, 8)]
/-- A DMA out of page 1, which stands in far memory. -/
def farDma : State := { hq with jobs := [(0, { jb with pt := [(1, { tier := 2, pfn := 0x010000000000 / 2 ^ 21 })] })] }
theorem wit_dma_far : dmaMeets farDma (eDma 1).toNat (.farUe 0x010000000000) = true
    ∧ dmaMeets farDma (eDma 1).toNat (.farUe 0x010000100000) = false := by decide +kernel
theorem wit_dma_events : evOk (.farUe 0x010000000000) = true ∧ Instr.wf (.dma 0 1 (eDma 1) [.hostErr 0x0407 0]) = true := by decide +kernel
theorem wit_dma : Took 0x41 (hs hq 1 (eDma 1)) 1 (eDma 1) ∧ Took 0x41 (hs hq 1 (eDma 0)) 1 (eDma 0) ∧ dmaBad hq jb false 0x200000 8 = none
    ∧ dmaBad hq jb true 0x200000 8 = none ∧ dmaWaits hq (eDma 0).toNat = false ∧ dmaWaits hq (eDma 1).toNat = false := ⟨took_of (by decide +kernel), took_of (by decide +kernel), by decide +kernel⟩
def eQuery : Entry := en 0x18 [(416, 32), (448, 0x3000)]
theorem wit_query : Took 0x18 (hs hq 0 eQuery) 0 eQuery ∧ (qIdentity (hs hq 0 eQuery)).length = 32 := ⟨took_of (by decide +kernel), by decide +kernel⟩
theorem wit_async_event : Took 0x1C (hs hq 0 (en 0x1C [])) 0 (en 0x1C []) ∧ (fnOf hq 0).asyncWait = [] ∧ (fnOf hq 0).asyncOut.length < 4 :=
  ⟨took_of (by decide +kernel), by decide +kernel⟩
/-- MARGIN of a vault channel with the shortest dwell. -/
def eMargin : Entry := en 0x20 [(347, 20), (448, 0x3000)]
theorem wit_margin : Took 0x20 (hs hq 0 eMargin) 0 eMargin ∧ 20 ≤ fld (fld eMargin.toNat 447 320) 31 27 ∧ fld (fld eMargin.toNat 447 320) 95 32 = 0
    ∧ fld (fld eMargin.toNat 447 320) 11 0 = 0 ∧ ∀ k ∈ hq.jobs, k.2.running = none := ⟨took_of (by decide +kernel), by decide +kernel⟩
theorem wit_margin_complete : (List.replicate 74 ((1 : Nat), (255 : Nat), (0 : Nat))).length = marginLanes ⟨⟨0, 0, 65536⟩, 0, 0, 0, 0, false⟩
    ∧ ∀ e ∈ List.replicate 74 ((1 : Nat), (255 : Nat), (0 : Nat)), e.1 < 256 ∧ e.1 ≠ 128 ∧ e.2.1 < 256 ∧ e.2.1 ≠ 128 := by decide +kernel

/-! Recorder and store. -/

theorem wit_recorder : Took 0x28 (hs hq 0 (en 0x28 [])) 0 (en 0x28 []) ∧ Took 0x29 (hs hq 0 (en 0x29 [])) 0 (en 0x29 [])
    ∧ Took 0x2A (hs hq 0 (en 0x2A [(380, 1)])) 0 (en 0x2A [(380, 1)]) ∧ Took 0x2A (hs hq 0 (en 0x2A [])) 0 (en 0x2A []) :=
  ⟨took_of (by decide +kernel), took_of (by decide +kernel), took_of (by decide +kernel), took_of (by decide +kernel)⟩
theorem wit_calib : Took 0x21 (hs hq 0 (en 0x21 [(8, 1), (416, 64)])) 0 (en 0x21 [(8, 1), (416, 64)])
    ∧ Took 0x21 (hs hq 0 (en 0x21 [(416, 622912)])) 0 (en 0x21 [(416, 622912)])
    ∧ Took 0x22 (hs hq 0 (en 0x22 [(8, 1), (416, 64)])) 0 (en 0x22 [(8, 1), (416, 64)]) :=
  ⟨took_of (by decide +kernel), took_of (by decide +kernel), took_of (by decide +kernel)⟩
theorem wit_calib_state : hq.boot.perstN = true ∧ ({ hq.boot with perstN := false } : Boot).perstN = false
    ∧ bankAt { hq with bankA := none } 0 = none ∧ (bankAt { hq with bankA := some [1] } 0).isSome = true := by decide +kernel
/-- Bytes written to host memory are read back. -/
theorem hostRead_put (s : State) (a n : Nat) (bs : List Nat) (hn : bs.length = n) (h : ∀ b ∈ bs, b < 256) :
    hostRead { s with hmem := Memory.put (fun _ => some 0) [] a bs } a n = bs := by
  subst hn
  apply List.ext_getElem
  · simp [hostRead, rdBytes]
  · intro k h1 h2
    have := read_put_in (d := fun _ => some (0 : Byte)) (m := []) (a := a) h2
    simp only [Memory.read] at this
    have hb := h _ (List.getElem_mem h2)
    simp only [hostRead, rdBytes, List.getElem_map, List.getElem_range, hostByte]
    rw [show (cellAt (Memory.put (fun _ => some 0) [] a bs) (a + k)).getD 0 = BitVec.ofNat 8 (bs.getD k 0) by
      cases hc : cellAt (Memory.put (fun _ => some 0) [] a bs) (a + k) <;> rw [hc] at this <;> simpa using this]
    simp [List.getD_eq_getElem?_getD, h2]; omega
theorem crc32c_lt (bs : List Nat) (h : ∀ b ∈ bs, b < 256) : crc32c bs < 2 ^ 32 := by
  have stp : ∀ l : List Nat, ∀ c, c < 2 ^ 32 → l.foldl (fun c (_ : Nat) => if c % 2 = 1 then (c / 2) ^^^ 0x82F63B78 else c / 2) c < 2 ^ 32 := by
    intro l
    induction l with
    | nil => exact fun c h => h
    | cons x l ih =>
      intro c hc
      apply ih
      dsimp only
      split
      · exact Nat.xor_lt_two_pow (by omega) (by decide)
      · omega
  have fld : ∀ l : List Nat, (∀ b ∈ l, b < 256) → ∀ c, c < 2 ^ 32 →
      l.foldl (fun c b => (List.range 8).foldl (fun c (_ : Nat) => if c % 2 = 1 then (c / 2) ^^^ 0x82F63B78 else c / 2) (c ^^^ b)) c < 2 ^ 32 := by
    intro l
    induction l with
    | nil => exact fun _ c h => h
    | cons x l ih =>
      intro hl c hc
      apply ih fun b hb => hl b (List.mem_cons_of_mem _ hb)
      have := hl x List.mem_cons_self
      exact stp _ _ (Nat.xor_lt_two_pow hc (by omega))
  exact Nat.xor_lt_two_pow (fld bs h _ (by decide)) (by decide)
/-- The header of a calibration set, without its CRC. -/
def calHead : List Nat := [0x55, 0x42, 0x43, 0x53, 1, 0, 0, 0, 1, 0, 0, 0] ++ leBytes 4 622848 ++ List.replicate 44 0
/-- A whole calibration set of zeros. -/
def calFull : List Nat := calSeal (calHead ++ List.replicate 4 0 ++ List.replicate 622848 0) 1
theorem calFull_eq : calFull = calHead ++ leBytes 4 (crc32c (calHead ++ List.replicate 622848 0)) ++ List.replicate 622848 0 := by
  have gen : ∀ X, calSeal (calHead ++ List.replicate 4 0 ++ X) 1 = calHead ++ leBytes 4 (crc32c (calHead ++ X)) ++ X := fun X => rfl
  exact gen _
/-- Bytes before a run of zeros. -/
theorem calBody_lt (l : List Nat) (n : Nat) (h : ∀ b ∈ l, b < 256) : ∀ b ∈ l ++ List.replicate n 0, b < 256 := by
  intro b hb
  rcases List.mem_append.1 hb with hb | hb
  · exact h b hb
  · rw [List.eq_of_mem_replicate hb]; decide
theorem calFull_ok : calOk calFull = true := by
  rw [calFull_eq]
  have gen : ∀ X n, n < 2 ^ 32 → n = crc32c (calHead ++ X) → calOk (calHead ++ leBytes 4 n ++ X) = true := by
    intro X n hn h
    have e1 : ofLe (((calHead ++ leBytes 4 n ++ X).drop 0x3C).take 4) = n := by
      show n % 256 % 256 + 256 * (n / 256 % 256 % 256 + 256 * (n / 256 / 256 % 256 % 256 + 256 * (n / 256 / 256 / 256 % 256 % 256 + 256 * 0))) = n
      omega
    have e2 : (calHead ++ leBytes 4 n ++ X).take 0x3C ++ (calHead ++ leBytes 4 n ++ X).drop 0x40 = calHead ++ X := rfl
    have e3 : ((calHead ++ leBytes 4 n ++ X).take 4 == [0x55, 0x42, 0x43, 0x53]) = true := rfl
    have e4 : (ofLe (((calHead ++ leBytes 4 n ++ X).drop 4).take 4) == 1) = true := rfl
    have e5 : (ofLe (((calHead ++ leBytes 4 n ++ X).drop 0xC).take 4) == 622848) = true := by
      show (ofLe (leBytes 4 622848) == 622848) = true
      decide
    rw [calOk, e1, e2, e3, e4, e5, ← h]; simp
  refine gen _ _ (crc32c_lt _ ?_) rfl
  exact calBody_lt _ _ (by decide)
theorem calFull_len : calFull.length = 622912 := by
  have gen : ∀ n m : Nat, (calHead ++ leBytes 4 m ++ List.replicate n 0).length = 64 + n := fun n m => by
    rw [List.length_append, List.length_replicate]; rfl
  rw [calFull_eq, gen]
theorem leBytes_lt (n v : Nat) : ∀ b ∈ leBytes n v, b < 256 := by
  induction n generalizing v with
  | zero => intro b hb; cases hb
  | succ n ih =>
    intro b hb
    rcases List.mem_cons.1 hb with rfl | hb
    · omega
    · exact ih _ b hb
theorem calFull_bytes : ∀ b ∈ calFull, b < 256 := by
  rw [calFull_eq]
  have gen : ∀ n, ∀ b ∈ calHead ++ leBytes 4 n, b < 256 := fun n b hb =>
    (List.mem_append.1 hb).elim ((by decide : ∀ b ∈ calHead, b < 256) b) (leBytes_lt 4 n b)
  exact calBody_lt _ _ (gen _)
/-- CALIB_WRITE of a whole set from host address 3000h. -/
def eCal : Entry := en 0x22 [(416, 622912), (448, 0x3000)]
def calS : State := { hs hq 0 eCal with hmem := Memory.put (fun _ => some 0) [] 0x3000 calFull }
theorem wit_calib_write : Took 0x22 calS 0 eCal ∧ bitOf eCal.toNat 8 = false ∧ fld eCal.toNat 447 416 = 622912 ∧ fld eCal.toNat 511 448 = 0x3000
    ∧ calFail calS = none ∧ hq.calib.filter calOk = none :=
  ⟨took_of (by decide +kernel), by decide +kernel⟩
theorem wit_calib_set : calOk (hostRead calS 0x3000 622912) = true ∧ calFail calS = none ∧ (some calFull).filter calOk = some calFull := by
  have h : hostRead calS 0x3000 622912 = calFull := hostRead_put (hs hq 0 eCal) _ _ _ calFull_len calFull_bytes
  exact ⟨h.symm ▸ calFull_ok, wit_calib_write.2.2.2.2.1, Option.filter_eq_some_iff.2 ⟨rfl, calFull_ok⟩⟩
/-- A store bank of sequence number 1 with the default board and no repair, before its CRC. -/
def bankHead : List Nat := [0x55, 0x42, 0x50, 0x53] ++ leBytes 4 1 ++ leBytes 4 1 ++ leBytes 4 0 ++ leBytes 4 0 ++ List.replicate 12 0 ++ defaultBoard
def bank1 : Bank := { seq := 1, secs := 0, pcyc := 0, board := defaultBoard, repair := [] }
theorem leBytes_zero (n : Nat) : leBytes n 0 = List.replicate n 0 := by
  induction n with
  | zero => rfl
  | succ n ih => rw [leBytes, ih]; rfl
theorem bankHead_lt : ∀ b ∈ bankHead, b < 256 := by decide +kernel
theorem allZero (n : Nat) : (List.replicate n 0).all (· == 0) = true := by
  induction n with
  | zero => rfl
  | succ n ih => rw [List.replicate_succ, List.all_cons, ih]; rfl
theorem sealed_ok (A B : List Nat) (n : Nat) (ha : A.length = 9216) (hb : B.length = 7068) (h0 : B.all (· == 0) = true)
    (hn : crc32c (bankHead ++ (A ++ B)) = n) (hc : n < 2 ^ 32) : bankOk ((bankHead ++ (A ++ B)) ++ leBytes 4 n) = true := by
  have hl : (bankHead ++ (A ++ B)).length = 16380 := by rw [List.length_append, List.length_append, ha, hb]; rfl
  have e1 : ((bankHead ++ (A ++ B)) ++ leBytes 4 n).drop 0x3FFC = leBytes 4 n := List.drop_left' hl
  have e2 : ((bankHead ++ (A ++ B)) ++ leBytes 4 n).take 0x3FFC = bankHead ++ (A ++ B) := List.take_left' hl
  have e3 : recFld ((bankHead ++ (A ++ B)) ++ leBytes 4 n) 0x3FFC 4 = n := by
    rw [recFld, e1]
    show n % 256 % 256 + 256 * (n / 256 % 256 % 256 + 256 * (n / 256 / 256 % 256 % 256 + 256 * (n / 256 / 256 / 256 % 256 % 256 + 256 * 0))) = n
    omega
  have e4 : ∀ X, ((bankHead ++ X).take 4 == [0x55, 0x42, 0x50, 0x53]) = true ∧ (recFld (bankHead ++ X) 4 4 == 1) = true
      ∧ zeroAt (bankHead ++ X) 0x13 13 = true ∧ zeroAt (bankHead ++ X) 0x24 60 = true := fun X => ⟨rfl, rfl, rfl, rfl⟩
  have e5 : zeroAt ((bankHead ++ (A ++ B)) ++ leBytes 4 n) 0x2460 7068 = true := by
    have hd : ((bankHead ++ A) ++ (B ++ leBytes 4 n)).drop 0x2460 = B ++ leBytes 4 n :=
      List.drop_left' (by rw [List.length_append, ha]; rfl)
    have he : (bankHead ++ (A ++ B)) ++ leBytes 4 n = (bankHead ++ A) ++ (B ++ leBytes 4 n) := by simp only [List.append_assoc]
    rw [zeroAt, he, hd, List.take_left' hb]; exact h0
  have e6 : ((bankHead ++ (A ++ B)) ++ leBytes 4 n).length = 16384 := by rw [List.length_append, hl]; rfl
  obtain ⟨a, b, c, d⟩ := e4 ((A ++ B) ++ leBytes 4 n)
  rw [← List.append_assoc] at a b c d
  rw [bankOk, a, b, c, d, e3, e2, hn, e5, e6, beq_self_eq_true n]; rfl
theorem bank1_ok : bankOk (bankImage bank1) = true := by
  have h : bankBytes bank1 = bankHead ++ (List.replicate 9216 0 ++ List.replicate 7068 0) := by
    have h : bankBytes bank1 = bankHead ++ leBytes 9216 0 ++ List.replicate 7068 0 := rfl
    rw [h, leBytes_zero, List.append_assoc]
  rw [bankImage, h]
  exact sealed_ok _ _ _ List.length_replicate List.length_replicate (allZero 7068) rfl (crc32c_lt _ (by
    intro b hb
    rcases List.mem_append.1 hb with hb | hb
    · exact bankHead_lt b hb
    · rcases List.mem_append.1 hb with hb | hb <;> rw [List.eq_of_mem_replicate hb] <;> decide))
theorem chosen_of_bankA (s : State) (bs : List Nat) (ha : s.bankA = some bs) (hb : s.bankB = none) (h : bankOk bs = true) :
    (chosenBank s).isSome = true := by
  have hs : (bankOf (some bs)).isSome = true := by rw [bankOf]; simp only [h]; rfl
  cases hq : bankOf (some bs) with
  | none => rw [hq] at hs; cases hs
  | some b =>
    have hk : (bankChoice s.bankA s.bankB).1 = 0 := by rw [ha, hb, bankChoice, hq]; rfl
    have hx : bankAt s 0 = some bs := by rw [bankAt]; exact ha
    unfold chosenBank
    simp only [hk, hx, hq]; rfl
/-- A store whose bank A is valid (CALIB_READ of the board). -/
theorem wit_bank : (chosenBank { hq with bankA := some (bankImage bank1) }).isSome = true :=
  chosen_of_bankA _ _ rfl rfl bank1_ok
/-- Two records, of severity 0 and 2. -/
def recs : List Rec := [⟨0x0B17, 0, 0, 1, 0, 0, [0, 0, 0, 0]⟩, ⟨0x0C17, 2, 9, 2, 0, 0, [0, 0, 0, 0]⟩]
/-- They stand in the first slots of the flash ring. -/
def recF : List FRec := recs.mapIdx fun i r => { sec := 0, slot := i, r := r }
theorem wit_recorder_events : (let s : State := { hq with evr := { flash := recF.take 1, ram := recs.drop 1 } }
    s.evr.index < (evrLog s.evr).length ∧ ramOnly s.evr = false ∧ s.evr.flash.any (·.dead) = false ∧ s.evr.ram = recs.drop 1 ++ []
    ∧ ringSlot s.evr.flash = some (0, 1) ∧ tfind s.fuse.worn (ringAddr 0 1 / 65536) ≠ some 1 ∧ s.boot.perstN = true)
    ∧ ((recF.map fun x => { x with dead := true }).find? (·.dead)).isSome = true
    ∧ opSecs { hq with boot := { hq.boot with opBase := 3600 } } % 3600 = 0 := by decide +kernel
/-- R399: a removed record leaves its sector by a copy of the others to the spare sector. -/
theorem test_compaction : (match exec (.evrFlush .done) { hq with evr := { flash := recF.mapIdx fun i x => { x with dead := i = 0 } } } with
    | .next t => t.evr.flash.map (fun x => (x.r.code, x.slot)) | _ => []) = [(0x0C17, 0)] := by decide +kernel
theorem wit_clear : (let e : Evr := { flash := recF }; ((evrLog e).filter fun r => !bitOf 1 r.sev).length < evrCap e
    ∧ (e.ram.filter fun r => !bitOf 1 r.sev).length < 4096 ∧ hq.fuse.worn = [] ∧ ({ e with absent := true } : Evr).absent = true
    ∧ ∀ q ∈ evrLog e, recKey q ≤ 2 ^ 48) := by decide +kernel
/-- R402: severity 0 goes, severity 2 stays, and the marker is the newest. -/
theorem test_clear : (evrLog (evrClear { hq with evr := { flash := recF }, now := 9000000 } 1).evr).map (·.code) = [0x0C17, 0x0B12] := by decide +kernel

/-! Requests. -/

/-- SUBMIT to job 0. -/
def eSubmit : Entry := en 0x40 [(48, 1), (192, 5)]
theorem wit_submit : Took 0x40 (hs hq 1 eSubmit) 1 eSubmit ∧ slotOf hq (fld eSubmit.toNat 63 48) = some 0 ∧ jb.ready = true ∧ jb.lc = false
    ∧ jb.m ≤ 1 ∧ bitOf eSubmit.toNat 9 = false ∧ tfind jb.reqEnds jb.subs = none := ⟨took_of (by decide +kernel), by decide +kernel⟩
/-- A plan with one shape entry of bound 4. -/
def shJ : Job := { jb with plan := { pl with shapes := [{ bound := 4, used := true, sreg := 1 }] } }
theorem wit_shape : ([{ bound := 4, used := true, sreg := 1 }] : List Shape)[0]? = some { bound := 4, used := true, sreg := 1 }
    ∧ 4 < nth (shapeVals (hs { hq with jobs := [(0, shJ)] } 1 eSubmit) eSubmit.toNat) 0 := by decide +kernel
/-- R180: a value equal to its bound, or zero, is not over it. -/
theorem test_shape_bound : shapesOver shJ.plan [4] = false ∧ shapesOver shJ.plan [5] = true ∧ shapesOver shJ.plan [] = false := by decide +kernel
/-- The job's group with the request queued, its spire idle. -/
def rqS (y : Job) (x : Spire) : State :=
  { hq with jobs := [(0, y)], groups := [(0, { cups := [0], jobs := [0], holder := some 0 })], spires := [(0, x)] }
/-- Its group is not idle while a request of it runs. -/
theorem wit_submit_busy : groupIdle { rqS { jb with running := some { req := rq0, first := true, since := 0, ordBase := 0 } } {} with
    fetched := [] } 0 = false ∧ jb.plan.prefixes = [] := by decide +kernel
theorem wit_dispatch : (groupOf (rqS { jb with queue := [rq0] } { st := .idle }) 0).any (fun g =>
    canDispatch (rqS { jb with queue := [rq0] } { st := .idle }) 0 { jb with queue := [rq0] } g.2 rq0) = true
    ∧ jb.farLost = none ∧ modelsIn hq jb = true ∧ (ovfAll (rqS { jb with queue := [rq0] } { st := .idle }) 0 { jb with queue := [rq0] }).2 = none := by
  decide +kernel
/-- The job runs it, and its spire has halted. -/
def runJ : Job := { jb with running := some { req := rq0, first := true, since := 0, ordBase := 0 } }
theorem wit_request_completion : allHalted (rqS runJ { st := .halted, job := some 0 }) 0 runJ = true
    ∧ (groupOf (rqS runJ {}) 0).isSome = true ∧ runJ.saved = false ∧ writeBad (rqS runJ {}) 0 = none
    ∧ (writeBad { rqS runJ {} with writes := [⟨6, 0, 0, 2, false, true, 0x200000, 0x100000000000, [7]⟩] } 0).isSome = true := by decide +kernel

/-! Functions and the mailbox. -/

theorem wit_functions : hostUp hq = true ∧ (fnOf hq 0).enabled = true ∧ enabledVfs { hq with fns := [] } = [] ∧ 16 < 17 := by decide +kernel
/-- BAR4 maps page 1 of job 0. -/
def b4 : State := { hq with fns := [(0, { fnReset 0 with bar4 := 2 ^ 48 + 2 ^ 21 + 1 })] }
theorem wit_bar4 : (bar4Pte b4 0).any (fun t => t.2.2.1.wp = false) = true ∧ (bar4Pte b4 7).any (fun t => t.2.2.1.wp = false) = true
    ∧ bar4Held b4 0 8 = false ∧ bar4Fenced b4 0 8 = false ∧ 0 + 8 ≤ bar4Size b4 ∧ (jobOf b4 0).isSome = true := by decide +kernel
/-- An object of a DOE protocol: vendor, type, length in words, payload. -/
def obj (vendor type : Nat) (payload : List Nat) : List Byte :=
  (leBytes 2 vendor ++ [type, 0] ++ leBytes 4 ((8 + payload.length) / 4) ++ payload).map (BitVec.ofNat 8)
theorem wit_mailbox : (let n := (obj 1 0 [1, 0, 0, 0]).map BitVec.toNat; doeProto n = (1, 0) ∧ n.length = 12)
    ∧ doeKnown ((obj 2 0 []).map BitVec.toNat) = false
    ∧ isAtt ((obj 0x1F9C 1 ([1, 0, 0, 0] ++ List.replicate 12 0)).map BitVec.toNat) 1 = true
    ∧ isAtt ((obj 0x1F9C 1 ([2, 0, 0, 0] ++ List.replicate 44 0)).map BitVec.toNat) 2 = true
    ∧ isAtt ((obj 0x1F9C 1 ([3, 0, 0, 0, 1] ++ List.replicate 1579 0)).map BitVec.toNat) 3 = true
    ∧ (attJob hq 0 1).isSome = true ∧ jb.kt = [] := by decide +kernel

/-! Scheduling. -/

/-- Two BE jobs of one group: job 1 has a request, the group has no holder, or job 0 holds it without a request. -/
def schS (h : Option Nat) (y0 y1 : Job) : State :=
  { hq with jobs := [(0, y0), (1, y1)], groups := [(0, { cups := [0], jobs := [0, 1], holder := h })], now := 10000 }
theorem wit_switch : (let s := schS none jb { jb with queue := [rq0] }
    (tfind s.groups 0).any fun g => switchDue s g 1 { jb with queue := [rq0] } && !savesPending s g) = true
    ∧ (let s := schS (some 0) jb { jb with queue := [rq0] }
       (tfind s.groups 0).any fun g => switchDue s g 1 { jb with queue := [rq0] } && !savesPending s g) = true := by decide +kernel
/-- A saved job that holds its group again: its restore ends. -/
theorem wit_switch_in : (let y := { jb with saved := true, queue := [rq0] }
    let s := schS (some 1) jb y
    ((tfind s.groups 0).any fun g => switchDue s g 1 y && !savesPending s g) && modelsIn s y) = true := by decide +kernel
/-- A holder whose spire was saved and which keeps its group runs on. -/
theorem wit_switch_back : (let y := { runJ with spill := [(0, { lidx := 0 })] }
    let s := rqS y { st := .idle, job := some 0 }
    (tfind s.groups 0).any fun g => y.saved = false && switchDue s g 0 y && !savesPending s g) = true := by decide +kernel
theorem wit_quantum_expiry : (let s := schS (some 0) runJ jb
    (tfind s.groups 0).any fun g => g.holder = some 0 && g.took + g.quantum * 100 ≤ s.now) = true ∧ runJ.lc = false
    ∧ runJ.running.isSome = true ∧ runJ.saved = false := by decide +kernel
/-- A wait of XRECV past the watchdog; a FENCE FAB past it. -/
def wdW : PWait := ⟨1, true, 0, 0, 0, 0, false, false, 3, 0, 1, 0, 0, 2000000⟩
theorem wit_watchdog : recvLate (rqS runJ { job := some 0, run := some { lidx := 0, waits := [wdW] } }) 0 0 (runJ.collWdog * 10000) runJ = some 3
    ∧ recvLate (rqS runJ { job := some 0 }) 0 0 (runJ.collWdog * 10000) runJ = none
    ∧ fenceLate { rqS runJ { job := some 0, infl := [{ fl 1 1 with word := 2 ^ 127 }] } with now := 2000000 } 0 0 (runJ.collWdog * 10000) runJ = true := by
  decide +kernel
theorem wit_go_wait : (let x : Job := { jM with queue := [rq0] }; 1 < x.m ∧ rq0 ∈ x.queue ∧ tfind x.goGot rq0.num = none
    ∧ rq0.at_ + x.collWdog * 16000000 < cycNow { s0 with now := 2000001 }) := by decide +kernel

/-! Video. -/

/-- A decoder stream of H.264 at 16 × 16 with one buffer at 200000h, for job handle 1. -/
def vrec : List Nat := [1, 1, 0, 0, 8, 0, 1, 0, 16, 0, 16, 0, 1, 0, 0, 0, 0, 0, 0x20, 0, 0, 0, 0, 0] ++ List.replicate 40 0
/-- CODEC_OPEN of it, its record read with the entry. -/
def eOpen : Entry := en 0x48 [(48, 1), (448, 0x3000)]
def vS : State := hs hq 1 eOpen vrec
theorem wit_codec_open : Took 0x48 vS 1 eOpen ∧ (fetchedOf vS 0 1 eOpen).any (fun x => x.recd = vrec) = true
    ∧ fld eOpen.toNat 63 48 = recFld vrec 0xC 4 ∧ streamFields vrec = true ∧ poolIn jb vrec = true
    ∧ streamSupported vrec = true ∧ (freeKeys vS.video.streams 256).head? = some 0 := ⟨took_of (by decide +kernel), by decide +kernel⟩
/-- R351: a worked example of the spec, two references of a lane at 3840 by 2160. -/
theorem test_lane_window : laneBytes 3840 2160 2 = 334233600 := by decide +kernel
/-- Its stream, open. -/
def vst : Stream := { fn := 0, job := 0, recd := vrec }
/-- A state with the stream and a running or queued EXPORT. -/
def vf : VFrame := { fn := 0, qp := 1, cmd := 65536, num := 0, stream := 0, recd := [3] ++ List.replicate 79 0 }
def vQ (e : Engine) (q : List VFrame) : State :=
  { hq with video := { streams := [(0, vst)], engines := [(0, e)], queue := q }, gates := [(32, { en := true, st := 2 })], now := 1000000 }
theorem wit_codec_commands : (let e := en 0x49 [(48, 1), (352, 1)]; Took 0x49 (hs (vQ {} []) 1 e) 1 e ∧ streamOf (vQ {} []) (fld e.toNat 383 352) = some 0)
    ∧ (let e := en 0x4B [(48, 1), (352, 1)]; Took 0x4B (hs (vQ {} []) 1 e) 1 e ∧ fld e.toNat 351 346 < nth vst.recd 6)
    ∧ (let e := en 0x4A [(48, 1), (448, 0x3000)]; let d := [3, 0, 0, 0, 1] ++ List.replicate 75 0
       Took 0x4A (hs (vQ {} []) 1 e d) 1 e ∧ streamOf (vQ {} []) (recFld d 4 4) = some 0 ∧ frameOk vst d = true) :=
  ⟨⟨took_of (by decide +kernel), by decide +kernel⟩, ⟨took_of (by decide +kernel), by decide +kernel⟩, ⟨took_of (by decide +kernel), by decide +kernel⟩⟩
theorem wit_frames : frChoose (vQ {} [vf]) = some vf ∧ engReady (vQ {} [vf]) 0 = true
    ∧ (jobOf (vQ {} [vf]) vst.job).all (fun x => !waitBad (vQ {} [vf]) vf x) = true
    ∧ (tget {} (vQ { run := some vf, st := 4 } []).video.engines 0).run = some vf ∧ (vQ { run := some vf, st := 4 } []).power.videoOut = false
    ∧ engLoaded (vQ {} []) { run := some vf, st := 4 } = true ∧ frHeld (vQ {} []) vf = false := by
  decide +kernel
/-! The fabric. -/

/-- Ports with their links up; job 0 of two devices, fabric identity 7. -/
def fab : State :=
  { s0 with jobs := [(0, jM)], ports := (List.range 4).map fun i => (i, { st := .ready }) }
/-- A frame that group 1's slot 0 receives. -/
def frD : Frame := { fr 0 with vc := 1, group := 1, slot := 0, plen := 4 }
theorem wit_link : Accepted fab (fr 1) 1 0 :=
  ⟨by decide +kernel, by decide +kernel, by decide +kernel, by decide +kernel, by decide +kernel, by decide +kernel⟩
theorem wit_from_member : FromMember fab (fr 5) 1 0 jM :=
  ⟨⟨by decide +kernel, by decide +kernel, by decide +kernel, by decide +kernel, by decide +kernel, by decide +kernel⟩,
   by decide +kernel, by decide +kernel⟩
/-- Slot 0 of group 1 is ARMED: bit 0 of the ARM word, 8 bytes into the control region at 230000h of page 1. -/
def fabA : State := { fab with mem := ({} : Store).put (3 * 2 ^ 21 + 0x30000 + 8) [1] }
theorem wit_data : Accepted fabA frD 0 4 ∧ frJob (linked fabA frD 4) frD = some (0, jM) ∧ frSrc jM frD = some 1
    ∧ frSlot jM frD = some grp ∧ frD.last = true ∧ Lands fabA (linked fabA frD 4) frD 0 jM grp 1 4 :=
  ⟨⟨by decide +kernel, by decide +kernel, by decide +kernel, by decide +kernel, by decide +kernel, by decide +kernel⟩, by decide +kernel, by decide +kernel,
   by decide +kernel, by decide +kernel, by decide +kernel, by decide +kernel, by decide +kernel, by decide +kernel, by decide +kernel⟩
/-- A later frame of a piece of 8 bytes, which goes on landing in slot 0. -/
def frM : Frame := { frD with first := false, last := false, offset := 4, plen := 12 }
def fabL : State := { fabA with landings := [⟨0, 1, 0, 1, 4, 12⟩] }
theorem wit_data_middle : Accepted fabL frM 0 4 ∧ frJob (linked fabL frM 4) frM = some (0, jM) ∧ frM.last = false
    ∧ Lands fabL (linked fabL frM 4) frM 0 jM grp 1 4 :=
  ⟨⟨by decide +kernel, by decide +kernel, by decide +kernel, by decide +kernel, by decide +kernel, by decide +kernel⟩, by decide +kernel, by decide +kernel,
   by decide +kernel, by decide +kernel, by decide +kernel, by decide +kernel, by decide +kernel⟩
/-- A RED_RESULT of 4 bytes, the size of this device's part. -/
def frR : Frame := { frD with type := 9 }
def jR : Job := { jM with redParts := [(65536, (0, 4))] }
def fabR : State := { fabA with jobs := [(0, jR)] }
theorem wit_red_result : Accepted fabR frR 9 4 ∧ frJob (linked fabR frR 4) frR = some (0, jR) ∧ (∀ r, tfind jR.redParts (1 * 65536 + 0) = some r → r.2 = frR.plen)
    ∧ Lands fabR (arrCount (linked fabR frR 4) 0 jR grp frR) frR 0 jR grp jR.m 4 :=
  ⟨⟨by decide +kernel, by decide +kernel, by decide +kernel, by decide +kernel, by decide +kernel, by decide +kernel⟩, by decide +kernel,
   fun r h => by cases h; rfl, by decide +kernel, by decide +kernel, by decide +kernel, by decide +kernel, by decide +kernel⟩
theorem wit_roster_ready : (portOf (linked fab (fr 3) (rosterBytes [])) 0).st ≠ .mismatch := by decide +kernel
theorem wit_bad_fcs : frOk (portOf fab 0) { frD with fcs := false } 0 4 = true ∧ fwUp fab = true ∧ portUp (portOf fab 0) = true
    ∧ landHeld fab frD 4 = false ∧ (portOf fab 0).txq = [] ∧ (portOf { fab with ports := [(0, { st := .ready, nakSent := true })] } 0).nakSent = true := by decide +kernel
theorem test_bad_fcs : (match exec (.data { frD with fcs := false } ⟨[1, 2, 3, 4], []⟩) fabA with
    | .next t => (portOf t 0).fcsErr = 1 && (portOf t 0).lsnExp = 0 && t.mem = fabA.mem | _ => false) = true := by decide +kernel
theorem wit_training : (let s : State := { s0 with ports := [(3, { media := 0 })] }; canTrain s 3 = true ∧ (portOf s 3).media ≠ 3) ∧ trainWidth true 255 = 3 ∧ trainWidth false 0x0F = 1
    ∧ trainWidth false 0xF0 = 2 ∧ trainWidth true 0x0F = 0 := by decide +kernel
/-- A port with an acknowledgement due and a frame in its replay buffer. -/
def fabP : State := { fab with now := 5, ports := [(0, { st := .ready, ackDue := true, unacked := [{ port := 0, type := 1, vc := 0, dst := 0 }], ackAt := 4 })] }
theorem wit_port_timers : portUp (portOf fabP 0) = true ∧ (portOf fabP 0).ackDue = true ∧ (portOf fabP 0).owe = [0, 0, 0, 0]
    ∧ (portOf (linkSend fabP 0 false) 0).owe = [0, 0, 0, 0] ∧ (portOf fabP 0).unacked ≠ [] ∧ (portOf fabP 0).ackAt + 1 ≤ fabP.now := by
  decide +kernel
theorem wit_roster : Accepted fab (fr 3) 3 (rosterBytes []) ∧ Accepted fab (fr 3) 3 (rosterBytes [(0, 7), (1, 9)]) ∧ Accepted fab (fr 4) 4 0 ∧ Accepted fab (fr 7) 7 0 ∧ (frJob (linked fab (fr 7) 0) (fr 7)).isSome = true :=
  ⟨⟨by decide +kernel, by decide +kernel, by decide +kernel, by decide +kernel, by decide +kernel, by decide +kernel⟩,
   ⟨by decide +kernel, by decide +kernel, by decide +kernel, by decide +kernel, by decide +kernel, by decide +kernel⟩,
   ⟨by decide +kernel, by decide +kernel, by decide +kernel, by decide +kernel, by decide +kernel, by decide +kernel⟩,
   ⟨by decide +kernel, by decide +kernel, by decide +kernel, by decide +kernel, by decide +kernel, by decide +kernel⟩, by decide +kernel⟩
theorem wit_beats : 1 < jM.m ∧ jM.beatWin + 1000 ≤ 1000 ∧ 5 ≤ ({ jM with beatMiss := 5 } : Job).beatMiss := by decide +kernel
/-- Member 1 is the predecessor of device 0, and GO comes from member 0. -/
theorem wit_go : FromMember { fab with jobs := [(0, { jM with l := 1, fas := [0x0041, 0] })] } (fr 5) 0 0 { jM with l := 1, fas := [0x0041, 0] }
    ∧ 1 = (jM.l + jM.m - 1) % jM.m :=
  ⟨⟨⟨by decide +kernel, by decide +kernel, by decide +kernel, by decide +kernel, by decide +kernel, by decide +kernel⟩,
   by decide +kernel, by decide +kernel⟩, by decide +kernel⟩

/-! Vault, far memory, arbiters. -/

/-- Far memory of one channel in service, the running job of slot 0. -/
def farS : State := { rqS runJ {} with fchans := [(0, { st := 2 })], now := 1000000 }
theorem wit_far : paKind 0x010000000000 = .far ∧ fwUp farS = true ∧ (fchOf farS 0).st = 2 ∧ farChan farS 0x010000000000 = 0
    ∧ (jobOf farS 0).any (·.running.isSome) = true ∧ (fchOf farS 0).winAt + 1000000 ≤ farS.now
    ∧ (∀ u ∈ farS.pool, u.2.kind = 0 → 0x010000000000 / 2 ^ 21 ∉ u.2.pages)
    ∧ farS.boot.admitReady = true ∧ (fchOf farS (4 * 0)).st ≠ 0 := by decide +kernel
theorem wit_far_lost_idle : (jobOf { farS with jobs := [(0, jb)] } 0).any (·.running.isNone) = true := by decide +kernel
theorem wit_window : paKind 0x100000000000 = .window ∧ paKind 0x0FFFFFFFFFFF = .reserved ∧ paKind 0x004010000000 = .reserved := by
  decide +kernel
theorem wit_far_training : hostUp { s0 with boot := { s0.boot with admitReady := false } } = true ∧ ∀ c ∈ [63], c < 64 := by decide +kernel
theorem wit_vault : s0.boot.trained = true ∧ (vchOf s0 31 63).dis = false ∧ refreshDue s0 31 63 31 = true ∧ s0.boot.pwrgd = true ∧ clocksOn s0 = true
    ∧ writeTurnDue { s0 with now := 2, vchans := [(63, { wq := [0] })] } 0 63 = true
    ∧ vaultUp s0 31 = true ∧ (32 ≤ (List.replicate 32 7).length) ∧ marginChan s0 false 31 63 = false
    ∧ marginChan s0 false 31 (vaultPhys s0 31 0).1 = false := by decide +kernel
/-- R242: 85 °C is the last value of the normal band, and the 32nd sample in a row at or below it leaves the hot band. -/
theorem test_hot_band : (match exec (.vaultTempSample 0 0 680) { s0 with layers := [(0, { hot := true, cool := 31, temp := 681 })] } with
    | .next t => (layerOf t 0 0).hot = false | _ => false) = true
    ∧ (match exec (.vaultTempSample 0 0 681) s0 with | .next t => (layerOf t 0 0).hot = true | _ => false) = true := by decide +kernel
theorem wit_arbiters : arbPresent 2403 = true ∧ 23 < arbReqs 2403 ∧ ([.unit 22].map (arbIdx 2403)).all (arbReqOk 2403) = true ∧ [22].eraseDups = [22] ∧ arbIdx 2403 (.unit 23) = 23 ∧ clocksOn s0 = true
    ∧ (let x := arbOf { s0 with arbs := [(2403, { owner := some 23, parked := [(22, 1)] })] } 2403
       x.owner = some 23 ∧ x.mid = false ∧ 0 < tget 0 x.parked 22 ∧ x.cyc < 2 ^ x.winLog)
    ∧ arbThr { thr := 4 } < tget 0 [(23, 4)] 23 + 1 ∧ (arbOf s0 2403).cyc < 2 ^ (arbOf s0 2403).winLog := by decide +kernel
/-- A parked request of requester 23, an instance whose window of 2^20 cycles has ended, and signals for the lantern. -/
theorem wit_arbiter_parked : 0 < tget 0 (arbOf { s0 with arbs := [(2403, { parked := [(23, 1)] })] } 2403).parked 23
    ∧ (let x := arbOf { s0 with arbs := [(2403, { cyc := 2 ^ 20 })] } 2403; arbFull x = true ∧ x.next = none)
    ∧ (let x : Arb := { sigs := [23, 4] }; x.sigs = 23 :: [4] ∧ x.lastRec ≠ some (secWindow s0))
    ∧ ({ lastRec := some (secWindow s0) } : Arb).lastRec = some (secWindow s0) := by decide +kernel
/-- R265: with the pointer at 1, requesters 0 and 2 present: 2 is granted; after it 0. -/
theorem test_round_robin : arbNext 5 1 (fun r => r = 0 || r = 2) = some 2 ∧ arbNext 5 2 (fun r => r = 0 || r = 2) = some 0 := by decide +kernel
/-- A grant to a live request, and one to a parked request beside a new one of the same requester. -/
theorem wit_grant : arbPresent 224 = true ∧ [15, 3].all (arbReqOk 224) = true ∧ [.unit 15, .unit 3].map (arbIdx 224) = [15, 3] ∧ arbPresent 1 = true ∧ arbIdx 1 (.packet 4 .readData) = 13 ∧ arbReqOk 1 13 = true ∧ [15, 3].eraseDups = [15, 3] ∧ clocksOn s0 = true
    ∧ (arbOf s0 224).cyc < 2 ^ (arbOf s0 224).winLog ∧ arbHoldOk s0.netMode 224 (arbOf s0 224) [15, 3] .drops = true
    ∧ arbHoldOk 0 224 { parked := [(3, 1)] } [15, 3] .drops = true ∧ arbHoldOk 0 224 { owner := some 3 } [15] .goesOn = true := by
  decide +kernel

/-! Resets, power, management, registers. -/

theorem wit_resets : State.reset.boot.pwrgd = false ∧ s0.boot.pwrgd = true ∧ s0.boot.perstN = true ∧ s0.boot.stage ≠ .stopped
    ∧ failsOk ⟨[(2047, 74)], [.vaultCe 31 63 71]⟩ = true := by decide +kernel
theorem wit_perst : (let s : State := { s0 with boot := { s0.boot with perstN := false, stage := .recovery } }
    s.boot.pwrgd = true ∧ s.boot.perstN = false ∧ s.boot.stage = .recovery) := by decide +kernel
theorem wit_reset_state : ∃ x, tfind (resetState (dS wMma) true).spires 0 = some x := ⟨_, rfl⟩
theorem wit_power : gateMay s0 31 true = true ∧ (gateOf { s0 with gates := [(103, { st := 3 })] } 103).st = 3 ∧ (List.replicate 96 (0 : Int)).length = 96
    ∧ (List.replicate 10 1600).length = 10 ∧ (thermOf { s0 with therms := [(32, { pend := some 4 })] } 32).pend = some 4 := by decide +kernel
/-- A device at its limit of 1,600 W with ten updates held: above by one watt in ten, and below the limit less 50 W. -/
def pw (w : Nat) (lvl : Nat) (held : Nat := 9) : State :=
  { s0 with power := { ests := List.replicate 9 1600 ++ [w], devLevel := lvl, devHeld := held } }
theorem wit_device_level : (∃ t, exec .devLevelUpdate (pw 1601 0) = .next t) ∧ (pw 1601 0).power.plimit * 10 < sumN (pw 1601 0).power.ests
    ∧ (pw 1601 11).power.devLevel = 11 ∧ sumN (pw 0 3).power.ests < ((pw 0 3).power.plimit - 50) * 10 ∧ (pw 0 3 8).power.devHeld + 1 < 10
    ∧ ((pw 1600 3).power.plimit - 50) * 10 ≤ sumN (pw 1600 3).power.ests := ⟨⟨_, rfl⟩, by decide +kernel⟩
/-- R424: exactly the limit keeps the level; one watt more in the sum raises it. -/
theorem test_device_level : (match exec .devLevelUpdate (pw 1600 3), exec .devLevelUpdate (pw 1601 3) with
    | .next a, .next b => a.power.devLevel = 3 && b.power.devLevel = 4 | _, _ => false) = true
    ∧ (match exec .devLevelUpdate (pw 0 3 8), exec .devLevelUpdate (pw 0 3 9) with
    | .next a, .next b => a.power.devLevel = 3 && b.power.devLevel = 2 | _, _ => false) = true := by decide +kernel
theorem wit_trip : s0.boot.stage ≠ .stopped ∧ (920 : Int) ≤ 920 ∧ 127 < 128 ∧ s0.power.shutdown = false ∧ (fnOf s0 0).enabled = true
    ∧ 255 < islandCount 0 ∧ 0 < islandCount 6
    ∧ (let s : State := { s0 with power := { s0.power with shutdown := true } }; s.pending = [] ∧ shutdownDue s = true ∧ s.power.closing = none)
    ∧ (let s : State := { s0 with power := { s0.power with shutdown := true, closing := some 0 } }; shutdownDue s = true ∧ s.flashOps = [] ∧ ringBusy s = false)
    ∧ 0 + 2000000 ≤ 1999999 + 1 := by decide +kernel
theorem wit_management : mgmtUp s0 = true ∧ fwUp s0 = true ∧ s0.boot.perstN = true ∧ 0xFFFFFF + 1 ≤ 0x1000000 ∧ 0xFF0000 % 65536 = 0
    ∧ 0xFF0000 + 65536 ≤ 0x1000000 ∧ s0.evr.absent = false ∧ s0.flashOps = [] ∧ ({ s0 with flashOps := [⟨9, .record 0 0, []⟩] } : State).flashOps ≠ [] ∧ tfind s0.fuse.worn 255 ≠ some 0 ∧ tfind s0.fuse.worn 0 ≠ some 1
    ∧ fwUp { s0 with boot := { s0.boot with perstN := false } } = true ∧ mgmtUp { s0 with boot := { s0.boot with stage := .recovery } } = true := by decide +kernel
/-- R404: programming clears bits only. -/
theorem test_flash_program : (match exec (.flashProgram 16 [0x0F] true) { s0 with flash := [(16, 0xAA)] } with
    | .next t => flashByte t 16 = 0x0A | _ => false) = true := by decide +kernel
theorem wit_registers : hostUp hq = true ∧ (fnOf hq 16).enabled = false ∧ (fnOf hq 1).enabled = true ∧ accessOk 4 8 = false ∧ 4 < bar0Size 1
    ∧ (fnOf s0 0).en = false := by decide +kernel
theorem test_ranges : (match exec (.registerWrite 17 0x3000 8 0) s0, exec (.registerWrite 17 0x9000 8 16) s0 with
    | .next a, .next b => a.quantum = 1 && b.ueFence = 1 | _, _ => false) = true := by decide +kernel

/-! The machine. -/

theorem wit_front : ({ s0 with pending := [.clear 0] } : State).pending = .clear 0 :: [] := rfl
theorem wit_time_passes : s0.pending = [] ∧ (tfind (tS []).spires 0).any (fun x => x.st ≠ .off) = true ∧ fwUp State.reset = false ∧ fwUp s0 = true
    ∧ (∀ k ∈ s0.jobs, k.2.enders = []) ∧ shutdownDue s0 = false ∧ s0.boot.stage ≠ .fault ∧ (∀ o ∈ s0.flashOps, s0.now < o.till) := by
  decide +kernel
theorem wit_mem_inv : MemInv fabA := ⟨by decide, by decide, by decide, by decide, by decide, by decide⟩
theorem wit_reg_inv : RegInv fabA := ⟨by decide, by decide, by decide, by decide, by decide⟩
theorem wit_step : (match step { s0 with pending := [.registerWrite 17 0x6000 8 3] } with | .next t => t.netMode = 3 | _ => false) = true := by
  decide +kernel
theorem wit_ill_formed : (Instr.clear 256).wf = false := by decide
theorem wit_release : jobOf hq 0 = some jb ∧ 5 ∈ ({ jb with vpages := [5] } : Job).vpages := by decide +kernel
theorem wit_function_windows : jobOf hq 0 = some jb ∧ ({ jb with fn := 16 } : Job).fn = 16 := by decide +kernel
theorem wit_function_reset : (fnOf (fnReset1 hq 1) 1).qps = [] ∧ 1 ≤ 16 ∧ 16 < 17 := by decide +kernel

end Sys2Proof.Tests
end

section
/-! The W2 format (02 R31): how an element's code is read from its byte, the value of a code, and the zero block. -/
namespace Sys2Proof.Machine

/-- The code of W2 element `i` of a byte: bits [2i+1:2i]. -/
theorem fld_two_bits (b i : Nat) : fld b (2 * i + 1) (2 * i) = b >>> (2 * i) % 4 := by
  have hwidth : 2 * i + 1 + 1 - 2 * i = 2 := by omega
  simp [fld, hwidth]

/-- W2's four values are the odd integers 2c − 3, so none of them is zero. -/
theorem w2_table_getD {c : Nat} (hc : c < 4) : ([-3, -1, 1, 3] : List Int).getD c 0 = 2 * (c : Int) - 3 := by
  match c, hc with
  | 0, _ => rfl
  | 1, _ => rfl
  | 2, _ => rfl
  | 3, _ => rfl

@[simp] theorem fpIsZero_fpOfInt {v : Int} : fpIsZero (fpOfInt v) = true ↔ v = 0 := by
  simp [fpIsZero, fpOfInt]

/-- Element `c` of a W2 row: its two bits of byte c / 4, as an odd integer. -/
theorem elemVal_w2 {rd : Nat → Nat → Nat} {t : Td} {r c : Nat} (hfmt : t.fmt = 3) :
    elemVal rd t r c = fpOfInt (2 * ((rd t.space (rowAddr t r + c / 4) >>> (2 * (c % 4)) % 4 : Nat) : Int) - 3) := by
  simp [elemVal, hfmt]

/-- The packing of R31: element 4j + i takes its code from bits [2i+1:2i] of byte j of its row. -/
theorem elemVal_w2_packed {rd : Nat → Nat → Nat} {t : Td} {r j i : Nat} (hfmt : t.fmt = 3) (hi : i < 4) :
    elemVal rd t r (4 * j + i) = fpOfInt (2 * (fld (rd t.space (rowAddr t r + j)) (2 * i + 1) (2 * i) : Int) - 3) := by
  have hbyte : (4 * j + i) / 4 = j := by omega
  have hplace : (4 * j + i) % 4 = i := by omega
  rw [elemVal_w2 hfmt, hbyte, hplace, fld_two_bits]

theorem elemVal_w2_ne_zero {rd : Nat → Nat → Nat} {t : Td} {r c : Nat} (hfmt : t.fmt = 3) :
    fpIsZero (elemVal rd t r c) = false := by
  rw [elemVal_w2 hfmt, Bool.eq_false_iff, Ne, fpIsZero_fpOfInt]
  omega

/-- A block whose scale code is 00h has the code part +0 against any block (R43). -/
theorem codePart_zero_scale {a w : Blk} (hsc : w.sc = 0) : codePart a w = 0 := by
  simp [codePart, hsc]

/-- Without outliers on either side no term of R54 is added to the code part. -/
theorem blockContrib_of_no_outliers {a w : Blk} (ha : a.outs = []) (hw : w.outs = []) : blockContrib a w = codePart a w := by
  simp [blockContrib, ha, hw]

/-- Settles O17: a code c is read as 2c − 3 from its two bits, which is R31's table and never 0; the zero block's code part is +0 and, with
no outliers, the whole contribution. -/
theorem w2CodesHaveTheirValues : Obligations.W2CodesHaveTheirValues := by
  refine ⟨fun rd t r j i hfmt hi => ⟨?value, elemVal_w2_ne_zero hfmt⟩, fun a w hsc hw ha => ?zeroBlock⟩
  case value =>
    have hcode : fld (rd t.space (rowAddr t r + j)) (2 * i + 1) (2 * i) < 4 := by
      rw [fld_two_bits]
      exact Nat.mod_lt _ (by decide)
    rw [elemVal_w2_packed hfmt hi, w2_table_getD hcode]
  case zeroBlock =>
    rw [blockContrib_of_no_outliers ha hw, codePart_zero_scale hsc]

end Sys2Proof.Machine
end

section
/-! GATE (04 R127; 08 R206): what an issued GATE does where its tables are legal, free and reachable, and when its exact decision reuses a unit. -/
namespace Sys2Proof.Machine

/-- A word whose accesses meet no event does what its issue says. -/
@[simp] theorem wordMet_no_events (s : State) (p : Nat) (w : IWord) (may : Iss → AccEv → Bool) (o : Out) :
    wordMet s p ⟨w, []⟩ may o = o := by
  cases o with
  | next t => cases hfetch : issOf s p w.toNat <;> simp [wordMet, hfetch]
  | refused r => simp [wordMet]
  | fault => simp [wordMet]

/-- A GATE of either mode that is issued, whose descriptors pass their checks, wait for no older instruction and lie in memory that it may
read, writes the decision of its tables. -/
theorem exec_gate_of_issues {s : State} {p : Nat} {w : IWord} {i : Iss} (h : Issues .gate s p w i)
    (hlegal : firstBad (tdChk false (tdF i.c w.toNat 126 121) ++ tdIf (!bitOf w.toNat 127) false (tdF i.c w.toNat 120 115)) = none)
    (hfree : ivHeld i.x (tdScratchIv (tdF i.c w.toNat 126 121) ++ ivIf (!bitOf w.toNat 127) (tdF i.c w.toNat 120 115)) [] = false)
    (hreach : accAll s i.y (((gateReads (bitOf w.toNat 127) (tdF i.c w.toNat 126 121) (tdF i.c w.toNat 120 115) (sF i.c w.toNat 114 110)).filter
      fun r => r.1.space != 0).map (·.2)) [] = none) :
    exec (.gate p ⟨w, []⟩) s = .next (gateGo s p i (fld w.toNat 104 102)
      (gateDec (rdI s p i) (predBit i.c.preds 7) (bitOf w.toNat 127) (tdF i.c w.toNat 126 121) (tdF i.c w.toNat 120 115)
        (sF i.c w.toNat 114 110) (sF i.c w.toNat 109 105))) := by
  have harm : exec (.gate p ⟨w, []⟩) s = execGate p ⟨w, []⟩ s := rfl
  rw [harm, execGate, wordMet_no_events, issue_any _ h]
  simp [hlegal, hfree, hreach]

/-- The exact decision reuses under the four conditions of R206 and under no other. -/
theorem gateExact_reuses_iff {p7 validPrev : Bool} {passPrev passCur fpPrev fpCur : Nat} :
    (gateExact p7 validPrev passPrev passCur fpPrev fpCur).compute = false ↔
      p7 = false ∧ validPrev = true ∧ (passPrev + 1) % 2 ^ 32 = passCur ∧ fpPrev = fpCur := by
  unfold gateExact
  split
  case isTrue hforced =>
    refine iff_of_false Bool.noConfusion ?_
    rintro ⟨rfl, rfl, rfl, -⟩
    simp at hforced
  case isFalse hunforced =>
    obtain ⟨⟨rfl, rfl⟩, rfl⟩ : (p7 = false ∧ validPrev = true) ∧ (passPrev + 1) % 2 ^ 32 = passCur := by simpa using hunforced
    simp

/-- The exact decision is forced where P7 is 1 or a header fails, whatever the entries hold. -/
theorem gateExact_forced_iff {p7 validPrev : Bool} {passPrev passCur fpPrev fpCur : Nat} :
    (gateExact p7 validPrev passPrev passCur fpPrev fpCur).forced = true ↔
      p7 = true ∨ validPrev = false ∨ (passPrev + 1) % 2 ^ 32 ≠ passCur := by
  unfold gateExact
  split
  case isTrue hforced => simpa [or_assoc] using hforced
  case isFalse hunforced => simpa [or_assoc] using hunforced

/-- Settles O12: an issued GATE in exact mode takes `gateExact` of its two headers and its two entries, which reuses and is forced as R206 says. -/
theorem gateReusesOnlyEqualEntries : Obligations.GateReusesOnlyEqualEntries := by
  intro s p w i h hexact n cur prev k rs hc hp hlegal hfree hreach
  let g := gateExact (predBit i.c.preds 7) (bitOf hp 0) (fld hp 63 32) (fld hc 63 32)
    (rdLe (rdI s p i prev.space) (prev.base + 64 + 8 * k) 8) (rdLe (rdI s p i cur.space) (cur.base + 64 + 8 * k) 8)
  refine ⟨g.compute, g.forced, ?next, gateExact_reuses_iff, gateExact_forced_iff⟩
  have hgo := exec_gate_of_issues h (by simpa [hexact, tdIf] using hlegal) (by simpa [hexact, ivIf] using hfree)
    (by rw [hexact]; exact hreach)
  rw [hexact] at hgo
  exact hgo

end Sys2Proof.Machine
end

section
/-! One arbiter (11 R265, R269): the turn order of the requesters, what a parked request and a counted cycle leave as they are, and
whom a cycle grants. -/
namespace Sys2Proof.Machine

/-! The turn order. -/

/-- How many places a requester stands behind the index one above the pointer. -/
def arbTurn (n ptr r : Nat) : Nat := (r + n - (ptr + 1) % n) % n

/-- The requester at a given place behind the pointer. -/
theorem arbTurn_at {n i : Nat} (ptr : Nat) (hi : i < n) : arbTurn n ptr ((ptr + 1 + i) % n) = i := by
  have hfirst : (ptr + 1) % n < n := Nat.mod_lt _ (by omega)
  rw [arbTurn, Nat.add_mod, Nat.mod_eq_of_lt hi]
  obtain hlow | hwrap : (ptr + 1) % n + i < n ∨ n ≤ (ptr + 1) % n + i := by omega
  · rw [Nat.mod_eq_of_lt hlow, show (ptr + 1) % n + i + n - (ptr + 1) % n = i + n by omega, Nat.add_mod_right, Nat.mod_eq_of_lt hi]
  · rw [Nat.mod_eq_sub_mod hwrap, Nat.mod_eq_of_lt (show (ptr + 1) % n + i - n < n by omega),
      show (ptr + 1) % n + i - n + n - (ptr + 1) % n = i by omega, Nat.mod_eq_of_lt hi]

theorem arbTurn_lt {n r : Nat} (ptr : Nat) (hr : r < n) : arbTurn n ptr r < n := Nat.mod_lt _ (by omega)

/-- Every requester stands at its place behind the pointer. -/
theorem at_arbTurn {n r : Nat} (ptr : Nat) (hr : r < n) : (ptr + 1 + arbTurn n ptr r) % n = r := by
  have hfirst : (ptr + 1) % n < n := Nat.mod_lt _ (by omega)
  calc (ptr + 1 + (r + n - (ptr + 1) % n) % n) % n
      = ((ptr + 1) % n + (r + n - (ptr + 1) % n)) % n := by rw [Nat.add_mod_mod, Nat.mod_add_mod]
    _ = r := by rw [Nat.add_sub_cancel' (by omega), Nat.add_mod_right, Nat.mod_eq_of_lt hr]

theorem arbNext_eq_none_iff {n ptr : Nat} {presented : Nat → Bool} :
    arbNext n ptr presented = none ↔ ∀ r, r < n → presented r = false := by
  simp only [arbNext, List.find?_map, Option.map_eq_none_iff, List.find?_range_eq_none, Function.comp, Bool.not_eq_true']
  constructor
  · intro h r hr
    simpa [at_arbTurn ptr hr] using h _ (arbTurn_lt ptr hr)
  · intro h i hi
    exact h _ (Nat.mod_lt _ (by omega))

/-- R265: the requester granted next presents a request, and none that presents one stands before it. -/
theorem arbNext_eq_some {n ptr g : Nat} {presented : Nat → Bool} (h : arbNext n ptr presented = some g) :
    g < n ∧ presented g = true ∧ ∀ r, r < n → presented r = true → arbTurn n ptr g ≤ arbTurn n ptr r := by
  simp only [arbNext, List.find?_map, Option.map_eq_some_iff, List.find?_range_eq_some, Function.comp, List.mem_range] at h
  obtain ⟨i, ⟨hpresented, hi, hbefore⟩, rfl⟩ := h
  refine ⟨Nat.mod_lt _ (by omega), hpresented, fun r hr hr' => ?_⟩
  rw [arbTurn_at ptr hi]
  by_contra hlt
  simpa [at_arbTurn ptr hr, hr'] using hbefore (arbTurn n ptr r) (by omega)

/-! Parking. -/

/-- Parking changes the queues and the requesters that wait at a full one. -/
theorem foldl_arbPark_frame (x : Arb) (reqs : List Nat) :
    reqs.foldl arbPark x = { x with parked := (reqs.foldl arbPark x).parked, held := (reqs.foldl arbPark x).held } := by
  refine List.foldlRecOn reqs arbPark (b := x)
    (motive := fun y : Arb => y = { x with parked := y.parked, held := y.held }) rfl fun y hy r _ => ?_
  rw [hy, arbPark]
  split <;> rfl

@[simp] theorem foldl_arbPark_owner (x : Arb) (reqs : List Nat) : (reqs.foldl arbPark x).owner = x.owner := by
  rw [foldl_arbPark_frame]
@[simp] theorem foldl_arbPark_ptr (x : Arb) (reqs : List Nat) : (reqs.foldl arbPark x).ptr = x.ptr := by
  rw [foldl_arbPark_frame]
@[simp] theorem foldl_arbPark_drop (x : Arb) (reqs : List Nat) : (reqs.foldl arbPark x).drop = x.drop := by
  rw [foldl_arbPark_frame]

/-- A requester's queue takes its request while it holds fewer than 8 (R266). -/
theorem tget_parked_arbPark (x : Arb) (r q : Nat) : tget 0 (arbPark x r).parked q =
    if r = q then max (tget 0 x.parked q) (min 8 (tget 0 x.parked q + 1)) else tget 0 x.parked q := by
  unfold arbPark
  obtain rfl | hrq := eq_or_ne r q
  · rw [if_pos rfl]
    split
    case isTrue hroom => simp [tmod]; omega
    case isFalse hfull => dsimp only; omega
  · rw [if_neg hrq]
    split
    case isTrue hroom => exact tget_tset_ne hrq
    case isFalse hfull => rfl

/-- The queue of a requester takes its requests of a cycle as far as its 8 places go. -/
theorem tget_parked_foldl_arbPark (x : Arb) (reqs : List Nat) (q : Nat) : tget 0 (reqs.foldl arbPark x).parked q =
    max (tget 0 x.parked q) (min 8 (tget 0 x.parked q + reqs.count q)) := by
  induction reqs generalizing x with
  | nil => simp
  | cons r reqs ih =>
    rw [List.foldl_cons, ih, tget_parked_arbPark, List.count_cons]
    by_cases hrq : r = q
    · simp only [hrq, if_true, beq_self_eq_true]; omega
    · simp [hrq]

/-! Counted cycles. -/

theorem arbFlag_frame (x : Arb) (r : Nat) : arbFlag x r = { x with
    flags := (arbFlag x r).flags, cur := (arbFlag x r).cur, signalled := (arbFlag x r).signalled, sigs := (arbFlag x r).sigs } := by
  unfold arbFlag
  dsimp only
  split <;> rfl

/-- Waiting cycles change the counts, the bits and the signals. -/
theorem arbWait_frame (k : Nat) (x : Arb) (n : Nat) (waiting : Nat → Bool) : arbWait k x n waiting = { x with
    wait := (arbWait k x n waiting).wait, flags := (arbWait k x n waiting).flags, cur := (arbWait k x n waiting).cur
    signalled := (arbWait k x n waiting).signalled, sigs := (arbWait k x n waiting).sigs } := by
  unfold arbWait
  refine List.foldlRecOn (List.range n) _ (b := x) (motive := fun y : Arb => y = { x with
    wait := y.wait, flags := y.flags, cur := y.cur, signalled := y.signalled, sigs := y.sigs }) rfl fun y hy r _ => ?_
  dsimp only
  split
  · exact hy
  · split
    · rw [arbFlag_frame, hy]
    · rw [hy]

@[simp] theorem arbCount_owner (n : Nat) (x : Arb) : (arbCount n x).owner = x.owner := by
  rw [arbCount, arbWait_frame, arbFullWait]
@[simp] theorem arbCount_ptr (n : Nat) (x : Arb) : (arbCount n x).ptr = x.ptr := by
  rw [arbCount, arbWait_frame, arbFullWait]
@[simp] theorem arbCount_drop (n : Nat) (x : Arb) : (arbCount n x).drop = x.drop := by
  rw [arbCount, arbWait_frame, arbFullWait]
@[simp] theorem arbCount_parked (n : Nat) (x : Arb) : (arbCount n x).parked = x.parked := by
  rw [arbCount, arbWait_frame, arbFullWait]

/-! The grant of a cycle. -/

/-- Does a requester present a request (R265): the head of its queue, or a live one? -/
def arbPresents (x : Arb) (live : List Nat) (r : Nat) : Bool := 0 < tget 0 x.parked r || live.contains r

theorem arbPresents_iff {x : Arb} {live : List Nat} {r : Nat} : arbPresents x live r = true ↔ 0 < tget 0 x.parked r ∨ r ∈ live := by
  simp [arbPresents]

/-- An arbiter whose grant to a requester begins. -/
def arbGranted (x : Arb) (g : Nat) : Arb :=
  { x with held := [], owner := some g, units := 0, mid := false, drop := false, grants := (x.grants + 1) % 2 ^ 32 }

section
variable {n : Nat} {x : Arb} {new : List Nat}

theorem arbTake_of_owner {o : Nat} (howner : x.owner = some o) :
    arbTake n x new = (arbLiveIn x new).foldl arbPark { x with held := [] } := by
  simp [arbTake, howner]

theorem arbTake_of_none (howner : x.owner = none) (hnext : arbNext n x.ptr (arbPresents x (arbLiveIn x new)) = none) :
    arbTake n x new = { x with held := [] } := by
  unfold arbPresents at hnext
  simp only [arbTake, howner, hnext]

variable {g : Nat} (howner : x.owner = none) (hnext : arbNext n x.ptr (arbPresents x (arbLiveIn x new)) = some g)
include howner hnext

/-- A grant by the head of a queue: every live request is parked behind it. -/
theorem arbTake_of_parked (hparked : 0 < tget 0 x.parked g) : arbTake n x new =
    (arbLiveIn x new).foldl arbPark { arbGranted x g with parked := tmod 0 x.parked g (· - 1) } := by
  unfold arbPresents at hnext
  simp only [arbTake, howner, hnext, hparked, if_true, arbGranted]

/-- A grant by a live request: the others are parked. -/
theorem arbTake_of_live (hparked : tget 0 x.parked g = 0) :
    arbTake n x new = ((arbLiveIn x new).erase g).foldl arbPark (arbGranted x g) := by
  unfold arbPresents at hnext
  simp only [arbTake, howner, hnext, hparked, lt_irrefl, if_false, arbGranted]

theorem arbTake_granted :
    (arbTake n x new).owner = some g ∧ (arbTake n x new).ptr = x.ptr ∧ (arbTake n x new).drop = false := by
  obtain hparked | hparked := Nat.eq_zero_or_pos (tget 0 x.parked g)
  · simp [arbTake_of_live howner hnext hparked, arbGranted]
  · simp [arbTake_of_parked howner hnext hparked, arbGranted]

end

/-- After a cycle in which a requester is the owner, the grant goes on with the pointer where it was, or its last unit has ended and the
pointer is at its owner. -/
def ArbHeldBy (last : UnitEnd) (ptr g : Nat) (y : Arb) : Prop :=
  y.owner = some g ∧ y.ptr = ptr ∨ last ≠ .goesOn ∧ y.owner = none ∧ y.ptr = g

section
variable {mode n : Nat} {x : Arb} {reqs : List Nat} {last : UnitEnd}

theorem arbCycle_of_no_owner (h : (arbTake n x reqs).owner = none) :
    arbCycle mode n x reqs last = arbCount n (arbTake n x reqs) := by
  simp [arbCycle, h]

/-- A grant of the cycle goes on or has ended after it, be the end a withdrawal's (R268). -/
theorem arbCycle_heldBy {o : Nat} (h : (arbTake n x reqs).owner = some o) :
    ArbHeldBy last (arbTake n x reqs).ptr o (arbCycle mode n x reqs last) := by
  simp only [arbCycle, arbCount_owner, h]
  by_cases hgo : last = .goesOn
  · left; simp [hgo]
  simp only [hgo, if_false]
  split
  · right; simp [hgo, arbDead]
  split
  · right; simp [hgo]
  · left; simp

/-- The end of a unit leaves the queues alone where no withdrawal is due. -/
theorem arbCycle_parked (hdrop : (arbTake n x reqs).drop = false) :
    (arbCycle mode n x reqs last).parked = (arbTake n x reqs).parked := by
  obtain howner | ⟨o, howner⟩ := Option.eq_none_or_eq_some (arbTake n x reqs).owner
  · rw [arbCycle_of_no_owner howner, arbCount_parked]
  simp only [arbCycle, arbCount_owner, howner, arbCount_drop, hdrop, Bool.false_eq_true, if_false]
  split
  · simp
  split <;> simp

/-- With no grant running and no request presented the arbiter stays idle. -/
theorem arbCycle_idle (howner : x.owner = none) (hnone : ∀ r, r < n → arbPresents x (arbLiveIn x reqs) r = false) :
    (arbCycle mode n x reqs last).owner = none ∧ (arbCycle mode n x reqs last).ptr = x.ptr := by
  have htake := arbTake_of_none howner (arbNext_eq_none_iff.mpr hnone)
  rw [arbCycle_of_no_owner (by rw [htake]; exact howner), htake]
  simp [howner]

/-- A running grant keeps its owner through a cycle, or ends in it. -/
theorem arbCycle_running {o : Nat} (howner : x.owner = some o) : ArbHeldBy last x.ptr o (arbCycle mode n x reqs last) := by
  have htake := arbTake_of_owner (n := n) (new := reqs) howner
  simpa [htake] using arbCycle_heldBy (mode := mode) (last := last) (show (arbTake n x reqs).owner = some o by simp [htake, howner])

variable {g : Nat} (howner : x.owner = none) (hnext : arbNext n x.ptr (arbPresents x (arbLiveIn x reqs)) = some g)
include howner hnext

theorem arbCycle_granted : ArbHeldBy last x.ptr g (arbCycle mode n x reqs last) := by
  obtain ⟨hgrant, hptr, -⟩ := arbTake_granted howner hnext
  simpa [hptr] using arbCycle_heldBy (mode := mode) (last := last) hgrant

/-- A grant by a live request leaves the requester's other live ones parked. -/
theorem arbCycle_parked_of_live (hparked : tget 0 x.parked g = 0) :
    tget 0 (arbCycle mode n x reqs last).parked g = min 8 ((arbLiveIn x reqs).count g - 1) := by
  obtain ⟨-, -, hdrop⟩ := arbTake_granted howner hnext
  rw [arbCycle_parked hdrop, arbTake_of_live howner hnext hparked, tget_parked_foldl_arbPark, List.count_erase_self]
  simp [arbGranted, hparked]

/-- A grant by the head of a queue takes it, and the requester's live requests are parked behind what is left (R269). -/
theorem arbCycle_parked_of_parked (hparked : 0 < tget 0 x.parked g) :
    tget 0 (arbCycle mode n x reqs last).parked g =
      max (tget 0 x.parked g - 1) (min 8 (tget 0 x.parked g - 1 + (arbLiveIn x reqs).count g)) := by
  obtain ⟨-, -, hdrop⟩ := arbTake_granted howner hnext
  rw [arbCycle_parked hdrop, arbTake_of_parked howner hnext hparked, tget_parked_foldl_arbPark]
  simp [tmod]

end

end Sys2Proof.Machine
end

section
/-! ARB_GRANT (11 R265): the pointer at reset, the command's one cycle at its arbiter, and the requester that it grants. -/
namespace Sys2Proof.Machine

theorem arbOf_reset_ptr (a : Nat) : (arbOf State.reset a).ptr = 0 := rfl

/-- The entry of a table whose entries have all been changed. -/
theorem tfind_map {α β : Type} (f : Nat × α → β) (t : Tbl α) (i : Nat) :
    tfind (t.map fun e => (e.1, f e)) i = (tfind t i).map fun v => f (i, v) := by
  induction t with
  | nil => rfl
  | cons e t ih =>
    obtain ⟨k, v⟩ := e
    simp only [List.map_cons, tfind, ih]
    split
    case isTrue hk => simp [hk]
    case isFalse => rfl

/-- A warm reset keeps three counts of an arbiter, a cold one nothing: the pointer is 0 after both (R265). -/
theorem arbOf_resetState_ptr (s : State) (warm : Bool) (a : Nat) : (arbOf (resetState s warm) a).ptr = 0 := by
  cases warm with
  | false => rfl
  | true =>
    have harbs : (resetState s true).arbs =
        s.arbs.map fun x => (x.1, { dead := x.2.dead, pqFull := x.2.pqFull, grants := x.2.grants }) := rfl
    rw [arbOf, tget, harbs, tfind_map]
    cases tfind s.arbs a <;> rfl

/-- An arbiter in the middle of its window stays in it. -/
theorem arbRoll_of_lt {x : Arb} (h : x.cyc < 2 ^ x.winLog) : arbRoll x = x := by
  simp [arbRoll, arbFull, h]

/-- An arbiter written is the one read; every other keeps its state. -/
theorem arbOf_put (s : State) (a b : Nat) (x : Arb) :
    arbOf { s with arbs := tset s.arbs a x } b = if a = b then x else arbOf s b := by
  split
  case isTrue hab => rw [hab]; exact tget_tset_self ..
  case isFalse hab => exact tget_tset_ne hab

/-- A present arbiter in the middle of its window, with requests that it may be presented, takes one cycle. -/
theorem exec_arbGrant {s : State} {a : Nat} {ins : List ArbIn} {last : UnitEnd} (hpresent : arbPresent a = true)
    (hok : (ins.map (arbIdx a)).all (arbReqOk a) = true) (hdistinct : (ins.map (arbIdx a)).eraseDups = ins.map (arbIdx a))
    (hclocks : clocksOn s = true) (hwindow : (arbOf s a).cyc < 2 ^ (arbOf s a).winLog)
    (hhold : arbHoldOk s.netMode a (arbOf s a) (ins.map (arbIdx a)) last = true) :
    exec (.arbGrant a ins last) s = .next { s with
      arbs := tset s.arbs a (arbCycle s.netMode (arbReqs a) (arbOf s a) (ins.map (arbIdx a)) last) } := by
  have harm : exec (.arbGrant a ins last) s = execArbGrant a ins last s := rfl
  simp [harm, execArbGrant, arbMod, hpresent, hok, hdistinct, hclocks, arbRoll_of_lt hwindow, hhold]

/-- Settles O54: a cycle leaves a running grant with its owner or ends it, and with none running grants the presented requester that
`arbNext` finds, the nearest behind the pointer. -/
theorem arbiterGrantsInTurn : Obligations.ArbiterGrantsInTurn := by
  refine ⟨arbOf_reset_ptr, arbOf_resetState_ptr, ?_⟩
  intro s a ins last hpresent hok hdistinct hclocks hwindow hhold n x live presented turn
  let y := arbCycle s.netMode n x (ins.map (arbIdx a)) last
  have hy : arbOf { s with arbs := tset s.arbs a y } a = y := by simp [arbOf_put]
  have hpresents (r : Nat) : arbPresents x live r = true ↔ presented r := arbPresents_iff
  refine ⟨{ s with arbs := tset s.arbs a y }, exec_arbGrant hpresent hok hdistinct hclocks hwindow hhold, rfl,
    fun b hb => by simp [arbOf_put, Ne.symm hb], ?_⟩
  rw [hy]
  refine ⟨fun o => arbCycle_running, fun howner hnone => ?idle, fun howner hsome => ?grant⟩
  case idle => exact arbCycle_idle howner fun r hr => Bool.eq_false_iff.mpr (mt (hpresents r).mp (hnone r hr))
  case grant =>
    obtain hnext | ⟨g, hnext⟩ := Option.eq_none_or_eq_some (arbNext n x.ptr (arbPresents x live))
    · obtain ⟨r, hr, hr'⟩ := hsome
      exact absurd ((hpresents r).mpr hr') (Bool.eq_false_iff.mp (arbNext_eq_none_iff.mp hnext r hr))
    · obtain ⟨hg, hg', hfirst⟩ := arbNext_eq_some hnext
      exact ⟨g, arbCycle_granted howner hnext, hg, (hpresents g).mp hg', fun r hr hr' => hfirst r hr ((hpresents r).mpr hr'),
        arbCycle_parked_of_live howner hnext, arbCycle_parked_of_parked howner hnext⟩

end Sys2Proof.Machine
end

section
/-! What every command keeps: the queue of waiting commands, the canonical form of the memories outside the spires, the ranges of the registers.
`Keeps s0 s` says that `s`, reached from `s0` within a command, has kept them; one rule for each operation of the model says that the operation
keeps them, so that the rule of a command is the chain of the rules of the operations it calls. -/
namespace Sys2Proof.Machine

set_option Elab.async false

/-- The state `t` has the queue of `s`, and meets each of the two invariants where `s` does. -/
structure Keeps (s t : State) : Prop where
  pending : t.pending = s.pending
  mem : MemInv s → MemInv t
  reg : RegInv s → RegInv t

/-- An outcome that is a next state has kept what `Keeps` names. -/
def OutKeeps (s : State) (o : Out) : Prop := ∀ t, o = .next t → Keeps s t

section
variable {s0 s t : State}

protected theorem Keeps.refl : Keeps s s := ⟨rfl, id, id⟩

/-- A change of fields that none of the three speaks of. -/
protected theorem Keeps.frame (h : Keeps s0 s)
    {now freeCtr ids imgSeq hotSeq poolSeq jobSeq etherType vlanId lastBank : Nat} {fuse : Fuses} {boot : Boot} {glb : Glb} {msixOut : List
    MsixMsg} {fabOut : List OutFr} {fetched : List Fetched} {fns : Tbl Fn} {images : Tbl Image} {wins : Tbl Win} {models : Tbl Model} {pool :
    Tbl PUnit} {jobs : Tbl Job} {jobRegs farEpoch farKeys farTags csem dsPart flashCuts : Tbl Nat} {groups : Tbl CoGrp} {spires : Tbl Spire}
    {writes : List PWr} {sigs : List Sig} {slices : Tbl Slice} {vchans : Tbl VChan} {layers : Tbl Layer} {vaults : Tbl Vault} {wbulk : List
    WBulk} {fchans : Tbl FChan} {farFenced vlanEn : Bool} {arbs : Tbl Arb} {ports : Tbl Port} {landings : List Landing} {video : Video} {evr :
    Evr} {bar4Rd : List Nat} {bankA bankB calib : Option (List Nat)} {gates : Tbl Gate} {therms : Tbl Therm} {power : Power}
    (hboot : boot.recImg = s.boot.recImg := by rfl) (hplimit : power.plimit = s.power.plimit := by rfl)
    (hlevel : power.devLevel = s.power.devLevel := by rfl) :
    Keeps s0 { s with
      now := now, freeCtr := freeCtr, ids := ids, fuse := fuse, boot := boot, glb := glb, msixOut := msixOut, fabOut := fabOut, fetched :=
      fetched, fns := fns, images := images, imgSeq := imgSeq, wins := wins, models := models, hotSeq := hotSeq, pool := pool, poolSeq := poolSeq,
      jobs := jobs, jobSeq := jobSeq, jobRegs := jobRegs, groups := groups, spires := spires, farEpoch := farEpoch, farKeys := farKeys, farTags :=
      farTags, writes := writes, sigs := sigs, csem := csem, dsPart := dsPart, slices := slices, vchans := vchans, layers := layers, vaults :=
      vaults, wbulk := wbulk, fchans := fchans, farFenced := farFenced, arbs := arbs, ports := ports, etherType := etherType, vlanEn := vlanEn,
      vlanId := vlanId, landings := landings, video := video, evr := evr, bar4Rd := bar4Rd, bankA := bankA, bankB := bankB, lastBank := lastBank,
      calib := calib, flashCuts := flashCuts, gates := gates, therms := therms, power := power } where
  pending := h.pending
  mem hs :=
    have ⟨hhmem, hmem, hfar, hflash, hold, hrec⟩ := h.mem hs
    ⟨hhmem, hmem, hfar, hflash, hold, hboot ▸ hrec⟩
  reg hs :=
    have ⟨hmode, hquantum, hlim, hlev, hfence⟩ := h.reg hs
    ⟨hmode, hquantum, hplimit ▸ hlim, hlevel ▸ hlev, hfence⟩

/-- A change of memories that keeps their canonical form. -/
protected theorem Keeps.memory (h : Keeps s0 s) (hm : MemInv s → MemInv t) (hpending : t.pending = s.pending := by rfl)
    (hmode : t.netMode = s.netMode := by rfl) (hquantum : t.quantum = s.quantum := by rfl)
    (hplimit : t.power.plimit = s.power.plimit := by rfl) (hlevel : t.power.devLevel = s.power.devLevel := by rfl)
    (hfence : t.ueFence = s.ueFence := by rfl) : Keeps s0 t where
  pending := hpending.trans h.pending
  mem hs := hm (h.mem hs)
  reg hs :=
    have ⟨h1, h2, h3, h4, h5⟩ := h.reg hs
    ⟨hmode ▸ h1, hquantum ▸ h2, hplimit ▸ h3, hlevel ▸ h4, hfence ▸ h5⟩

/-- A change of registers that keeps their ranges. -/
protected theorem Keeps.register (h : Keeps s0 s) (hr : RegInv s → RegInv t) (hpending : t.pending = s.pending := by rfl)
    (hhmem : t.hmem = s.hmem := by rfl) (hmem : t.mem = s.mem := by rfl) (hfar : t.far = s.far := by rfl) (hflash : t.flash = s.flash := by rfl)
    (hops : t.flashOps = s.flashOps := by rfl) (himg : t.boot.recImg = s.boot.recImg := by rfl) : Keeps s0 t where
  pending := hpending.trans h.pending
  mem hs :=
    have ⟨h1, h2, h3, h4, h5, h6⟩ := h.mem hs
    ⟨hhmem ▸ h1, hmem ▸ h2, hfar ▸ h3, hflash ▸ h4, hops ▸ h5, himg ▸ h6⟩
  reg hs := hr (h.reg hs)

/-- The same, and a new mode of the arbiters. -/
protected theorem Keeps.netMode {mode : Nat} (h : Keeps s0 s) (hm : mode < 4)
    {now freeCtr ids imgSeq hotSeq poolSeq jobSeq etherType vlanId lastBank : Nat} {fuse : Fuses} {boot : Boot} {glb : Glb} {msixOut : List
    MsixMsg} {fabOut : List OutFr} {fetched : List Fetched} {fns : Tbl Fn} {images : Tbl Image} {wins : Tbl Win} {models : Tbl Model} {pool :
    Tbl PUnit} {jobs : Tbl Job} {jobRegs farEpoch farKeys farTags csem dsPart flashCuts : Tbl Nat} {groups : Tbl CoGrp} {spires : Tbl Spire}
    {writes : List PWr} {sigs : List Sig} {slices : Tbl Slice} {vchans : Tbl VChan} {layers : Tbl Layer} {vaults : Tbl Vault} {wbulk : List
    WBulk} {fchans : Tbl FChan} {farFenced vlanEn : Bool} {arbs : Tbl Arb} {ports : Tbl Port} {landings : List Landing} {video : Video} {evr :
    Evr} {bar4Rd : List Nat} {bankA bankB calib : Option (List Nat)} {gates : Tbl Gate} {therms : Tbl Therm} {power : Power}
    (hboot : boot.recImg = s.boot.recImg := by rfl) (hplimit : power.plimit = s.power.plimit := by rfl)
    (hlevel : power.devLevel = s.power.devLevel := by rfl) :
    Keeps s0 { s with
      netMode := mode, now := now, freeCtr := freeCtr, ids := ids, fuse := fuse, boot := boot, glb := glb, msixOut := msixOut, fabOut :=
      fabOut, fetched :=
      fetched, fns := fns, images := images, imgSeq := imgSeq, wins := wins, models := models, hotSeq := hotSeq, pool := pool, poolSeq := poolSeq,
      jobs := jobs, jobSeq := jobSeq, jobRegs := jobRegs, groups := groups, spires := spires, farEpoch := farEpoch, farKeys := farKeys, farTags :=
      farTags, writes := writes, sigs := sigs, csem := csem, dsPart := dsPart, slices := slices, vchans := vchans, layers := layers, vaults :=
      vaults, wbulk := wbulk, fchans := fchans, farFenced := farFenced, arbs := arbs, ports := ports, etherType := etherType, vlanEn := vlanEn,
      vlanId := vlanId, landings := landings, video := video, evr := evr, bar4Rd := bar4Rd, bankA := bankA, bankB := bankB, lastBank := lastBank,
      calib := calib, flashCuts := flashCuts, gates := gates, therms := therms, power := power } where
  pending := h.pending
  mem hs :=
    have ⟨hhmem, hmem, hfar, hflash, hold, hrec⟩ := h.mem hs
    ⟨hhmem, hmem, hfar, hflash, hold, hboot ▸ hrec⟩
  reg hs :=
    have ⟨_, hquantum, hlim, hlev, hfence⟩ := h.reg hs
    ⟨hm, hquantum, hplimit ▸ hlim, hlevel ▸ hlev, hfence⟩

theorem ite_lt {c : Prop} [Decidable c] {a b n : Nat} (ha : a < n) (hb : b < n) : (if c then a else b) < n := by
  split
  · exact ha
  · exact hb

/-- The state of a pair that an operation answers. -/
protected theorem Keeps.ofPair {α : Type} {a : α} {p : State × α} (e : p = (t, a)) (h : Keeps s0 p.1) : Keeps s0 t := by
  subst e
  exact h

protected theorem Keeps.ite {c : Prop} [Decidable c] {a b : State} (ha : Keeps s0 a) (hb : Keeps s0 b) : Keeps s0 (if c then a else b) := by
  split
  · exact ha
  · exact hb

protected theorem Keeps.iteFst {α : Type} {c : Prop} [Decidable c] {a b : State × α} (ha : Keeps s0 a.1) (hb : Keeps s0 b.1) :
    Keeps s0 (if c then a else b).1 := by
  split
  · exact ha
  · exact hb

protected theorem Keeps.foldl {α : Type} {f : State → α → State} {l : List α} (hf : ∀ s x, Keeps s0 s → Keeps s0 (f s x)) (h : Keeps s0 s) :
    Keeps s0 (l.foldl f s) := by
  induction l generalizing s with
  | nil => exact h
  | cons x l ih => exact ih (hf s x h)

protected theorem Keeps.foldlPair {α β : Type} {f : State × β → α → State × β} {l : List α} {a : State × β}
    (hf : ∀ a x, Keeps s0 a.1 → Keeps s0 (f a x).1) (h : Keeps s0 a.1) : Keeps s0 (l.foldl f a).1 := by
  induction l generalizing a with
  | nil => exact h
  | cons x l ih => exact ih (hf a x h)

protected theorem OutKeeps.next (h : Keeps s0 s) : OutKeeps s0 (.next s) := by
  rintro t ⟨⟩
  exact h

protected theorem OutKeeps.refused {r : Refusal} : OutKeeps s0 (.refused r) := fun _ h => nomatch h

protected theorem OutKeeps.fault {r : Fault} : OutKeeps s0 (.fault r) := fun _ h => nomatch h

protected theorem OutKeeps.ite {c : Prop} [Decidable c] {a b : Out} (ha : OutKeeps s0 a) (hb : OutKeeps s0 b) :
    OutKeeps s0 (if c then a else b) := by
  split
  · exact ha
  · exact hb

protected theorem OutKeeps.guardNext {c : Bool} {r : Refusal} (h : Keeps s0 s) : OutKeeps s0 (guardNext c r s) :=
  .ite (.next h) .refused

protected theorem Keeps.setSp {p : Nat} {x : Spire} (h : Keeps s0 s) : Keeps s0 (setSp s p x) :=
  .frame h

protected theorem Keeps.modSp {p : Nat} {f : Spire → Spire} (h : Keeps s0 s) : Keeps s0 (modSp s p f) :=
  .setSp h

protected theorem Keeps.setFn {f : Nat} {x : Fn} (h : Keeps s0 s) : Keeps s0 (setFn s f x) :=
  .frame h

protected theorem Keeps.modFn {f : Nat} {g : Fn → Fn} (h : Keeps s0 s) : Keeps s0 (modFn s f g) :=
  .setFn h

protected theorem Keeps.setJob {j : Nat} {x : Job} (h : Keeps s0 s) : Keeps s0 (setJob s j x) :=
  .frame h

protected theorem Keeps.modJob {j : Nat} {f : Job → Job} (h : Keeps s0 s) : Keeps s0 (modJob s j f) := by
  unfold modJob
  split
  · exact .setJob h
  · exact h

protected theorem Keeps.modPort {p : Nat} {f : Port → Port} (h : Keeps s0 s) : Keeps s0 (modPort s p f) :=
  .frame h

protected theorem Keeps.modVch {v c : Nat} {f : VChan → VChan} (h : Keeps s0 s) : Keeps s0 (modVch s v c f) :=
  .frame h

protected theorem Keeps.freshId (h : Keeps s0 s) : Keeps s0 (freshId s).2 :=
  .frame h

protected theorem Keeps.freshVal {n : Nat} (h : Keeps s0 s) : Keeps s0 (freshVal s n).2 :=
  .frame h

protected theorem Keeps.queueLines {pa n : Nat} (h : Keeps s0 s) : Keeps s0 (queueLines s pa n) :=
  .foldl (fun _ _ h => .modVch h) h

protected theorem Keeps.hostPut {a : Nat} {bs : List Nat} (h : Keeps s0 s) : Keeps s0 (hostPut s a bs) :=
  h.memory fun m => { m with hmem := Memory.put_wf _ _ m.hmem }

protected theorem Keeps.gcmPut {j : Nat} {key : List Nat} {ctr base len k : Nat} {plain : List Nat} (h : Keeps s0 s) :
    Keeps s0 (gcmPut s j key ctr base len k plain) :=
  .hostPut (.hostPut h)

protected theorem Keeps.gcmWrite {j base len off : Nat} {bs : List Nat} (h : Keeps s0 s) : Keeps s0 ((gcmWrite s j base len off bs).getD s) := by
  unfold gcmWrite
  split
  · exact h
  · dsimp only
    generalize (if bs.length = 4096 then some bs else _) = u
    cases u with
    | none => exact h
    | some p => exact .modJob (.gcmPut h)

protected theorem Keeps.paPut {pa : Nat} {bs : List Nat} (h : Keeps s0 s) : Keeps s0 (paPut s pa bs) := by
  unfold paPut
  split
  · exact .queueLines (h.memory fun m => { m with mem := Store.put_wf _ _ m.mem })
  · exact h.memory fun m => { m with mem := Store.put_wf _ _ m.mem }
  · exact h.memory fun m => { m with far := Store.farPut_wf _ _ m.far }
  · split
    · exact .ite (.gcmWrite h) (.hostPut h)
    · exact h
  · exact h

protected theorem Keeps.zeroMem {pa n : Nat} (h : Keeps s0 s) : Keeps s0 (zeroMem s pa n) :=
  h.memory fun m => { m with mem := Store.mark_wf _ _ _ m.mem }

protected theorem Keeps.freeMem {pa n : Nat} (h : Keeps s0 s) : Keeps s0 (freeMem s pa n) := by
  unfold freeMem
  dsimp only
  split
  · exact h.memory fun m => { m with far := Store.farMark_wf _ _ _ m.far }
  · exact h
  · exact h
  · exact h.memory fun m => { m with mem := Store.mark_wf _ _ _ m.mem }

protected theorem Keeps.farNewOwner {tag page : Nat} (h : Keeps s0 s) : Keeps s0 (farNewOwner tag s page) :=
  h.memory fun m => { m with far := farNewOwner_wf _ _ m.far }

protected theorem Keeps.vaPut {j va : Nat} {bs : List Nat} (h : Keeps s0 s) : Keeps s0 (vaPut s j va bs) := by
  unfold vaPut
  refine .foldl (fun _ _ h => ?_) ?_
  · split
    · split
      · exact .paPut h
      · exact h
    · exact h
  · exact h

protected theorem Keeps.noteWrite {j pa n : Nat} (h : Keeps s0 s) : Keeps s0 (noteWrite s j pa n) :=
  .modJob h

protected theorem Keeps.vaPutReq {j va : Nat} {bs : List Nat} (h : Keeps s0 s) : Keeps s0 (vaPutReq s j va bs) := by
  unfold vaPutReq
  refine .foldl (fun _ _ h => ?_) ?_
  · split
    · split
      · exact .noteWrite (.paPut h)
      · exact h
    · exact h
  · exact h

protected theorem Keeps.evrAdd {code sev src : Nat} {ps : List Nat} (h : Keeps s0 s) : Keeps s0 (evrAdd s code sev src ps) :=
  .ite (.ite (.frame h) (.frame h)) (.frame h)

protected theorem Keeps.evrThaw (h : Keeps s0 s) : Keeps s0 (evrThaw s) :=
  .ite h (.ite (.frame h) (.evrAdd (.frame h)))

protected theorem Keeps.msix {f v : Nat} (h : Keeps s0 s) : Keeps s0 (msix s f v) :=
  .ite (.frame h) (.setFn h)

protected theorem Keeps.cqDrain {n f qi : Nat} (h : Keeps s0 s) : Keeps s0 (cqDrain n s f qi) := by
  induction n generalizing s with
  | zero => exact h
  | succ n ih =>
    unfold cqDrain
    split
    · exact h
    · split
      · exact h
      · exact .ite h (ih (.ite (.msix (.modFn (.hostPut h))) (.modFn (.hostPut h))))

protected theorem Keeps.completeX {r : CmdRef} {flags status lateUs param result : Nat} (h : Keeps s0 s) :
    Keeps s0 (completeX s r flags status lateUs param result) := by
  unfold completeX
  dsimp only
  split
  · exact h
  · exact .ite h (.cqDrain (.modFn h))

protected theorem Keeps.complete {r : CmdRef} {status param result : Nat} (h : Keeps s0 s) : Keeps s0 (complete s r status param result) :=
  .completeX h

protected theorem Keeps.asyncEvent {f kind h' cause : Nat} (h : Keeps s0 s) : Keeps s0 (asyncEvent s f kind h' cause) := by
  unfold asyncEvent
  dsimp only
  split
  · exact .complete (.setFn h)
  · exact .ite (.setFn h) (.setFn h)

protected theorem Keeps.queueError {f qi cause : Nat} (h : Keeps s0 s) : Keeps s0 (queueError s f qi cause) :=
  .asyncEvent (.modFn h)

protected theorem Keeps.arbKill {a r : Nat} (h : Keeps s0 s) : Keeps s0 (arbKill s a r) :=
  .ite h (.frame h)

protected theorem Keeps.arbForget {a r : Nat} (h : Keeps s0 s) : Keeps s0 (arbForget s a r) :=
  .ite h (.frame h)

protected theorem Keeps.arbKillSpire {p : Nat} (h : Keeps s0 s) : Keeps s0 (arbKillSpire s p) :=
  .foldl (fun _ _ h => .arbForget (.arbKill h)) h

protected theorem Keeps.arbKillNet {h' : Nat} (h : Keeps s0 s) : Keeps s0 (arbKillNet s h') := by
  unfold arbKillNet
  refine .foldl (fun _ _ h => ?_) ?_
  · split
    · exact .ite (.arbKill h) h
    · exact h
  · exact h

protected theorem Keeps.portEmit {pi : Nat} {f : OutFr} (h : Keeps s0 s) : Keeps s0 (portEmit s pi f) :=
  .frame (.modPort h)

protected theorem Keeps.portDrain {n pi : Nat} (h : Keeps s0 s) : Keeps s0 (portDrain n s pi) := by
  induction n generalizing s with
  | zero => exact h
  | succ n ih =>
    unfold portDrain
    dsimp only
    split
    · exact ih (.portEmit (.modPort h))
    · exact .ite (.modPort h) (ih (.modPort h))

protected theorem Keeps.portRun {pi : Nat} (h : Keeps s0 s) : Keeps s0 (portRun s pi) :=
  .portDrain h

protected theorem Keeps.portSend {pi : Nat} {f : OutFr} (h : Keeps s0 s) : Keeps s0 (portSend s pi f) :=
  .ite (.portRun (.modPort h)) h

protected theorem Keeps.ctlSend {x : Job} {d kind a b : Nat} (h : Keeps s0 s) : Keeps s0 (ctlSend s x d kind a b) :=
  .portSend h

protected theorem Keeps.ctlAll {x : Job} {kind a b : Nat} (h : Keeps s0 s) : Keeps s0 (ctlAll s x kind a b) :=
  .foldl (fun _ _ h => .ctlSend h) h

protected theorem Keeps.claimSend {x : Job} {g kind req : Nat} (h : Keeps s0 s) : Keeps s0 (claimSend s x g kind req) :=
  .portSend h

protected theorem Keeps.claimsRelease {j req : Nat} (h : Keeps s0 s) : Keeps s0 (claimsRelease s j req) := by
  unfold claimsRelease
  dsimp only
  split
  · exact h
  · exact .modJob (.foldl (fun _ _ h => .claimSend h) h)

protected theorem Keeps.claimsEnd {j : Nat} (h : Keeps s0 s) : Keeps s0 (claimsEnd s j) := by
  unfold claimsEnd
  split
  · exact h
  · exact .foldl (fun _ _ h => .claimSend h) h

protected theorem Keeps.foldDet {p : Nat} (h : Keeps s0 s) : Keeps s0 (foldDet s p) := by
  unfold foldDet
  dsimp only
  split
  · exact h
  · exact .modJob h

protected theorem Keeps.doClear {p : Nat} (h : Keeps s0 s) : Keeps s0 (doClear s p) :=
  .modSp (.foldDet h)

protected theorem Keeps.applyWr {w : PWr} (h : Keeps s0 s) : Keeps s0 (applyWr s w) :=
  .ite (.modJob (.paPut (.frame h))) (.paPut (.frame h))

protected theorem Keeps.reqErrRec {h' status pa : Nat} (h : Keeps s0 s) : Keeps s0 (reqErrRec s h' status pa) :=
  .evrAdd h

protected theorem Keeps.performWr {w : PWr} (h : Keeps s0 s) : Keeps s0 (performWr s w) := by
  unfold performWr
  split
  · exact .reqErrRec (.modJob (.frame h))
  · exact .applyWr h

protected theorem Keeps.performAll {j : Nat} (h : Keeps s0 s) : Keeps s0 (performAll s j) :=
  .foldl (fun _ _ h => .performWr h) h

protected theorem Keeps.ringSig {j pa v : Nat} (h : Keeps s0 s) : Keeps s0 (ringSig s j pa v) :=
  .modJob h

protected theorem Keeps.sigApply {g : Sig} (h : Keeps s0 s) : Keeps s0 (sigApply s g) :=
  .ite (.frame (.frame h)) (.ringSig (.noteWrite (.paPut (.frame h))))

protected theorem Keeps.zeroSems {x : Job} (h : Keeps s0 s) : Keeps s0 (zeroSems s x) :=
  .foldl (fun _ _ h => .foldl (fun _ _ h => .frame h) h) h

protected theorem Keeps.resetRings {j : Nat} (h : Keeps s0 s) : Keeps s0 (resetRings s j) := by
  unfold resetRings
  dsimp only
  split
  · exact h
  · exact .modJob (.foldl (fun _ _ h => .vaPut (.vaPut h)) h)

protected theorem Keeps.pfxSet {j va : Nat} {e : PfxEnt} (h : Keeps s0 s) : Keeps s0 (pfxSet s j va e) :=
  .vaPut h

protected theorem Keeps.pfxPut {j va : Nat} {e : PfxEnt} (h : Keeps s0 s) : Keeps s0 (pfxPut s j va e) :=
  .pfxSet h

protected theorem Keeps.pfxPin {j : Nat} {es : List Nat} {up : Bool} (h : Keeps s0 s) : Keeps s0 (pfxPin s j es up) := by
  unfold pfxPin
  dsimp only
  refine .foldl (fun _ _ h => ?_) ?_
  · split
    · exact .pfxPut h
    · exact h
  · exact h

protected theorem Keeps.prefixFree {j : Nat} (h : Keeps s0 s) : Keeps s0 (prefixFree s j).1 := by
  unfold prefixFree
  split
  · exact h
  · refine Keeps.foldlPair (fun a p ha => Keeps.foldlPair (fun b v hb => ?_) ha) h
    split
    · exact hb
    · split
      · split
        · exact .modJob hb
        · dsimp only
          split
          · exact .modJob hb
          · exact .pfxPut (.modJob hb)
      · exact hb

protected theorem Keeps.freeVa {j va len : Nat} (h : Keeps s0 s) : Keeps s0 (freeVa s j va len) := by
  unfold freeVa
  refine .foldl (fun _ _ h => ?_) ?_
  · split
    · split
      · exact .freeMem h
      · exact h
    · exact h
  · exact h

protected theorem Keeps.frUndef {t : Stream} {f : VFrame} {buf : Option Nat} {ran : Bool} (h : Keeps s0 s) : Keeps s0 (frUndef s t f buf ran) := by
  unfold frUndef
  dsimp only
  refine .ite ?_ ?_
  · refine .freeVa ?_
    split
    · exact .freeVa h
    · exact h
  · split
    · exact .freeVa h
    · exact h

protected theorem Keeps.engUndef {e : Engine} (h : Keeps s0 s) : Keeps s0 (engUndef s e) := by
  unfold engUndef
  split
  · exact h
  · split
    · exact .frUndef h
    · exact h

protected theorem Keeps.setVideo {f : Video → Video} (h : Keeps s0 s) : Keeps s0 (setVideo s f) :=
  .frame h

protected theorem Keeps.endStream {c : Nat} (h : Keeps s0 s) : Keeps s0 (endStream s c) :=
  .foldl (fun _ _ h => .complete h) (.setVideo h)

protected theorem Keeps.applyRelease {f : VFrame} {b : Nat} (h : Keeps s0 s) : Keeps s0 (applyRelease s f b) := by
  unfold applyRelease
  dsimp only
  split
  · exact .complete h
  · exact .ite (.complete h) (.complete (.setVideo h))

protected theorem Keeps.vAdvance {n c : Nat} (h : Keeps s0 s) : Keeps s0 (vAdvance n s c) := by
  induction n generalizing s with
  | zero => exact h
  | succ n ih =>
    unfold vAdvance
    refine .ite h ?_
    split
    · exact h
    · dsimp only
      split
      · exact ih (.applyRelease (.setVideo h))
      · exact .endStream (.complete (.setVideo h))
      · exact h

protected theorem Keeps.videoAbort {j : Nat} {close : Bool} (h : Keeps s0 s) : Keeps s0 (videoAbort s j close) :=
  .ite (.setVideo (.foldl (fun _ _ h => .vAdvance h) (.foldl (fun _ _ h => .complete h) (.frame (.foldl (fun _ _ h => .engUndef h) h)))))
      (.foldl (fun _ _ h => .vAdvance h) (.foldl (fun _ _ h => .complete h) (.frame (.foldl (fun _ _ h => .engUndef h) h))))

protected theorem Keeps.cachePin {h' : Nat} {up : Bool} (h : Keeps s0 s) : Keeps s0 (cachePin s h' up) := by
  unfold cachePin
  dsimp only
  split
  · exact h
  · exact .ite (.frame h) (.frame h)

protected theorem Keeps.modelUnuse {h' : Nat} (h : Keeps s0 s) : Keeps s0 (modelUnuse s h') := by
  unfold modelUnuse
  dsimp only
  split
  · exact h
  · exact .ite (.frame h) (.frame h)

protected theorem Keeps.modelUnpin1 {h' : Nat} (h : Keeps s0 s) : Keeps s0 (modelUnpin1 s h') := by
  unfold modelUnpin1
  dsimp only
  split
  · exact h
  · exact .ite (.frame h) (.frame h)

protected theorem Keeps.ovfUnpin {j : Nat} (h : Keeps s0 s) : Keeps s0 (ovfUnpin s j) :=
  .foldl (fun _ _ h => .ite (.frame h) h) h

protected theorem Keeps.requestLetGo {j : Nat} (h : Keeps s0 s) : Keeps s0 (requestLetGo s j).1 := by
  unfold requestLetGo
  split
  · exact h
  · split
    next t e => exact .ofPair e (.prefixFree (.ovfUnpin h))
    next t e =>
      have ht : Keeps s0 t := .ofPair e (.prefixFree (.ovfUnpin h))
      exact .ite ht (.foldl (fun _ _ h => .modelUnuse h) ht)

protected theorem Keeps.chargeHolder {gi : Nat} (h : Keeps s0 s) : Keeps s0 (chargeHolder s gi) := by
  unfold chargeHolder
  dsimp only
  split
  · exact h
  · split
    · exact .frame h
    · exact .modJob (.frame h)

protected theorem Keeps.chargeJob {j : Nat} (h : Keeps s0 s) : Keeps s0 (chargeJob s j) := by
  unfold chargeJob
  split
  · exact .chargeHolder h
  · exact h

protected theorem Keeps.schedPoint {gi : Nat} (h : Keeps s0 s) : Keeps s0 (schedPoint s gi) := by
  unfold schedPoint
  dsimp only
  split
  · exact .frame (.chargeHolder h)
  · exact .chargeHolder h

protected theorem Keeps.schedPointJ {j : Nat} (h : Keeps s0 s) : Keeps s0 (schedPointJ s j) := by
  unfold schedPointJ
  split
  · exact .schedPoint h
  · exact h

protected theorem Keeps.endPoint {j : Nat} (h : Keeps s0 s) : Keeps s0 (endPoint s j) := by
  unfold endPoint
  split
  · exact .ite (.schedPoint h) h
  · exact h

protected theorem Keeps.noteOrder {j : Nat} {r : RunReq} (h : Keeps s0 s) : Keeps s0 (noteOrder s j r) :=
  .modJob h

protected theorem Keeps.unpinAll {j p : Nat} (h : Keeps s0 s) : Keeps s0 (unpinAll s j p) :=
  .foldl (fun _ _ h => .pfxPin h) h

protected theorem Keeps.stopSpires {j : Nat} (h : Keeps s0 s) : Keeps s0 (stopSpires s j) := by
  unfold stopSpires
  dsimp only
  split
  · exact .foldl (fun _ _ h => .sigApply h) (.performAll h)
  · exact .foldl (fun _ _ h => .ite (.doClear (.unpinAll h)) h) (.arbKillNet (.foldl (fun _ _ h => .ite (.arbKillSpire h) h) (.foldl (fun _ _ h =>
      .sigApply h) (.performAll h))))

protected theorem Keeps.stopRequest {j : Nat} (h : Keeps s0 s) : Keeps s0 (stopRequest s j).1 := by
  unfold stopRequest
  have hs : Keeps s0 (stopSpires s j) := .stopSpires h
  dsimp only
  split
  · exact hs
  next x _ =>
    have hgo : Keeps s0 _ := .requestLetGo (j := j) (.resetRings (j := j) (.zeroSems (x := x)
      (.foldl (f := fun s r => freeMem s (placePa x r.1) r.2) (l := x.dirty) (fun _ _ h => .freeMem h) hs)))
    refine .modJob ?_
    split
    · exact .claimsRelease (.frame hgo)
    · exact .frame hgo

protected theorem Keeps.memCount {j st : Nat} (h : Keeps s0 s) : Keeps s0 (memCount s j st) :=
  .ite (.modJob h) h

protected theorem Keeps.reqAnswer {j : Nat} {x : Job} {who num : Nat} {ref : CmdRef} {status param : Nat} (h : Keeps s0 s) :
    Keeps s0 (reqAnswer s j x who num ref status param) :=
  .ite (.complete h) (.modJob h)

protected theorem Keeps.endersEnd {cause : Option Nat} {j : Nat} (h : Keeps s0 s) : Keeps s0 (endersEnd cause s j) := by
  unfold endersEnd
  split
  · exact h
  · exact .ite h (.foldl (fun _ _ h => .complete h) (.modJob h))

protected theorem Keeps.queuedEnd {j : Nat} {x : Job} {q : Req} {status param : Nat} (h : Keeps s0 s) : Keeps s0 (queuedEnd s j x q status param) :=
  .endPoint (.modJob (.reqAnswer (.ite (.claimsRelease (.memCount h)) (.ctlAll (.claimsRelease (.memCount h))))))

protected theorem Keeps.zeroFrame {q : Nat} (h : Keeps s0 s) : Keeps s0 (zeroFrame s q) := by
  unfold zeroFrame
  split
  · exact .foldl (fun _ _ h => .zeroMem h) h
  · exact h

protected theorem Keeps.partsOff {h' : Nat} (h : Keeps s0 s) : Keeps s0 (partsOff s h') :=
  .frame h

protected theorem Keeps.leaveGroup {j : Nat} (h : Keeps s0 s) : Keeps s0 (leaveGroup s j) :=
  .foldl (fun _ _ h => .schedPoint h) (.frame h)

protected theorem Keeps.gateWrite {n : Nat} {en : Bool} (h : Keeps s0 s) : Keeps s0 (gateWrite s n en) :=
  .frame h

protected theorem Keeps.gateOff {cups : List Nat} (h : Keeps s0 s) : Keeps s0 (gateOff s cups) :=
  .foldl (fun _ _ h => .ite h (.gateWrite h)) h

protected theorem Keeps.releaseJob {j : Nat} (h : Keeps s0 s) : Keeps s0 (releaseJob s j) := by
  unfold releaseJob
  dsimp only
  split
  · exact h
  · exact .gateOff (.foldl (fun _ _ h => .ite h (.modSp h)) (.frame (.partsOff (.leaveGroup (.frame (.ite (.foldl (fun _ _ h => .modelUnpin1 h)
      (.frame (.foldl (fun _ _ h => .foldl (fun _ _ h => .farNewOwner h) h) (.foldl (fun _ _ h => .farNewOwner h) (.zeroSems (.foldl (fun _ _ h =>
      .zeroFrame h) (.foldl (fun _ _ h => .zeroMem h) (.foldl (fun _ _ h => .zeroMem h) (.foldl (fun _ _ h => .ite (.modSp (.doClear h)) h) (.frame
          (.foldl (fun _ _ h => .performWr h) (.claimsEnd (.videoAbort h))))))))))))) (.ite (.foldl (fun _ _ h => .modelUnuse h) (.frame (.foldl
          (fun _ _ h => .foldl (fun _ _ h => .farNewOwner h) h) (.foldl (fun _ _ h => .farNewOwner h) (.zeroSems (.foldl (fun _ _ h => .zeroFrame h)
          (.foldl (fun _ _ h => .zeroMem h) (.foldl (fun _ _ h => .zeroMem h) (.foldl (fun _ _ h => .ite (.modSp (.doClear h)) h) (.frame (.foldl
          (fun _ _ h => .performWr h) (.claimsEnd (.videoAbort h))))))))))))) (.frame (.foldl (fun _ _ h => .foldl (fun _ _ h => .farNewOwner h) h)
          (.foldl (fun _ _ h => .farNewOwner h) (.zeroSems (.foldl (fun _ _ h => .zeroFrame h) (.foldl (fun _ _ h => .zeroMem h) (.foldl (fun _ _ h
          => .zeroMem h) (.foldl (fun _ _ h => .ite (.modSp (.doClear h)) h) (.frame (.foldl (fun _ _ h => .performWr h) (.claimsEnd (.videoAbort
          h)))))))))))))))))))

protected theorem Keeps.modelWaitsEnd {h' st : Nat} (h : Keeps s0 s) : Keeps s0 (modelWaitsEnd s h' st) := by
  unfold modelWaitsEnd
  dsimp only
  refine .frame ?_
  refine .foldl (fun _ _ h => ?_) ?_
  · refine .releaseJob ?_
    split
    · exact .complete h
    · exact h
  · exact .foldl (fun _ _ h => .complete h) h

protected theorem Keeps.loadUnhold {h' : Nat} (h : Keeps s0 s) : Keeps s0 (loadUnhold s h') := by
  unfold loadUnhold
  split
  · exact h
  · exact .ite h (.ite (.cachePin h) (.ite (.frame h) h))

protected theorem Keeps.modelFail {h' st : Nat} (h : Keeps s0 s) : Keeps s0 (modelFail s h' st) :=
  .foldl (fun _ _ h => .zeroFrame h) (.frame (.loadUnhold (.modelWaitsEnd h)))

protected theorem Keeps.fetchedEnd {fn h' : Nat} {opcs : List Nat} {status : Nat} (h : Keeps s0 s) : Keeps s0 (fetchedEnd s fn h' opcs status) :=
  .foldl (fun _ _ h => .complete h) (.frame h)

protected theorem Keeps.jobFaultX {j cause idx addr : Nat} {tell : Bool} (h : Keeps s0 s) : Keeps s0 (jobFaultX s j cause idx addr tell) := by
  unfold jobFaultX
  split
  · exact h
  next x _ =>
    have hmode : Keeps s0 { s with netMode := 3 } := .netMode h (by decide)
    have hstop : Keeps s0 _ := .videoAbort (j := j) (close := true) (.ite (c := x.saved = true) hmode (.stopSpires (j := j) hmode))
    have htell : Keeps s0 _ := .ite (c := (decide (x.m ≤ 1) || !tell) = true) hstop (.ctlAll (x := x) (kind := 5) (a := cause) (b := x.l) hstop)
    have hqueue (t : State) (ht : Keeps s0 t) : Keeps s0 (x.queue.foldl (fun s q => complete s q.ref 0x0402 0 0) (endersEnd (some cause) t j)) :=
      .foldl (fun _ _ h => .complete h) (.endersEnd ht)
    refine .netMode (.releaseJob (.evrAdd (.asyncEvent ?_))) (ite_lt (by decide) (by decide))
    split
    · refine .complete (.fetchedEnd (hqueue _ ?_))
      split
      · exact .complete htell
      · exact htell
    · refine .fetchedEnd (hqueue _ ?_)
      split
      · exact .complete htell
      · exact htell

protected theorem Keeps.jobFault {j cause idx addr : Nat} (h : Keeps s0 s) : Keeps s0 (jobFault s j cause idx addr) :=
  .jobFaultX h

protected theorem Keeps.stopEnd {j : Nat} {x : Job} {r : RunReq} {status param : Nat} {note : State → State} {src : Option Nat}
    (hnote : ∀ s, Keeps s0 s → Keeps s0 (note s)) (h : Keeps s0 s) : Keeps s0 (stopEnd s j x r status param note src) := by
  unfold stopEnd
  split
  next t e => exact .jobFault (.ofPair e (.stopRequest h))
  next t e =>
    have ht : Keeps s0 t := .ofPair e (.stopRequest h)
    exact .endPoint (.modJob (hnote _ (.videoAbort (.reqAnswer (.ite (.noteOrder (.chargeJob ht)) (.ctlAll (.noteOrder (.chargeJob ht))))))))

protected theorem Keeps.endRequest {j status param code sev : Nat} {ps : List Nat} (h : Keeps s0 s) :
    Keeps s0 (endRequest s j status param code sev ps) := by
  unfold endRequest
  split
  · exact h
  · split
    · exact h
    · exact .stopEnd (fun _ h => .evrAdd h) h

protected theorem Keeps.farTouched {j pa : Nat} (h : Keeps s0 s) : Keeps s0 (farTouched s j pa) :=
  .ite (.freeMem h) h

protected theorem Keeps.requestError {j status pa : Nat} (h : Keeps s0 s) : Keeps s0 (requestError s j status pa) := by
  unfold requestError
  split
  · exact h
  · split
    · exact .reqErrRec (.farTouched (.modJob h))
    · exact .stopEnd (fun _ h => .reqErrRec (.farTouched h)) (.modJob h)

protected theorem Keeps.endByRelease {j : Nat} (h : Keeps s0 s) : Keeps s0 (endByRelease s j) := by
  unfold endByRelease
  dsimp only
  split
  · exact h
  · refine .releaseJob ?_
    split
    · refine .complete ?_
      refine .fetchedEnd ?_
      refine .foldl (fun _ _ h => ?_) ?_
      · exact .complete h
      · refine .endersEnd ?_
        split
        · exact .endPoint (.complete (.noteOrder (.modJob (.stopRequest h))))
        · exact h
    · refine .fetchedEnd ?_
      refine .foldl (fun _ _ h => ?_) ?_
      · exact .complete h
      · refine .endersEnd ?_
        split
        · exact .endPoint (.complete (.noteOrder (.modJob (.stopRequest h))))
        · exact h

protected theorem Keeps.faultJobs {cause : Nat} {p : Job → Bool} (h : Keeps s0 s) : Keeps s0 (faultJobs s cause p).1 :=
  .foldl (fun _ _ h => .jobFault h) h

protected theorem Keeps.flashFailRec {addr op region : Nat} (h : Keeps s0 s) : Keeps s0 (flashFailRec s addr op region) :=
  .evrAdd h

protected theorem Keeps.flashBegin {w : FlashWork} (h : Keeps s0 s) (hw : MemInv s0 → flashWorkWf w = true := by exact fun _ => rfl) :
    Keeps s0 (flashBegin s w) where
  pending := h.pending
  mem hs := { h.mem hs with flashOld := by simpa [flashBegin, hw hs] using (h.mem hs).flashOld }
  reg hs := { h.reg hs with }

protected theorem Keeps.flashEnd1 {e : FlashEnd} (h : Keeps s0 s) : Keeps s0 (flashEnd1 s e) := by
  unfold flashEnd1
  dsimp only
  split
  · exact .ite (.frame h) h
  · exact .complete h
  · exact .evrAdd h

protected theorem Keeps.flashThen {es : List FlashEnd} (h : Keeps s0 s) : Keeps s0 (flashThen s es) := by
  unfold flashThen
  split
  · exact .foldl (fun _ _ h => .flashEnd1 h) h
  next o ho =>
    refine h.memory fun m => { m with flashOld := ?_ }
    have hops : s.flashOps = s.flashOps.dropLast ++ [o] := (List.dropLast_append_getLast? _ ho).symm
    have hall := m.flashOld
    rw [hops] at hall
    simpa using hall

protected theorem Keeps.flashTick {all : Bool} (h : Keeps s0 s) : Keeps s0 (flashTick all s) := by
  refine .foldl (fun _ _ h => .foldl (fun _ _ h => .flashEnd1 h) h) (h.memory fun m => { m with flashOld := ?_ })
  have hall := List.all_eq_true.mp m.flashOld
  exact List.all_eq_true.mpr fun o ho => hall o (List.mem_filter.mp ho).1

protected theorem Keeps.setBank {b : Nat} {v : Option (List Nat)} (h : Keeps s0 s) : Keeps s0 (setBank s b v) :=
  .ite (.frame h) (.frame h)

protected theorem Keeps.storeWrite {res : FlashRes} (h : Keeps s0 s) : Keeps s0 (storeWrite s res) :=
  .ite (.frame h) (.ite (.flashFailRec (.setBank (.frame h))) (.ite (.flashFailRec (.setBank (.frame h))) (.flashBegin (.setBank (.frame h)))))

protected theorem Keeps.evrAdvance (h : Keeps s0 s) : Keeps s0 (evrAdvance s) :=
  .frame h

protected theorem OutKeeps.execEvrData7Read (h : Keeps s0 s) : OutKeeps s0 (execEvrData7Read s) :=
  .guardNext (.evrAdvance h)

protected theorem Keeps.ringFail {addr op : Nat} (h : Keeps s0 s) : Keeps s0 (ringFail s addr op) :=
  .flashFailRec (.frame h)

protected theorem Keeps.ringCompact {sec : Nat} {res : FlashRes} (h : Keeps s0 s) : Keeps s0 (ringCompact s sec res) :=
  .ite (.ringFail h) (.ite (.ringFail h) (.flashBegin (.frame h)))

protected theorem Keeps.ringWrite {r : Rec} {rest : List Rec} {res : FlashRes} (h : Keeps s0 s) : Keeps s0 (ringWrite s r rest res) := by
  unfold ringWrite
  dsimp only
  split
  · exact h
  · exact .ite (.ringFail h) (.flashBegin (.frame h))

protected theorem Keeps.evrFlushOne {res : FlashRes} (h : Keeps s0 s) : Keeps s0 (evrFlushOne s res) := by
  unfold evrFlushOne
  split
  · exact .ringCompact h
  · exact .ringWrite h
  · exact h

protected theorem OutKeeps.execEvrFlush {res : FlashRes} (h : Keeps s0 s) : OutKeeps s0 (execEvrFlush res s) :=
  .guardNext (.evrFlushOne h)

protected theorem Keeps.evrFlushN {n : Nat} (h : Keeps s0 s) : Keeps s0 (evrFlushN n s) := by
  induction n generalizing s with
  | zero => exact h
  | succ n ih => exact .ite (ih (.evrFlushOne h)) h

protected theorem Keeps.evrFlushAll (h : Keeps s0 s) : Keeps s0 (evrFlushAll s) :=
  .evrFlushN h

protected theorem Keeps.flashUndo {w : FlashWork} (h : Keeps s0 s) (hw : MemInv s0 → flashWorkWf w = true) : Keeps s0 (flashUndo s w) := by
  cases w with
  | record sec slot => exact .frame h
  | compact old => exact .frame h
  | store b old => exact .setBank h
  | calib old => exact .frame h
  | slots a n prog old cuts =>
    exact { pending := h.pending, mem := fun hs => { h.mem hs with flash := hw hs }, reg := fun hs => { h.reg hs with } }

protected theorem Keeps.flashCut {w : FlashWork} (h : Keeps s0 s) : Keeps s0 (flashCut s w) := by
  unfold flashCut
  dsimp only
  split
  · exact .frame (.freshId h)
  · exact .frame h
  · exact .setBank h
  · exact .frame h
  · exact h.memory fun m => { m with flash := Memory.put_wf _ _ m.flash }

protected theorem Keeps.flashLoss (h : Keeps s0 s) : Keeps s0 (flashLoss s) := by
  unfold flashLoss
  have hnone : Keeps s0 { s with flashOps := [] } := h.memory fun m => { m with flashOld := rfl }
  have hundo (l : List FlashOp) (hl : ∀ o ∈ l, o ∈ s.flashOps) (t : State) (ht : Keeps s0 t) :
      Keeps s0 (l.foldl (fun s o => flashUndo s o.work) t) := by
    induction l generalizing t with
    | nil => exact ht
    | cons o l ih =>
      refine ih (fun o ho => hl o (by simp [ho])) _ (.flashUndo ht fun hs => ?_)
      exact List.all_eq_true.mp (h.mem hs).flashOld o (hl o (by simp))
  dsimp only
  refine .ite hnone ?_
  have ht := hundo ((s.flashOps.filter fun o => s.now < o.till).drop ((freshVal s 16).1 % ((s.flashOps.filter fun o => s.now < o.till).length + 1) +
      1)).reverse
    (fun o ho => (List.mem_filter.mp (List.mem_of_mem_drop (List.mem_reverse.mp ho))).1) { (freshVal s 16).2 with flashOps := [] } (.frame hnone)
  split
  · exact .flashCut ht
  · exact ht

protected theorem OutKeeps.execEvrFreezeLimit (h : Keeps s0 s) : OutKeeps s0 (execEvrFreezeLimit s) :=
  .guardNext (.evrThaw h)

protected theorem OutKeeps.execStoreHourlyWrite {res : FlashRes} (h : Keeps s0 s) : OutKeeps s0 (execStoreHourlyWrite res s) :=
  .guardNext (.storeWrite h)

protected theorem Keeps.vaultCe {v c i : Nat} (h : Keeps s0 s) : Keeps s0 (vaultCe s v c i) :=
  .ite h (.ite (.ite (.modVch h) (.storeWrite (.frame (.modVch h)))) (.modVch h))

protected theorem Keeps.vaultUeRec {pa kind : Nat} (h : Keeps s0 s) : Keeps s0 (vaultUeRec s pa kind) :=
  .ite (.modVch h) (.evrAdd (.frame (.modVch h)))

protected theorem Keeps.domeUeRec {pa kind : Nat} (h : Keeps s0 s) : Keeps s0 (domeUeRec s pa kind) :=
  .ite (.frame h) (.evrAdd (.frame h))

protected theorem Keeps.avsWrite {l : List Nat} (h : Keeps s0 s) : Keeps s0 (avsWrite s l) :=
  .ite (.frame h) h

protected theorem Keeps.setVdd (h : Keeps s0 s) : Keeps s0 (setVdd s) :=
  .avsWrite h

protected theorem Keeps.bootVdd (h : Keeps s0 s) : Keeps s0 (bootVdd s) :=
  .setVdd (.ite (.avsWrite h) h)

protected theorem OutKeeps.execVaultRefresh {v c bank : Nat} (h : Keeps s0 s) : OutKeeps s0 (execVaultRefresh v c bank s) :=
  .ite .refused (.guardNext (.modVch h))

protected theorem OutKeeps.execVaultTempSample {v layer : Nat} {temp : Int} (h : Keeps s0 s) : OutKeeps s0 (execVaultTempSample v layer temp s) :=
  .ite .refused (.guardNext (.frame h))

protected theorem OutKeeps.execVaultWriteTurn {v c : Nat} (h : Keeps s0 s) : OutKeeps s0 (execVaultWriteTurn v c s) :=
  .ite .refused (.guardNext (.modVch (.frame h)))

protected theorem Keeps.evictCache (h : Keeps s0 s) : Keeps s0 (evictCache s) :=
  .frame h

protected theorem Keeps.failCacheLoads (h : Keeps s0 s) : Keeps s0 (failCacheLoads s) :=
  .foldl (fun _ _ h => .modelFail h) h

protected theorem Keeps.fenceChan {c cause : Nat} (h : Keeps s0 s) : Keeps s0 (fenceChan s c cause) :=
  .evictCache (.failCacheLoads (.foldl (fun _ _ h => .asyncEvent h) (.evrAdd (.frame h))))

protected theorem Keeps.fenceOut {out : List (Nat × Nat)} {first : State → State} (hf : ∀ s, Keeps s0 s → Keeps s0 (first s)) (h : Keeps s0 s) :
    Keeps s0 (fenceOut s out first) :=
  .foldl (fun _ _ h => .requestError h) (hf _ h)

protected theorem Keeps.farTimeoutFence {pa : Nat} {own : State → State} (hf : ∀ s, Keeps s0 s → Keeps s0 (own s)) (h : Keeps s0 s) :
    Keeps s0 (farTimeoutFence s pa own) :=
  .ite (.fenceOut hf (.fenceChan h)) (hf _ h)

protected theorem OutKeeps.execFarAccessTimeout {c j pa : Nat} (h : Keeps s0 s) : OutKeeps s0 (execFarAccessTimeout c j pa s) :=
  .ite .refused (.ite .fault (.guardNext (.farTimeoutFence (fun _ h => .requestError h) h)))

protected theorem Keeps.farUeFence {pa : Nat} {own : State → State} (hf : ∀ s, Keeps s0 s → Keeps s0 (own s)) (h : Keeps s0 s) :
    Keeps s0 (farUeFence s pa own) :=
  .ite (.fenceOut hf (.fenceChan (.frame h))) (hf _ (.frame h))

protected theorem Keeps.farUeErr {j pa : Nat} (h : Keeps s0 s) : Keeps s0 (farUeErr s j pa) :=
  .farUeFence (fun _ h => .requestError h) h

protected theorem Keeps.farCe {pa : Nat} (h : Keeps s0 s) : Keeps s0 (farCe s pa) :=
  .frame h

protected theorem OutKeeps.execFarUeWindowEnd {c : Nat} (h : Keeps s0 s) : OutKeeps s0 (execFarUeWindowEnd c s) :=
  .ite .refused (.guardNext (.frame h))

protected theorem OutKeeps.execFarRefreshRead {pkg : Nat} {hot : Bool} (h : Keeps s0 s) : OutKeeps s0 (execFarRefreshRead pkg hot s) :=
  .ite .refused (.guardNext (.foldl (fun _ _ h => .frame h) h))

protected theorem Keeps.farCacheFail {u : PUnit} (h : Keeps s0 s) : Keeps s0 (farCacheFail s u) :=
  .ite (.modelFail (.frame h)) (.frame h)

protected theorem Keeps.farLost {j pa : Nat} (h : Keeps s0 s) : Keeps s0 (farLost s j pa) := by
  unfold farLost
  split
  · exact .farCacheFail (.reqErrRec h)
  · split
    · exact .ite (.requestError h) (.setJob (.farTouched h))
    · exact .reqErrRec h

protected theorem OutKeeps.execFarWriteLost {c j pa : Nat} (h : Keeps s0 s) : OutKeeps s0 (execFarWriteLost c j pa s) :=
  .ite .refused (.ite .fault (.guardNext (.farLost h)))

protected theorem OutKeeps.execHostCompletionTimeout {j pa : Nat} (h : Keeps s0 s) : OutKeeps s0 (execHostCompletionTimeout j pa s) :=
  .ite .fault (.guardNext (.requestError h))

protected theorem Keeps.slotEvents {a b : Slot} (h : Keeps s0 s) : Keeps s0 (slotEvents s a b) :=
  .ite h (.ite (.ite (.evrAdd h) h) (.ite (.evrAdd h) (.ite (.evrAdd h) h)))

protected theorem Keeps.warmStore (h : Keeps s0 s) : Keeps s0 (warmStore s) := by
  unfold warmStore
  dsimp only
  split
  · exact .frame h
  · exact h

protected theorem Keeps.loadStore (h : Keeps s0 s) : Keeps s0 (loadStore s) := by
  unfold loadStore
  dsimp only
  split <;> exact .frame h

protected theorem Keeps.storeEvents {a b : Option (List Nat)} (h : Keeps s0 s) : Keeps s0 (storeEvents a b s) :=
  .ite (.evrAdd h) (.ite (.evrAdd h) h)

protected theorem Keeps.vaultEvents (h : Keeps s0 s) : Keeps s0 (vaultEvents s) :=
  .foldl (fun _ _ h => .ite (.evrAdd (.frame h)) h) h

protected theorem Keeps.resetState {warm : Bool} (h : Keeps s0 s) : Keeps s0 (resetState s warm) := by
  have hold (hs : MemInv s0) : (s.flashOps.map fun o => ({ o with ends := [] } : FlashOp)).all (fun o => flashWorkWf o.work) = true := by
    simpa [Function.comp_def] using (h.mem hs).flashOld
  cases warm with
  | false => exact {
      pending := h.pending
      mem := fun hs => ⟨(h.mem hs).hmem, rfl, rfl, (h.mem hs).flash, hold hs, rfl⟩
      reg := fun _ => ⟨(by decide : 1 < 4), (by decide : 1 ≤ 100 ∧ 100 < 65536), (by decide : 600 ≤ 1600 ∧ 1600 ≤ 1600), (by decide : 0 ≤ 11),
        (by decide : 1 ≤ 4 ∧ 4 < 16)⟩ }
  | true => exact {
      pending := h.pending
      mem := fun hs => ⟨(h.mem hs).hmem, rfl, rfl, (h.mem hs).flash, hold hs, rfl⟩
      reg := fun _ => ⟨(by decide : 1 < 4), (by decide : 1 ≤ 100 ∧ 100 < 65536), (by decide : 600 ≤ 1600 ∧ 1600 ≤ 1600), (by decide : 0 ≤ 11),
        (by decide : 1 ≤ 4 ∧ 4 < 16)⟩ }

protected theorem Keeps.deriveKeys {i : Slot} (h : Keeps s0 s) : Keeps s0 (deriveKeys s i) :=
  .frame h

protected theorem Keeps.loadMedia (h : Keeps s0 s) : Keeps s0 (loadMedia s) :=
  .foldl (fun _ _ h => .modPort h) h

protected theorem Keeps.drawBootKey (h : Keeps s0 s) : Keeps s0 (drawBootKey s) :=
  .frame h

protected theorem Keeps.marchCounts {cold : Bool} {fails : Met (List (Nat × Nat))} (h : Keeps s0 s) : Keeps s0 (marchCounts cold fails s) := by
  unfold marchCounts
  refine .foldl (fun _ _ h => ?_) ?_
  · split
    · exact .ite (.vaultCe h) h
    · exact h
  · exact h

protected theorem Keeps.fwStart {slot : Nat} {i : Slot} {evs : State → State} {fails : Met (List (Nat × Nat))}
    (hevs : ∀ s, Keeps s0 s → Keeps s0 (evs s)) (h : Keeps s0 s) : Keeps s0 (fwStart s slot i evs fails) := by
  unfold fwStart
  extract_lets cold banks s1 s2 cal old adv wd fuse boot s3 s4 s5 s6 s7 s8 s9 s10 s11 s12 s13
  have h1 : Keeps s0 s1 := .drawBootKey (.deriveKeys h)
  have h2 : Keeps s0 s2 := .ite (.loadStore h1) (.warmStore h1)
  have h3 : Keeps s0 s3 := h2.memory fun m => { m with mem := rfl, recImg := rfl }
  have h4 : Keeps s0 s4 := .marchCounts h3
  have h5 : Keeps s0 s5 := .bootVdd (.ite (.loadMedia h4) h4)
  have h6 : Keeps s0 s6 := .ite (.storeWrite h5) h5
  have h7 : Keeps s0 s7 := .evrAdd h6
  have h8 : Keeps s0 s8 := .ite (.storeEvents h7) h7
  have h9 : Keeps s0 s9 := .ite (.evrAdd h8) h8
  have h10 : Keeps s0 s10 := hevs _ h9
  have h11 : Keeps s0 s11 := .ite (.evrAdd h10) h10
  have h12 : Keeps s0 s12 := .ite (.evrAdd h11) h11
  refine .vaultEvents (?_ : Keeps s0 s13)
  dsimp only [s13]
  clear_value wd s12
  split
  · exact .evrAdd h12
  · exact h12

protected theorem Keeps.romRun {fails : Met (List (Nat × Nat))} (h : Keeps s0 s) : Keeps s0 (romRun s fails) := by
  unfold romRun
  dsimp only
  split
  · exact .fwStart (fun _ h => .slotEvents h) h
  · exact .frame h

protected theorem Keeps.doBoot {warm : Bool} {fails : Met (List (Nat × Nat))} (h : Keeps s0 s) : Keeps s0 (doBoot s warm fails) :=
  .romRun (.resetState h)

protected theorem Keeps.freeStrap (h : Keeps s0 s) : Keeps s0 (freeStrap s) :=
  .frame (.freshVal h)

protected theorem Keeps.selfReset {recover : Bool} (h : Keeps s0 s) : Keeps s0 (selfReset s recover) :=
  .ite (.frame (.resetState (.freeStrap h))) (.doBoot (.freeStrap h))

protected theorem Keeps.faultReset (h : Keeps s0 s) : Keeps s0 (faultReset s) :=
  .selfReset (.evrFlushAll h)

protected theorem Keeps.deviceFault {cause src addr : Nat} (h : Keeps s0 s) : Keeps s0 (deviceFault s cause src addr) :=
  .ite h (.frame (.evrAdd (.faultJobs (.frame h))))

protected theorem OutKeeps.execColdReset {strap : Nat} {fails : Met (List (Nat × Nat))} (h : Keeps s0 s) : OutKeeps s0 (execColdReset strap fails s) :=
    
  .ite .refused (.guardNext (.doBoot (.frame h)))

protected theorem Keeps.powerOff (h : Keeps s0 s) : Keeps s0 (powerOff s) :=
  .frame (.resetState (.flashLoss h))

protected theorem OutKeeps.execPwrgdFall (h : Keeps s0 s) : OutKeeps s0 (execPwrgdFall s) :=
  .guardNext (.powerOff h)

protected theorem OutKeeps.execWarmReset {strap : Nat} {fails : Met (List (Nat × Nat))} (h : Keeps s0 s) : OutKeeps s0 (execWarmReset strap fails s) :=
    
  .ite .refused (.guardNext (.doBoot (.frame h)))

protected theorem Keeps.mgmtReply {bs : List Nat} (h : Keeps s0 s) : Keeps s0 (mgmtReply s bs) :=
  .frame h

protected theorem Keeps.flashReply {bs : List Nat} (h : Keeps s0 s) : Keeps s0 (flashReply s bs) :=
  .ite (.mgmtReply h) (.flashThen (.mgmtReply h))

protected theorem Keeps.flashErased {a : Nat} {ok : Bool} (h : Keeps s0 s) : Keeps s0 (flashErased s a ok) :=
  .ite (.flashReply (.flashBegin (h.memory fun m => { m with flash := Memory.drop_wf (fun _ _ => rfl) m.flash }) fun hs => (h.mem hs).flash))
    (.flashReply (.flashFailRec (h.memory fun m => { m with flash := Memory.put_wf _ _ m.flash })))

protected theorem Keeps.flashProgrammed {a : Nat} {bs : List Nat} {ok : Bool} (h : Keeps s0 s) : Keeps s0 (flashProgrammed s a bs ok) :=
  .ite (.flashReply (.flashBegin (h.memory fun m => { m with flash := Memory.put_wf _ _ m.flash }) fun hs => (h.mem hs).flash))
    (.flashReply (.flashFailRec (h.memory fun m => { m with flash := Memory.put_wf _ _ m.flash })))

protected theorem Keeps.flashDo {c : FlashCmd} (h : Keeps s0 s) : Keeps s0 (flashDo s c) := by
  unfold flashDo
  split
  · exact .flashReply h
  · exact .flashErased h
  · exact .flashProgrammed h

protected theorem Keeps.perstUp (h : Keeps s0 s) : Keeps s0 (perstUp s) :=
  .ite (.frame h) (.foldl (fun _ _ h => .flashDo h) (.frame (.ite (.storeWrite (.ite (.evrAdd (.frame h)) (.frame h))) (.ite (.evrAdd (.frame h))
      (.frame h)))))

protected theorem OutKeeps.execPerstNDeassert (h : Keeps s0 s) : OutKeeps s0 (execPerstNDeassert s) :=
  .guardNext (.perstUp h)

protected theorem Keeps.farEvents (h : Keeps s0 s) : Keeps s0 (farEvents s) :=
  .foldl (fun _ _ h => .ite h (.ite (.evrAdd h) (.ite (.evrAdd h) (.ite (.evrAdd h) h)))) h

protected theorem OutKeeps.execFarMemoryTraining {fails : List Nat} (h : Keeps s0 s) : OutKeeps s0 (execFarMemoryTraining fails s) := by
  have hfar (c : Tbl FChan) (g : Tbl Gate) : Keeps s0 { s with fchans := c, far := {}, farEpoch := [], farTags := [], gates := g } :=
    h.memory fun m => { m with far := rfl }
  exact .ite .refused (.guardNext (.netMode (.farEvents (hfar _ _)) (by decide) (by dsimp only)))

protected theorem OutKeeps.execLanternWatchdogExpiry (h : Keeps s0 s) : OutKeeps s0 (execLanternWatchdogExpiry s) :=
  .guardNext (.doBoot (.freeStrap (.frame h)))

protected theorem Keeps.recoveryBoot {len : Nat} {fails : Met (List (Nat × Nat))} (h : Keeps s0 s) : Keeps s0 (recoveryBoot s len fails) :=
  .ite (.frame h) (.ite (.frame (.fwStart (evs := id) (fun _ h => h) h) (by dsimp only)) (.frame h))

protected theorem OutKeeps.execMgmtRecoveryBoot {len : Nat} {fails : Met (List (Nat × Nat))} (h : Keeps s0 s) :
    OutKeeps s0 (execMgmtRecoveryBoot len fails s) :=
  .ite .refused (.guardNext (.recoveryBoot h))

protected theorem Keeps.modelReload {h' : Nat} (h : Keeps s0 s) : Keeps s0 (modelReload s h') := by
  unfold modelReload
  dsimp only
  split
  · exact .ite h (.frame (.ite (.cachePin h) h))
  · exact h

protected theorem Keeps.spireFault {p j cause param : Nat} (h : Keeps s0 s) : Keeps s0 (spireFault s p j cause param) :=
  .jobFault (.modSp h)

protected theorem Keeps.spireCorrected {p src bank : Nat} (h : Keeps s0 s) : Keeps s0 (spireCorrected s p src bank) :=
  .modSp h

protected theorem Keeps.vaultUncorrectable {j : Option Nat} {pa : Nat} {kind : Option Nat} (h : Keeps s0 s) :
    Keeps s0 (vaultUncorrectable s j pa kind) := by
  unfold vaultUncorrectable
  dsimp only
  refine .ite ?_ ?_
  · exact .deviceFault (.vaultUeRec h)
  · split
    · split
      · exact .jobFault (.modelReload (.vaultUeRec h))
      · exact .modelReload (.vaultUeRec h)
    · split
      · exact .jobFault (.vaultUeRec h)
      · exact .vaultUeRec h

protected theorem Keeps.domeUncorrectable {j pa cls : Nat} (h : Keeps s0 s) : Keeps s0 (domeUncorrectable s j pa cls) :=
  .ite (.jobFault (.domeUeRec h)) (.ite (.domeUeRec h) (.deviceFault (.domeUeRec h)))

protected theorem Keeps.domeCe {sl : Nat} (h : Keeps s0 s) : Keeps s0 (domeCe s sl) :=
  .frame h

protected theorem Keeps.evMild {p : Option Nat} {ev : AccEv} (e : evMild s p ev = some t) (h : Keeps s0 s) : Keeps s0 t := by
  cases ev with
  | bankCycle bank ports =>
    obtain rfl := Option.some.inj e
    split
    · exact .modSp h
    · exact h
  | spireCe src bank =>
    obtain rfl := Option.some.inj e
    split
    · exact .spireCorrected h
    · exact h
  | vaultCe v c i => exact Option.some.inj e ▸ .vaultCe h
  | domeCe sl => exact Option.some.inj e ▸ .domeCe h
  | farCe pa => exact Option.some.inj e ▸ .farCe h
  | domeUe pa cls =>
    simp only [evMild] at e
    split at e
    · exact Option.some.inj e ▸ .domeUeRec h
    · cases e
  | spireUe _ _ => cases e
  | vaultUe _ => cases e
  | farUe _ => cases e
  | farTimeout _ => cases e
  | farLost _ => cases e
  | hostErr _ _ => cases e

/-- The mild events of an access, one after another. -/
protected theorem Keeps.evMilds {p : Option Nat} {ev : List AccEv} (h : Keeps s0 s) :
    Keeps s0 (ev.foldl (fun s e => (evMild s p e).getD s) s) := by
  refine .foldl (fun s e h => ?_) h
  cases he : evMild s p e with
  | none => exact h
  | some t => exact .evMild he h

protected theorem Keeps.faultLog {h' cause idx addr : Nat} (h : Keeps s0 s) : Keeps s0 (faultLog s h' cause idx addr) :=
  .evrAdd h

protected theorem Keeps.evFault {p j : Nat} {e : AccEv} (h : Keeps s0 s) : Keeps s0 (evFault s p j e) := by
  unfold evFault
  split
  · exact .ite (.spireFault h) h
  · exact .vaultUncorrectable h
  · exact .domeUncorrectable h
  · exact h

protected theorem Keeps.evFaultLate {h' l j : Nat} {e : AccEv} (h : Keeps s0 s) : Keeps s0 (evFaultLate s h' l j e) := by
  unfold evFaultLate
  dsimp only
  split
  · exact .faultLog h
  · exact .ite (.vaultUncorrectable h) (.faultLog (.vaultUncorrectable h))
  · exact .ite (.faultLog (.domeUeRec h)) (.domeUncorrectable h)
  · exact h

protected theorem Keeps.evFaults {p j h' l : Nat} {ev : List AccEv} (h : Keeps s0 s) : Keeps s0 (evFaults s p j h' l ev) :=
  .foldl (fun _ _ h => .ite (.evFault h) (.evFaultLate h)) h

protected theorem Keeps.evErr {h' j : Nat} {e : AccEv} (h : Keeps s0 s) : Keeps s0 (evErr s h' j e) := by
  unfold evErr
  dsimp only
  split
  · exact .farUeFence (fun _ h => .ite (.requestError h) (.reqErrRec h)) h
  · exact .farTimeoutFence (fun _ h => .ite (.requestError h) (.reqErrRec h)) h
  · exact .ite (.requestError h) (.reqErrRec h)
  · exact .ite (.requestError h) (.reqErrRec h)
  · exact h

protected theorem Keeps.evAll {p j : Nat} {ev : List AccEv} (h : Keeps s0 s) : Keeps s0 (evAll s p j ev) :=
  .foldl (fun _ _ h => .evErr h) (.evFaults (.evMilds h))

protected theorem Keeps.agentEv {j : Nat} {ev : List AccEv} {go drop : State → State} (hgo : ∀ s, Keeps s0 s → Keeps s0 (go s))
    (hdrop : ∀ s, Keeps s0 s → Keeps s0 (drop s)) (h : Keeps s0 s) : Keeps s0 (agentEv s j ev go drop) :=
  .ite (hgo _ (.evMilds h)) (.foldl (fun _ _ h => .evErr h) (.evFaults (hdrop _ (.evMilds h))))

protected theorem Keeps.dmaEv {j : Nat} {ev : AccEv} (h : Keeps s0 s) : Keeps s0 (dmaEv s j ev).1 := by
  unfold dmaEv
  split
  next t e => exact .evMild e h
  · split
    next pa _ => exact Keeps.vaultUncorrectable (j := some j) (pa := pa) h
    next pa cls _ => exact Keeps.domeUncorrectable (j := j) (pa := pa) (cls := cls) h
    · exact .farUeFence (own := id) (fun _ h => h) h
    · exact .farTimeoutFence (own := id) (fun _ h => h) h
    · exact h
    · exact Keeps.freshVal (n := 32) h
    · exact h

protected theorem Keeps.dmaEvs {j : Nat} {ev : List AccEv} (h : Keeps s0 s) : Keeps s0 (dmaEvs j s ev).1 := by
  induction ev generalizing s with
  | nil => exact h
  | cons ev es ih =>
    unfold dmaEvs
    split
    next t b e => exact .ofPair e (.dmaEv h)
    next t e =>
      have ht : Keeps s0 t := .ofPair e (.dmaEv h)
      split
      · exact ih ht
      · exact ht

protected theorem Keeps.patrolLine {v n : Nat} {lane : Option Nat} {ue : Bool} (h : Keeps s0 s) : Keeps s0 (patrolLine s v n lane ue) := by
  unfold patrolLine
  dsimp only
  refine .ite ?_ ?_
  · refine .vaultUeRec ?_
    split
    · exact .vaultCe (.frame h)
    · exact .frame h
  · split
    · exact .vaultCe (.frame h)
    · exact .frame h

protected theorem OutKeeps.execVaultPatrol {v : Nat} {lane : Option Nat} {ue : Bool} (h : Keeps s0 s) : OutKeeps s0 (execVaultPatrol v lane ue s) :=
  .ite .refused (.guardNext (.patrolLine h))

protected theorem Keeps.modQp {f qi : Nat} {g : QPair → QPair} (h : Keeps s0 s) : Keeps s0 (modQp s f qi g) := by
  unfold modQp
  split
  · exact .modFn h
  · exact h

protected theorem Keeps.adminUp {f : Nat} (h : Keeps s0 s) : Keeps s0 (adminUp s f) :=
  .ite (.setFn h) h

protected theorem Keeps.adminEnable {f : Nat} (h : Keeps s0 s) : Keeps s0 (adminEnable s f) :=
  .ite h (.adminUp (.modFn h))

protected theorem Keeps.adminDisable {f : Nat} (h : Keeps s0 s) : Keeps s0 (adminDisable s f) :=
  .modFn h

protected theorem OutKeeps.execAdminQueueEnable {f : Nat} (h : Keeps s0 s) : OutKeeps s0 (execAdminQueueEnable f s) :=
  .ite .refused (.guardNext (.adminEnable h))

protected theorem OutKeeps.execAdminQueueDisable {f : Nat} (h : Keeps s0 s) : OutKeeps s0 (execAdminQueueDisable f s) :=
  .ite .refused (.guardNext (.adminDisable h))

protected theorem Keeps.dbDrop {f : Nat} (h : Keeps s0 s) : Keeps s0 (dbDrop s f) :=
  .modFn h

protected theorem Keeps.newWait {f qi : Nat} {q : QPair} (h : Keeps s0 s) : Keeps s0 (newWait s f qi q) :=
  .ite (.msix (.modQp h)) (.modQp h)

protected theorem Keeps.sqTail {f qi v : Nat} {q : QPair} (h : Keeps s0 s) : Keeps s0 (sqTail s f qi v q) :=
  .ite (.queueError h) (.modQp h)

protected theorem Keeps.cqHeadDb {f qi v : Nat} {q : QPair} (h : Keeps s0 s) : Keeps s0 (cqHeadDb s f qi v q) :=
  .ite (.queueError h) (.cqDrain (.ite (.modQp h) (.newWait (.modQp h))))

protected theorem Keeps.doorbell {f qi off size v : Nat} (h : Keeps s0 s) : Keeps s0 (doorbell s f qi off size v) := by
  unfold doorbell
  refine .ite ?_ ?_
  · exact h
  · split
    · exact .dbDrop h
    · exact .ite (.dbDrop h) (.ite (.sqTail h) (.ite (.cqHeadDb h) (.dbDrop h)))

protected theorem OutKeeps.execSqTailDoorbell {f q off size v : Nat} (h : Keeps s0 s) : OutKeeps s0 (execSqTailDoorbell f q off size v s) :=
  .ite .refused (.guardNext (.doorbell h))

protected theorem OutKeeps.execCqHeadDoorbell {f q off size v : Nat} (h : Keeps s0 s) : OutKeeps s0 (execCqHeadDoorbell f q off size v s) :=
  .ite .refused (.guardNext (.doorbell h))

protected theorem OutKeeps.execMsixCoalesceTimeout {f q : Nat} (h : Keeps s0 s) : OutKeeps s0 (execMsixCoalesceTimeout f q s) := by
  unfold execMsixCoalesceTimeout
  split
  · exact .refused
  · exact .guardNext (.msix (.modQp h))

protected theorem Keeps.fetchTurn (h : Keeps s0 s) : Keeps s0 (fetchTurn s) :=
  .frame h

protected theorem Keeps.fetchEntry {f qi : Nat} {q : QPair} (h : Keeps s0 s) : Keeps s0 (fetchEntry s f qi q) := by
  unfold fetchEntry
  exact .ite (.frame (.modQp (.fetchTurn (.freshId h)))) (.complete (.modQp (.fetchTurn (.freshId h))))

protected theorem OutKeeps.execSqEntryFetch {f q : Nat} (h : Keeps s0 s) : OutKeeps s0 (execSqEntryFetch f q s) := by
  unfold execSqEntryFetch
  split
  · exact .refused
  · exact .guardNext (.fetchEntry h)

protected theorem Keeps.hostCmd {f q : Nat} {e : Entry} {queue : Nat} {pfOnly : Bool} {resv : Nat → Nat} {body : State → CmdRef → Nat → State}
    (hb : ∀ s r w, Keeps s0 s → Keeps s0 (body s r w)) (h : Keeps s0 s) : Keeps s0 (hostCmd s f q e queue pfOnly resv body) := by
  unfold hostCmd
  split
  · exact h
  · exact .ite (.complete (.frame h)) (.ite (.complete (.frame h)) (.ite (.complete (.frame h)) (hb _ _ _ (.frame h))))

protected theorem OutKeeps.hostExec {opc f q : Nat} {e : Entry} {ok : Bool} {queue : Nat} {pfOnly : Bool} {resv : Nat → Nat}
    {body : State → CmdRef → Nat → State} (hb : ∀ s r w, Keeps s0 s → Keeps s0 (body s r w)) (h : Keeps s0 s) :
    OutKeeps s0 (hostExec opc s f q e ok queue pfOnly resv body) :=
  .ite .refused (.guardNext (.hostCmd hb h))

protected theorem Keeps.withJob {r : CmdRef} {n : Nat} {body : Nat → Job → State} (hb : ∀ j x, Keeps s0 (body j x)) (h : Keeps s0 s) :
    Keeps s0 (withJob s r n body) := by
  unfold withJob
  split
  · exact .complete h
  · split
    · exact .complete h
    · exact .ite (.complete h) (hb _ _)

protected theorem Keeps.qpCreateBody {r : CmdRef} {w : Nat} (h : Keeps s0 s) : Keeps s0 (qpCreateBody s r w) :=
  .ite (.complete h) (.ite (.complete h) (.complete (.modFn h)))

protected theorem OutKeeps.execQpCreate {f q : Nat} {e : Entry} (h : Keeps s0 s) : OutKeeps s0 (execQpCreate f q e s) :=
  .hostExec (fun _ _ _ h => .qpCreateBody h) h

protected theorem Keeps.qpDeleteBody {r : CmdRef} {w : Nat} (h : Keeps s0 s) : Keeps s0 (qpDeleteBody s r w) := by
  unfold qpDeleteBody
  dsimp only
  split
  · exact .complete h
  · exact .ite (.complete h) (.complete (.modFn h))

protected theorem OutKeeps.execQpDelete {f q : Nat} {e : Entry} (h : Keeps s0 s) : OutKeeps s0 (execQpDelete f q e s) :=
  .hostExec (fun _ _ _ h => .qpDeleteBody h) h

protected theorem Keeps.qpAllotBody {r : CmdRef} {w : Nat} (h : Keeps s0 s) : Keeps s0 (qpAllotBody s r w) :=
  .ite (.complete h) (.ite (.complete h) (.complete (.adminUp (.modFn h))))

protected theorem OutKeeps.execQpAllot {f q : Nat} {e : Entry} (h : Keeps s0 s) : OutKeeps s0 (execQpAllot f q e s) :=
  .hostExec (fun _ _ _ h => .qpAllotBody h) h

protected theorem Keeps.zeroFrames {l : List Nat} (h : Keeps s0 s) : Keeps s0 (zeroFrames s l) :=
  .foldl (fun _ _ h => .zeroFrame h) h

protected theorem Keeps.dropModel {h' : Nat} (h : Keeps s0 s) : Keeps s0 (dropModel s h') := by
  unfold dropModel
  dsimp only
  split
  · exact .zeroFrames (.frame (.loadUnhold h))
  · exact .loadUnhold h

protected theorem Keeps.resetJob {j : Nat} (h : Keeps s0 s) : Keeps s0 (resetJob s j) := by
  unfold resetJob
  split
  · exact .releaseJob (.ite h (.ctlAll h))
  · exact h

protected theorem Keeps.fnReset1 {f : Nat} (h : Keeps s0 s) : Keeps s0 (fnReset1 s f) := by
  unfold fnReset1
  have hqps : Keeps s0 (modFn s f fun x => { x with qps := [], asyncOut := [], asyncWait := [] }) := .modFn h
  exact .ite (.netMode (.setFn (.frame (.foldl (fun _ _ h => .dropModel h) (.frame (.foldl (fun _ _ h => .resetJob h) (.arbForget (.frame hqps)))))))
      (ite_lt (by decide) (by decide)))
    (.setFn (.frame (.foldl (fun _ _ h => .dropModel h) (.frame (.foldl (fun _ _ h => .resetJob h) (.arbForget (.frame hqps)))))))

protected theorem Keeps.pfReset (h : Keeps s0 s) : Keeps s0 (pfReset s) :=
  .evrThaw (.fnReset1 (.foldl (fun _ _ h => .setFn (.fnReset1 h)) h))

protected theorem Keeps.doFlr {f : Nat} (h : Keeps s0 s) : Keeps s0 (doFlr s f) :=
  .ite (.pfReset h) (.fnReset1 h)

protected theorem OutKeeps.execFunctionLevelReset {f : Nat} (h : Keeps s0 s) : OutKeeps s0 (execFunctionLevelReset f s) :=
  .ite .refused (.guardNext (.doFlr h))

protected theorem OutKeeps.execHotReset (h : Keeps s0 s) : OutKeeps s0 (execHotReset s) :=
  .guardNext (.pfReset h)

protected theorem OutKeeps.execPmD3hotEntry {f : Nat} (h : Keeps s0 s) : OutKeeps s0 (execPmD3hotEntry f s) :=
  .ite .refused (.guardNext (.modFn h))

protected theorem OutKeeps.execVfEnable {n : Nat} (h : Keeps s0 s) : OutKeeps s0 (execVfEnable n s) :=
  .ite .refused (.guardNext (.foldl (fun _ _ h => .setFn h) h))

protected theorem Keeps.bar4Miss (h : Keeps s0 s) : Keeps s0 (bar4Miss s) :=
  .modFn h

protected theorem Keeps.bar4Answer {n : Nat} {bs : Option (List Nat)} (h : Keeps s0 s) : Keeps s0 (bar4Answer s n bs) := by
  unfold bar4Answer
  dsimp only
  split
  · exact .frame h
  · exact .frame (.freshVal h)

protected theorem Keeps.bar4Do {write : Bool} {off : Nat} {bs : List Nat} {ev : List AccEv} (h : Keeps s0 s) : Keeps s0 (bar4Do s write off bs ev) :=
    by
  unfold bar4Do
  split
  · refine .ite ?_ ?_
    · exact .bar4Miss h
    · split
      next t e _ =>
        exact .ite (.vaPut (.ofPair e (.dmaEvs h))) (.bar4Answer (.ofPair e (.dmaEvs h)))
      next t a b e _ =>
        exact .ite (.ofPair e (.dmaEvs h)) (.bar4Answer (.ofPair e (.dmaEvs h)))
  · exact .bar4Miss (.ite h (.frame h))

protected theorem OutKeeps.execBar4Access {write : Bool} {off : Nat} {d : Payload} (h : Keeps s0 s) : OutKeeps s0 (execBar4Access write off d s) :=
  .ite .refused (.ite .refused (.guardNext (.bar4Do h)))

protected theorem Keeps.asyncBody {r : CmdRef} {x : Nat} (h : Keeps s0 s) : Keeps s0 (asyncBody s r x) := by
  unfold asyncBody
  dsimp only
  split
  · exact .complete (.setFn h)
  · exact .ite (.complete h) (.setFn h)

protected theorem OutKeeps.execAsyncEvent {f q : Nat} {e : Entry} (h : Keeps s0 s) : OutKeeps s0 (execAsyncEvent f q e s) :=
  .hostExec (fun _ _ _ h => .asyncBody h) h

protected theorem Keeps.evrFreezeBody {r : CmdRef} {x : Nat} (h : Keeps s0 s) : Keeps s0 (evrFreezeBody s r x) :=
  .complete (.frame h)

protected theorem OutKeeps.execEvrFreeze {f q : Nat} {e : Entry} (h : Keeps s0 s) : OutKeeps s0 (execEvrFreeze f q e s) :=
  .hostExec (fun _ _ _ h => .evrFreezeBody h) h

protected theorem Keeps.evrUnfreezeBody {r : CmdRef} {x : Nat} (h : Keeps s0 s) : Keeps s0 (evrUnfreezeBody s r x) :=
  .complete (.evrThaw h)

protected theorem OutKeeps.execEvrUnfreeze {f q : Nat} {e : Entry} (h : Keeps s0 s) : OutKeeps s0 (execEvrUnfreeze f q e s) :=
  .hostExec (fun _ _ _ h => .evrUnfreezeBody h) h

protected theorem Keeps.clearSec {sec : Nat} (h : Keeps s0 s) : Keeps s0 (clearSec s sec) :=
  .ite h (.ringCompact h)

protected theorem Keeps.evrClear {mask : Nat} (h : Keeps s0 s) : Keeps s0 (evrClear s mask) :=
  .frame (.foldl (fun _ _ h => .clearSec h) (.frame h))

protected theorem Keeps.evrClearBody {r : CmdRef} {w : Nat} (h : Keeps s0 s) : Keeps s0 (evrClearBody s r w) :=
  .ite (.complete h) (.flashThen (.evrClear h))

protected theorem OutKeeps.execEvrClear {f q : Nat} {e : Entry} (h : Keeps s0 s) : OutKeeps s0 (execEvrClear f q e s) :=
  .hostExec (fun _ _ _ h => .evrClearBody h) h

protected theorem Keeps.calibReadBody {r : CmdRef} {w : Nat} (h : Keeps s0 s) : Keeps s0 (calibReadBody s r w) := by
  unfold calibReadBody
  dsimp only
  refine .ite ?_ ?_
  · refine .ite ?_ ?_
    · exact .complete h
    · split <;> exact .complete (.hostPut h)
  · refine .ite ?_ ?_
    · exact .complete h
    · split <;> exact .complete (.hostPut h)

protected theorem OutKeeps.execCalibRead {f q : Nat} {e : Entry} (h : Keeps s0 s) : OutKeeps s0 (execCalibRead f q e s) :=
  .hostExec (fun _ _ _ h => .calibReadBody h) h

protected theorem Keeps.calUnfinished {r : CmdRef} (h : Keeps s0 s) : Keeps s0 (calUnfinished s r) :=
  .complete (.freshVal h)

protected theorem Keeps.calBoard {r : CmdRef} {bs : List Nat} (h : Keeps s0 s) : Keeps s0 (calBoard s r bs) := by
  unfold calBoard
  dsimp only
  split
  · exact .flashThen (.storeWrite (.frame h))
  · exact .calUnfinished (.storeWrite (.frame h))

protected theorem Keeps.calSet {r : CmdRef} {c : List Nat} (h : Keeps s0 s) : Keeps s0 (calSet s r c) := by
  unfold calSet
  dsimp only
  split
  · exact .calUnfinished (.flashFailRec (.frame h))
  · exact .flashThen (.flashBegin (.frame h))

protected theorem Keeps.calibWriteBody {r : CmdRef} {w : Nat} (h : Keeps s0 s) : Keeps s0 (calibWriteBody s r w) :=
  .ite (.ite (.complete h) (.calBoard h)) (.ite (.complete h) (.calSet h))

protected theorem OutKeeps.execCalibWrite {f q : Nat} {e : Entry} (h : Keeps s0 s) : OutKeeps s0 (execCalibWrite f q e s) :=
  .hostExec (fun _ _ _ h => .calibWriteBody h) h

protected theorem Keeps.badEnd {j idx : Nat} {b : AccBad} (h : Keeps s0 s) : Keeps s0 (badEnd s j idx b) := by
  unfold badEnd
  split
  · exact .jobFault h
  · exact .requestError h

protected theorem Keeps.refuse {p j : Nat} {c : LCtx} {b : Chk} (h : Keeps s0 s) : Keeps s0 (refuse s p j c b) :=
  .ite (.endRequest (.modSp h)) (.jobFault (.modSp h))

protected theorem Keeps.issueOne {j lsp seq : Nat} {qsw : Bool} {l : Nat × List Nat} {pa : Nat} (h : Keeps s0 s) :
    Keeps s0 (issueOne s j lsp seq qsw l pa) :=
  .noteWrite (.frame (.freshId h))

protected theorem Keeps.issueWr {j lsp seq : Nat} {qsw : Bool} {va : Nat} {bs : List Nat} (h : Keeps s0 s) :
    Keeps s0 (issueWr s j lsp seq qsw va bs) := by
  unfold issueWr
  split
  · exact h
  · refine .foldl (fun _ _ h => ?_) ?_
    · split
      · exact h
      · exact .issueOne h
    · exact h

protected theorem Keeps.landEff {p j lsp seq : Nat} {e : Eff} (h : Keeps s0 s) : Keeps s0 (landEff s p j lsp seq e) :=
  .modJob (.foldl (fun _ _ h => .issueWr h) (.foldl (fun _ _ h => .issueWr h) (.modSp h)))

protected theorem Keeps.accFail {p j : Nat} {c : LCtx} {b : AccBad} (h : Keeps s0 s) : Keeps s0 (accFail s p j c b) := by
  unfold accFail
  split
  · exact .jobFault (.modSp h)
  · exact .requestError h

protected theorem OutKeeps.issue {o : Op} {form : Nat → Bool} {p : Nat} {w : IWord} {go : Iss → Nat → Out} (hgo : ∀ i n, OutKeeps s0 (go i n))
    (h : Keeps s0 s) : OutKeeps s0 (issue o form s p w go) := by
  unfold issue
  refine .ite .refused ?_
  split
  · exact .refused
  · exact .ite .refused (.ite (.next (.refuse h)) (.ite (.next (.modSp h)) (.ite .refused (hgo _ _))))

protected theorem Keeps.atOnce {p : Nat} {c : LCtx} (h : Keeps s0 s) : Keeps s0 (atOnce s p c) :=
  .modSp h

protected theorem Keeps.dataGo {p : Nat} {i : Iss} {w : Nat} {d : DataOp} (hpost : ∀ s, Keeps s0 s → Keeps s0 (d.post s)) (h : Keeps s0 s) :
    Keeps s0 (dataGo s p i w d) := by
  unfold dataGo
  split
  · exact .accFail h
  · exact hpost _ (.landEff (.modSp h))

protected theorem OutKeeps.dataStep {p : Nat} {i : Iss} {w : Nat} {d : DataOp} {ev : List AccEv} (hpost : ∀ s, Keeps s0 s → Keeps s0 (d.post s))
    (h : Keeps s0 s) : OutKeeps s0 (dataStep s p i w d ev) := by
  unfold dataStep
  split
  · exact .next (.refuse h)
  · exact .guardNext (.evAll (.dataGo hpost h))

protected theorem OutKeeps.dataIssue {o : Op} {form : Nat → Bool} {p : Nat} {w : IWord} {mk : State → Nat → Iss → Nat → DataOp} {ev : List AccEv}
    (hpost : ∀ i n t, Keeps s0 t → Keeps s0 ((mk s p i n).post t)) (h : Keeps s0 s) : OutKeeps s0 (dataIssue o form s p w mk ev) :=
  .ite .refused (.issue (fun i n => .dataStep (hpost i n) h) h)

protected theorem OutKeeps.wordMet {p : Nat} {m : Met IWord} {may : Iss → AccEv → Bool} {o : Out} (ho : OutKeeps s0 o) :
    OutKeeps s0 (wordMet s p m may o) := by
  unfold wordMet
  refine .ite .refused ?_
  split
  · have ht := ho _ rfl
    exact .guardNext (.ite (.evAll ht) ht)
  · exact ho

protected theorem OutKeeps.seqIssue {o : Op} {form : Nat → Bool} {p : Nat} {m : Met IWord} {go : Iss → Nat → Out}
    (hgo : ∀ i n, OutKeeps s0 (go i n)) (h : Keeps s0 s) : OutKeeps s0 (seqIssue o form s p m go) :=
  .wordMet (.issue hgo h)

protected theorem OutKeeps.execMma {p : Nat} {w : IWord} {ev : List AccEv} (h : Keeps s0 s) : OutKeeps s0 (execMma p w ev s) :=
  .dataIssue (fun _ _ _ h => h) h

protected theorem Keeps.pstrGo {p j : Nat} {y : Job} {c : LCtx} {f : InFl} (h : Keeps s0 s) : Keeps s0 (pstrGo s p j y c f) := by
  unfold pstrGo
  dsimp only
  refine .ite ?_ ?_
  · exact .modSp (.landEff h)
  · split
    · exact .accFail h
    · exact .landEff (.modSp h)

protected theorem OutKeeps.execPstrMgroupStart {p seq : Nat} (h : Keeps s0 s) : OutKeeps s0 (execPstrMgroupStart p seq s) := by
  unfold execPstrMgroupStart
  split
  · split
    · split
      · exact .guardNext (.accFail h)
      · exact .guardNext (.pstrGo h)
    · exact .refused
  · exact .refused

protected theorem OutKeeps.execMma2 {p : Nat} {w : IWord} {ev : List AccEv} (h : Keeps s0 s) : OutKeeps s0 (execMma2 p w ev s) :=
  .dataIssue (fun _ _ _ h => h) h

protected theorem OutKeeps.execVopTensor {p : Nat} {w : IWord} {ev : List AccEv} (h : Keeps s0 s) : OutKeeps s0 (execVopTensor p w ev s) :=
  .dataIssue (fun _ _ _ h => h) h

protected theorem OutKeeps.execVopScalar {p : Nat} {w : Met IWord} (h : Keeps s0 s) : OutKeeps s0 (execVopScalar p w s) :=
  .seqIssue (fun _ _ => .next (.atOnce h)) h

protected theorem OutKeeps.execVopDescriptor {p : Nat} {w : Met IWord} (h : Keeps s0 s) : OutKeeps s0 (execVopDescriptor p w s) :=
  .seqIssue (fun _ _ => .next (.atOnce h)) h

protected theorem OutKeeps.execSfn {p : Nat} {w : IWord} {ev : List AccEv} (h : Keeps s0 s) : OutKeeps s0 (execSfn p w ev s) :=
  .dataIssue (fun _ _ _ h => h) h

protected theorem OutKeeps.execRstat {p : Nat} {w : IWord} {ev : List AccEv} (h : Keeps s0 s) : OutKeeps s0 (execRstat p w ev s) :=
  .dataIssue (fun _ _ _ h => h) h

protected theorem OutKeeps.execCdw {p : Nat} {w : IWord} {ev : List AccEv} (h : Keeps s0 s) : OutKeeps s0 (execCdw p w ev s) :=
  .dataIssue (fun _ _ _ h => h) h

protected theorem OutKeeps.execAttn {p : Nat} {w : IWord} {ev : List AccEv} (h : Keeps s0 s) : OutKeeps s0 (execAttn p w ev s) :=
  .dataIssue (fun _ _ _ h => .ite h (.modSp (.freshId (.pfxPin h)))) h

protected theorem OutKeeps.execQnt {p : Nat} {w : IWord} {ev : List AccEv} (h : Keeps s0 s) : OutKeeps s0 (execQnt p w ev s) :=
  .dataIssue (fun _ _ _ h => h) h

protected theorem OutKeeps.execDqt {p : Nat} {w : IWord} {ev : List AccEv} (h : Keeps s0 s) : OutKeeps s0 (execDqt p w ev s) :=
  .dataIssue (fun _ _ _ h => h) h

protected theorem OutKeeps.execMove {p : Nat} {w : IWord} {ev : List AccEv} (h : Keeps s0 s) : OutKeeps s0 (execMove p w ev s) :=
  .dataIssue (fun _ _ _ h => h) h

protected theorem OutKeeps.execComb {p : Nat} {w : IWord} {ev : List AccEv} (h : Keeps s0 s) : OutKeeps s0 (execComb p w ev s) :=
  .dataIssue (fun _ _ _ h => h) h

protected theorem OutKeeps.execLoop {p : Nat} {w : Met IWord} (h : Keeps s0 s) : OutKeeps s0 (execLoop p w s) :=
  .seqIssue (fun _ _ => .ite (.next (.refuse h)) (.next (.atOnce h))) h

protected theorem Keeps.stolenEnd {p : Nat} {t : Stolen} (h : Keeps s0 s) : Keeps s0 (stolenEnd s p t) := by
  unfold stolenEnd
  exact .modSp (.modSp h)

protected theorem Keeps.traceAdd {j : Nat} {ms : List (List Nat)} (h : Keeps s0 s) : Keeps s0 (traceAdd s j ms) :=
  .ite h (.modJob h)

protected theorem OutKeeps.execEndl {p : Nat} {w : Met IWord} (h : Keeps s0 s) : OutKeeps s0 (execEndl p w s) := by
  unfold execEndl
  refine .seqIssue (fun _ _ => ?_) h
  split
  · exact .guardNext (.stolenEnd h)
  · exact .guardNext (.traceAdd (.atOnce h))

protected theorem OutKeeps.execBr {p : Nat} {w : Met IWord} (h : Keeps s0 s) : OutKeeps s0 (execBr p w s) :=
  .seqIssue (fun _ _ => .next (.atOnce h)) h

protected theorem OutKeeps.execYield {p : Nat} {w : Met IWord} (h : Keeps s0 s) : OutKeeps s0 (execYield p w s) :=
  .seqIssue (fun _ _ => .next (.modSp h)) h

protected theorem OutKeeps.execHalt {p : Nat} {w : Met IWord} (h : Keeps s0 s) : OutKeeps s0 (execHalt p w s) :=
  .seqIssue (fun _ _ => .next (.atOnce h)) h

protected theorem Keeps.gateGo {p : Nat} {i : Iss} {pd : Nat} {g : GateDec} (h : Keeps s0 s) : Keeps s0 (gateGo s p i pd g) :=
  .modJob (.atOnce h)

protected theorem OutKeeps.execGate {p : Nat} {w : Met IWord} (h : Keeps s0 s) : OutKeeps s0 (execGate p w s) := by
  unfold execGate
  dsimp only
  refine .wordMet ?_
  refine .issue (fun _ _ => ?_) h
  split
  · exact .next (.refuse h)
  · refine .guardNext ?_
    split
    · exact .accFail h
    · exact .gateGo h

protected theorem OutKeeps.execFinial {p : Nat} {w : Met IWord} (h : Keeps s0 s) : OutKeeps s0 (execFinial p w s) :=
  .seqIssue (fun _ _ => .next (.ite (.modSp (.atOnce h)) (.traceAdd (.atOnce h)))) h

protected theorem Keeps.finish {p : Nat} {f : InFl} (h : Keeps s0 s) : Keeps s0 (finish s p f) := by
  unfold finish
  dsimp only
  refine .modSp ?_
  split
  · exact .pfxPin h
  · exact h

protected theorem OutKeeps.execInstructionComplete {p seq : Nat} (h : Keeps s0 s) : OutKeeps s0 (execInstructionComplete p seq s) := by
  unfold execInstructionComplete
  split
  · exact .guardNext (.finish h)
  · exact .refused

protected theorem OutKeeps.execSpireHang {p : Nat} (h : Keeps s0 s) : OutKeeps s0 (execSpireHang p s) := by
  unfold execSpireHang
  split
  · exact .guardNext (.spireFault h)
  · exact .refused

protected theorem Keeps.spillPut {pages : List Nat} {off : Nat} {bs : List Nat} (h : Keeps s0 s) : Keeps s0 (spillPut s pages off bs) :=
  .foldl (fun _ _ h => .paPut h) h

protected theorem Keeps.spillFree {pages : List Nat} {off n : Nat} (h : Keeps s0 s) : Keeps s0 (spillFree s pages off n) :=
  .foldl (fun _ _ h => .frame (.freeMem h)) h

protected theorem Keeps.spillWrite {j : Nat} {c : LCtx} (h : Keeps s0 s) : Keeps s0 (spillWrite s j c) := by
  unfold spillWrite
  split
  · exact h
  · dsimp only
    split
    · exact h
    · have hframe (ps : List Nat) (off : Nat) : Keeps s0 (spillPut (spillFree (spillPut s ps off (frameBytes c)) ps (off + 0x1900) 448) ps
          (off + 0x1AC0) (List.replicate 1344 0)) := .spillPut (.spillFree (.spillPut h))
      refine .spillPut ?_
      split
      · exact .spillFree (hframe _ _)
      · exact hframe _ _

protected theorem Keeps.spillOpt {p : Nat} {o : Option LCtx} (h : Keeps s0 s) : Keeps s0 (spillOpt s p o) := by
  unfold spillOpt
  split
  · exact .spillWrite h
  · exact h

protected theorem Keeps.saveMet {p j : Nat} {ev : List AccEv} (h : Keeps s0 s) (ht : Keeps s0 t) : Keeps s0 (saveMet s p j ev t) :=
  .ite (.evAll h) (.evAll ht)

protected theorem Keeps.doChange {p : Nat} (h : Keeps s0 s) : Keeps s0 (doChange s p) := by
  unfold doChange
  dsimp only
  split
  · exact .spillOpt (.setSp (.freshId h))
  · exact h

protected theorem OutKeeps.execCarriedSpireChange {m : Met Nat} (h : Keeps s0 s) : OutKeeps s0 (execCarriedSpireChange m s) :=
  .guardNext (.saveMet h (.doChange h))

protected theorem OutKeeps.execCarriedSpireQuantum {p : Nat} (h : Keeps s0 s) : OutKeeps s0 (execCarriedSpireQuantum p s) :=
  .guardNext (.modSp h)

protected theorem Keeps.doSteal {p owner : Nat} {c : LCtx} {f : LoopFr} (h : Keeps s0 s) : Keeps s0 (doSteal s p owner c f) := by
  unfold doSteal
  exact .modSp (.modSp h)

protected theorem OutKeeps.execStealIteration {p owner : Nat} (h : Keeps s0 s) : OutKeeps s0 (execStealIteration p owner s) := by
  unfold execStealIteration
  refine .ite ?_ ?_
  · exact .refused
  · split
    · exact .guardNext (.doSteal h)
    · exact .refused

protected theorem OutKeeps.spCtrlWrite {p : Nat} (h : Keeps s0 s) (ht : Keeps s0 t) : OutKeeps s0 (spCtrlWrite s p t) :=
  .guardNext (.ite h ht)

protected theorem OutKeeps.execSaveReq {p : Nat} (h : Keeps s0 s) : OutKeeps s0 (execSaveReq p s) :=
  .ite .refused (.spCtrlWrite h (.modSp h))

protected theorem Keeps.doSave {p j : Nat} (h : Keeps s0 s) : Keeps s0 (doSave s p j) := by
  unfold doSave
  exact .modSp (.spillOpt (.spillOpt (.modJob (.freshId h))))

protected theorem OutKeeps.execSaveComplete {m : Met Nat} (h : Keeps s0 s) : OutKeeps s0 (execSaveComplete m s) := by
  unfold execSaveComplete
  split
  · exact .guardNext (.saveMet h (.doSave h))
  · exact .refused

protected theorem Keeps.clearReg {p : Nat} (h : Keeps s0 s) : Keeps s0 (clearReg s p) :=
  .ite (.doClear h) h

protected theorem OutKeeps.execClear {p : Nat} (h : Keeps s0 s) : OutKeeps s0 (execClear p s) :=
  .ite .refused (.spCtrlWrite h (.clearReg h))

protected theorem OutKeeps.execRun {p : Nat} (h : Keeps s0 s) : OutKeeps s0 (execRun p s) :=
  .ite .refused (.spCtrlWrite h (.modSp h))

protected theorem OutKeeps.execSfnCompat {p : Nat} {on : Bool} (h : Keeps s0 s) : OutKeeps s0 (execSfnCompat p on s) :=
  .ite .refused (.spCtrlWrite h (.modSp h))

protected theorem Keeps.semSet {scope home key v : Nat} (h : Keeps s0 s) : Keeps s0 (semSet s scope home key v) :=
  .ite (.frame h) (.paPut h)

protected theorem Keeps.plainGo {p : Nat} {i : Iss} {f : InFl} (h : Keeps s0 s) : Keeps s0 (plainGo s p i f) :=
  .modSp h

protected theorem OutKeeps.execSig {p : Nat} {w : Met IWord} (h : Keeps s0 s) : OutKeeps s0 (execSig p w s) := by
  unfold execSig
  dsimp only
  refine .seqIssue (fun _ _ => ?_) h
  split
  · exact .next (.refuse h)
  · exact .next (.frame (.freshId (.plainGo h)))

protected theorem OutKeeps.execWaits {p : Nat} {w : Met IWord} (h : Keeps s0 s) : OutKeeps s0 (execWaits p w s) := by
  unfold execWaits
  dsimp only
  refine .seqIssue (fun _ _ => ?_) h
  split
  · exact .next (.refuse h)
  · exact .next (.atOnce (.freshId h))

protected theorem OutKeeps.execFence {p : Nat} {w : Met IWord} (h : Keeps s0 s) : OutKeeps s0 (execFence p w s) :=
  .seqIssue (fun _ _ => .next (.plainGo h)) h

protected theorem OutKeeps.execFenceComplete {p seq : Nat} (h : Keeps s0 s) : OutKeeps s0 (execFenceComplete p seq s) := by
  unfold execFenceComplete
  split
  · exact .guardNext (.finish h)
  · exact .refused

protected theorem Keeps.dropWrite {w : PWr} (h : Keeps s0 s) : Keeps s0 (dropWrite w s) :=
  .frame h

protected theorem Keeps.windowWrite {w : PWr} (h : Keeps s0 s) : Keeps s0 (windowWrite w s) := by
  unfold windowWrite
  split
  · exact .badEnd (.dropWrite h)
  · exact .applyWr h

protected theorem Keeps.homeWrite {w : PWr} {ev : List AccEv} (h : Keeps s0 s) : Keeps s0 (homeWrite s w ev) :=
  .agentEv (fun _ h => .windowWrite h) (fun _ h => .dropWrite h) h

protected theorem OutKeeps.execHomeWriteApply {id : HomeApply} (h : Keeps s0 s) : OutKeeps s0 (execHomeWriteApply id s) := by
  unfold execHomeWriteApply
  split
  · exact .guardNext (.homeWrite h)
  · exact .refused

protected theorem Keeps.waitOk {a : AtHome} (h : Keeps s0 s) : Keeps s0 (waitOk s a) := by
  unfold waitOk
  exact .modSp h

protected theorem Keeps.grantDec {scope home key : Nat} {count : Bool} {a : AtHome} (h : Keeps s0 s) : Keeps s0 (grantDec scope home key count s a) :=
  .ite h (.ite (.modSp (.ite (.waitOk (.semSet h)) (.noteWrite (.waitOk (.semSet h))))) (.ite (.waitOk (.semSet h)) (.noteWrite (.waitOk (.semSet
      h)))))

protected theorem Keeps.detViolation {scope : Nat} {d : List AtHome} (h : Keeps s0 s) : Keeps s0 (detViolation s scope d) := by
  unfold detViolation
  split
  · exact h
  · exact .jobFault (.evrAdd h)

protected theorem Keeps.decStep {scope home : Nat} {order : List Nat} {key : Nat} (h : Keeps s0 s) : Keeps s0 (decStep scope home order s key) :=
  .ite (.foldl (fun _ _ h => .grantDec h) h) (.ite (.detViolation h) (.foldl (fun _ _ h => .grantDec h) h))

protected theorem Keeps.noteAll (h : Keeps s0 s) : Keeps s0 (noteAll t s) := .frame h

protected theorem Keeps.homeCycle {scope home : Nat} {sigs order : List Nat} (h : Keeps s0 s) : Keeps s0 (homeCycle s scope home sigs order) :=
  .noteAll (.foldl (fun _ _ h => .decStep h) (.foldl (fun _ _ h => .waitOk h) (.foldl (fun _ _ h => .sigApply h) h)))

protected theorem Keeps.homeMet {scope home : Nat} {sigs : List Nat} {ev : List AccEv} (h : Keeps s0 s) : Keeps s0 (homeMet s scope home sigs ev) :=
    by
  unfold homeMet
  refine .foldl (fun _ _ h => ?_) ?_
  · split
    · exact .domeCe h
    · exact .domeUncorrectable h
    · exact h
  · exact h

protected theorem OutKeeps.execSemaphoreHomeCycle {scope home : Nat} {sigs : List Nat} {order : Met (List Nat)} (h : Keeps s0 s) :
    OutKeeps s0 (execSemaphoreHomeCycle scope home sigs order s) :=
  .ite .refused (.guardNext (.homeCycle (.homeMet h)))

protected theorem Keeps.portDown {pi : Nat} (h : Keeps s0 s) : Keeps s0 (portDown s pi) :=
  .modPort h

protected theorem Keeps.faultMulti {cause : Nat} {pick : Job → Bool} (h : Keeps s0 s) : Keeps s0 (faultMulti s cause pick) :=
  .foldl (fun _ _ h => .jobFault h) h

protected theorem Keeps.linkLost {pi : Nat} (h : Keeps s0 s) : Keeps s0 (linkLost s pi) :=
  .ite (.faultMulti (.portDown h)) (.portDown h)

protected theorem Keeps.portTrain {pi lanes : Nat} (h : Keeps s0 s) : Keeps s0 (portTrain s pi lanes) :=
  .modPort h

protected theorem OutKeeps.execPortTraining {pi lanes : Nat} (h : Keeps s0 s) : OutKeeps s0 (execPortTraining pi lanes s) :=
  .ite .refused (.guardNext (.portTrain h))

protected theorem OutKeeps.execPortTrainRetry {pi lanes : Nat} (h : Keeps s0 s) : OutKeeps s0 (execPortTrainRetry pi lanes s) :=
  .ite .refused (.guardNext (.portTrain h))

protected theorem OutKeeps.execLinkDown {pi : Nat} (h : Keeps s0 s) : OutKeeps s0 (execLinkDown pi s) :=
  .ite .refused (.guardNext (.linkLost h))

protected theorem Keeps.linkSend {pi : Nat} {nak : Bool} (h : Keeps s0 s) : Keeps s0 (linkSend s pi nak) :=
  .ite h (.portSend h)

protected theorem Keeps.nakOnce {pi : Nat} (h : Keeps s0 s) : Keeps s0 (nakOnce s pi) :=
  .ite h (.linkSend (.modPort h))

protected theorem Keeps.redLanded {f : OutFr} (h : Keeps s0 s) : Keeps s0 (redLanded s f) :=
  .ite (.frame h) h

protected theorem Keeps.ackTo {pi a : Nat} (h : Keeps s0 s) : Keeps s0 (ackTo s pi a) := by
  unfold ackTo
  dsimp only
  split
  · exact h
  · exact .foldl (fun _ _ h => .redLanded h) (.modPort h)

protected theorem Keeps.replay {pi : Nat} (h : Keeps s0 s) : Keeps s0 (replay s pi) :=
  .ite h (.ite (.linkLost (.frame (.modPort h))) (.frame (.modPort h)))

protected theorem Keeps.stray {pi : Nat} (h : Keeps s0 s) : Keeps s0 (stray s pi) :=
  .modPort h

protected theorem Keeps.linkTake {f : Frame} {n : Nat} (h : Keeps s0 s) : Keeps s0 (linkTake s f n).1 := by
  unfold linkTake
  dsimp only
  split
  · exact .nakOnce (.modPort h)
  · split
    · exact .stray h
    · split
      · exact .ite (.nakOnce h) h
      · exact .portRun (.ite (.replay (.ite (.ackTo (.modPort h)) (.modPort h))) (.ite (.ackTo (.modPort h)) (.modPort h)))

protected theorem OutKeeps.rx {f : Frame} {type n : Nat} {body : State → State} (hb : ∀ s, Keeps s0 s → Keeps s0 (body s)) (h : Keeps s0 s) :
    OutKeeps s0 (rx s f type n body) :=
  .ite .refused (.guardNext (.ite (hb _ (.linkTake h)) (.linkTake h)))

protected theorem OutKeeps.execLink {f : Frame} (h : Keeps s0 s) : OutKeeps s0 (execLink f s) :=
  .rx (fun _ h => h) h

protected theorem OutKeeps.execAckTimer {pi : Nat} (h : Keeps s0 s) : OutKeeps s0 (execAckTimer pi s) :=
  .guardNext (.foldl (fun _ _ h => .ite (.linkSend h) h) (.linkSend h))

protected theorem OutKeeps.execReplayTimeout {pi : Nat} (h : Keeps s0 s) : OutKeeps s0 (execReplayTimeout pi s) :=
  .guardNext (.portRun (.replay h))

protected theorem OutKeeps.execHelloTimer {pi : Nat} (h : Keeps s0 s) : OutKeeps s0 (execHelloTimer pi s) :=
  .guardNext (.portSend h)

protected theorem Keeps.evrFree {code sev src : Nat} (h : Keeps s0 s) : Keeps s0 (evrFree s code sev src) :=
  .evrAdd (.freshVal (.freshVal (.freshVal (.freshVal h))))

protected theorem Keeps.mismatch {pi : Nat} (h : Keeps s0 s) : Keeps s0 (mismatch s pi) :=
  .ite h (.faultMulti (.evrFree (.modPort h)))

protected theorem Keeps.portsAgree (h : Keeps s0 s) : Keeps s0 (portsAgree s) := by
  unfold portsAgree
  dsimp only
  split
  · exact .foldl (fun _ _ h => .ite (.mismatch h) h) h
  · exact .foldl (fun _ _ h => .ite (.mismatch h) h) (.foldl (fun _ _ h => .ite (.mismatch h) h) h)

protected theorem Keeps.lostMembers {pi : Nat} (h : Keeps s0 s) : Keeps s0 (lostMembers s pi) :=
  .ite (.faultMulti h) h

protected theorem Keeps.rosterIn {pi tower pos gen mib : Nat} {present : List (Nat × Nat)} (h : Keeps s0 s) :
    Keeps s0 (rosterIn s pi tower pos gen mib present) :=
  .lostMembers (.portsAgree (.ite (.modPort h) (.modPort (.modPort h))))

protected theorem OutKeeps.execRoster {f : Frame} {tower pos gen mib : Nat} {present : List (Nat × Nat)} (h : Keeps s0 s) :
    OutKeeps s0 (execRoster f tower pos gen mib present s) :=
  .ite .refused (.rx (fun _ h => .rosterIn h) h)

protected theorem OutKeeps.execTowers {f : Frame} {gen : Nat} {map : List Nat} (h : Keeps s0 s) : OutKeeps s0 (execTowers f gen map s) :=
  .ite .refused (.rx (fun _ h => .lostMembers (.modPort h)) h)

protected theorem Keeps.ctlIn {f : Frame} {l : Nat} {body : State → Nat → Job → State} (hb : ∀ s j x, Keeps s0 s → Keeps s0 (body s j x))
    (h : Keeps s0 s) : Keeps s0 (ctlIn s f l body) := by
  unfold ctlIn
  split
  · exact .ite (hb _ _ _ h) (.stray h)
  · exact .stray h

protected theorem OutKeeps.execBeatTimer {j : Nat} (h : Keeps s0 s) : OutKeeps s0 (execBeatTimer j s) := by
  unfold execBeatTimer
  split
  · exact .refused
  · exact .guardNext (.modJob (.ctlSend h))

protected theorem OutKeeps.execBeat {f : Frame} {l : Nat} (h : Keeps s0 s) : OutKeeps s0 (execBeat f l s) :=
  .rx (fun _ h => .ctlIn (fun _ _ _ h => .ite (.modJob h) h) h) h

protected theorem OutKeeps.execBeatTimeout {j : Nat} (h : Keeps s0 s) : OutKeeps s0 (execBeatTimeout j s) := by
  unfold execBeatTimeout
  split
  · exact .refused
  · exact .guardNext (.faultMulti h)

protected theorem OutKeeps.execJobFault {f : Frame} {l cause : Nat} (h : Keeps s0 s) : OutKeeps s0 (execJobFault f l cause s) :=
  .ite .refused (.rx (fun _ h => .ctlIn (fun _ _ _ h => .jobFaultX h) h) h)

protected theorem OutKeeps.execLanded {f : Frame} {l seq : Nat} (h : Keeps s0 s) : OutKeeps s0 (execLanded f l seq s) :=
  .rx (fun _ h => .ctlIn (fun _ _ _ h => .modJob h) h) h

protected theorem Keeps.mapSet {j : Nat} {g : Grp} {m slot : Nat} {v : Bool} (h : Keeps s0 s) : Keeps s0 (mapSet s j g m slot v) := by
  unfold mapSet
  dsimp only
  split
  · exact h
  · exact .vaPutReq h

protected theorem Keeps.raPut {j : Nat} {x : Job} {g : Grp} {slot off : Nat} {bs : List Nat} (h : Keeps s0 s) : Keeps s0 (raPut s j x g slot off bs) :=
    
  .ite (.modSp h) (.vaPutReq h)

protected theorem Keeps.vaZero {j va n : Nat} (h : Keeps s0 s) : Keeps s0 (vaZero s j va n) := by
  unfold vaZero
  refine .foldl (fun _ _ h => ?_) ?_
  · split
    · split
      · exact .noteWrite (.ite (.zeroMem h) (.paPut h))
      · exact h
    · exact h
  · exact h

protected theorem Keeps.raZero {j : Nat} {x : Job} {g : Grp} {slot off : Nat} (h : Keeps s0 s) : Keeps s0 (raZero s j x g slot off) :=
  .ite h (.ite (.modSp h) (.vaZero h))

protected theorem Keeps.recvRetest {j : Nat} (h : Keeps s0 s) : Keeps s0 (recvRetest s j) := by
  unfold recvRetest
  split
  · exact h
  · exact .foldl (fun _ _ h => .ite (.modSp h) h) h

protected theorem Keeps.armSlot {j : Nat} {g : Grp} {slot : Nat} (h : Keeps s0 s) : Keeps s0 (armSlot s j g slot) := by
  unfold armSlot
  split
  · exact h
  · exact .ite h (.mapSet (.mapSet (.vaPutReq h)))

protected theorem OutKeeps.execXrecvArm {p : Nat} {w : Met IWord} (h : Keeps s0 s) : OutKeeps s0 (execXrecvArm p w s) := by
  unfold execXrecvArm
  refine .wordMet ?_
  refine .issue (fun _ _ => ?_) h
  split
  · exact .next (.refuse h)
  · refine .next ?_
    split
    · exact .accFail h
    · exact .ite (.atOnce h) (.foldl (fun _ _ h => .armSlot h) (.atOnce h))

protected theorem OutKeeps.execXrecvWait {p : Nat} {w : Met IWord} (h : Keeps s0 s) : OutKeeps s0 (execXrecvWait p w s) := by
  unfold execXrecvWait
  dsimp only
  refine .wordMet ?_
  refine .issue (fun _ _ => ?_) h
  split
  · exact .next (.refuse h)
  · refine .next ?_
    split
    · exact .accFail h
    · exact .recvRetest (.ite (.atOnce (.freshId h)) (.modJob (.atOnce (.freshId h))))

protected theorem Keeps.landEnd {j : Nat} {g : Grp} {slot b : Nat} (h : Keeps s0 s) : Keeps s0 (landEnd s j g slot b) := by
  unfold landEnd
  dsimp only
  split
  · exact h
  · exact .recvRetest (.modJob (.mapSet (.mapSet (.vaPutReq (.raZero h)))))

protected theorem Keeps.landBytes {j : Nat} {x : Job} {g : Grp} {slot off : Nat} {bs : List Nat} (h : Keeps s0 s) :
    Keeps s0 (landBytes s j x g slot off bs) :=
  .raPut h

protected theorem Keeps.landChk {j : Nat} {x : Job} {acc : List (Nat × Nat)} {ev : List AccEv} {go : State → State}
    (hgo : ∀ s, Keeps s0 s → Keeps s0 (go s)) (h : Keeps s0 s) : Keeps s0 (landChk s j x acc ev go) := by
  unfold landChk
  split
  · exact .badEnd h
  · exact .agentEv hgo (fun _ h => h) h

protected theorem Keeps.landLocal {j gi : Nat} {g : Grp} {slot : Nat} {bs : List Nat} {lost : Bool} (h : Keeps s0 s) :
    Keeps s0 (landLocal s j gi g slot bs lost) := by
  unfold landLocal
  split
  · exact h
  · split
    · exact .badEnd h
    · exact .ite h (.ite (.jobFault h) (.landChk (fun _ h => .landEnd (.landBytes h)) h))

protected theorem Keeps.landFrame {f : Frame} {j : Nat} {x : Job} {g : Grp} {src : Nat} {bs : List Nat} {ev : List AccEv} {done : State → State}
    (hdone : ∀ s, Keeps s0 s → Keeps s0 (done s)) (h : Keeps s0 s) : Keeps s0 (landFrame s f j x g src bs ev done) := by
  unfold landFrame
  dsimp only
  split
  · exact .badEnd h
  · exact .ite (.jobFault h) (.landChk (fun _ h => .ite (hdone _ (.landEnd (.frame (.landBytes h)))) (.frame (.landBytes h))) h)

protected theorem Keeps.landedSend {j src group slot : Nat} (h : Keeps s0 s) : Keeps s0 (landedSend j src group slot s) := by
  unfold landedSend
  split
  · exact .ctlSend h
  · exact h

protected theorem Keeps.dataIn {f : Frame} {bs : List Nat} {ev : List AccEv} (h : Keeps s0 s) : Keeps s0 (dataIn s f bs ev) := by
  unfold dataIn
  split
  · exact .stray h
  · split
    · exact .landFrame (fun _ h => .landedSend h) h
    · exact .stray h

protected theorem OutKeeps.rxLand {f : Frame} {type : Nat} {d : Payload} {body : State → List Nat → State}
    (hb : ∀ s bs, Keeps s0 s → Keeps s0 (body s bs)) (h : Keeps s0 s) : OutKeeps s0 (rxLand s f type d body) :=
  .ite .refused (.ite .refused (.rx (fun _ h => hb _ _ h) h))

protected theorem OutKeeps.execData {f : Frame} {d : Payload} (h : Keeps s0 s) : OutKeeps s0 (execData f d s) :=
  .rxLand (fun _ _ h => .dataIn h) h

protected theorem Keeps.arrCount {j : Nat} {x : Job} {g : Grp} {f : Frame} (h : Keeps s0 s) : Keeps s0 (arrCount s j x g f) := by
  unfold arrCount
  split
  · exact .ite h (.ite (.modSp h) (.modJob h))
  · exact h

protected theorem Keeps.redIn {f : Frame} {bs : List Nat} {ev : List AccEv} (h : Keeps s0 s) : Keeps s0 (redIn s f bs ev) := by
  unfold redIn
  split
  · exact .stray h
  · split
    · exact .stray h
    · exact .ite (.jobFault h) (.landFrame (fun _ h => h) (.arrCount h))

protected theorem OutKeeps.execRedResult {f : Frame} {d : Payload} (h : Keeps s0 s) : OutKeeps s0 (execRedResult f d s) :=
  .rxLand (fun _ _ h => .redIn h) h

protected theorem Keeps.sendPiece {p : Nat} {i : Iss} {n id : Nat} {g : Grp} {t : SendTo} {bs : List Nat} {lost : Bool} (h : Keeps s0 s) :
    Keeps s0 (sendPiece s p i n id g t bs lost) := by
  unfold sendPiece
  dsimp only
  split
  · exact .ite (.landLocal h) (.foldl (fun _ _ h => .portSend h) (.modJob h))
  · exact .foldl (fun _ _ h => .portSend h) (.modJob (.modJob h))

protected theorem OutKeeps.execXsend {p : Nat} {w : IWord} {ev : List AccEv} (h : Keeps s0 s) : OutKeeps s0 (execXsend p w ev s) := by
  refine .dataIssue (fun i n t ht => ?_) h
  dsimp only [xsendOp]
  split
  · exact .sendPiece (.freshId ht)
  · exact ht

protected theorem OutKeeps.execXsendComplete {p seq : Nat} (h : Keeps s0 s) : OutKeeps s0 (execXsendComplete p seq s) := by
  unfold execXsendComplete
  split
  · exact .guardNext (.finish h)
  · exact .refused

protected theorem Keeps.modRing {j r : Nat} {f : RingSt → RingSt} (h : Keeps s0 s) : Keeps s0 (modRing s j r f) :=
  .modJob h

protected theorem Keeps.ctlPut {j : Nat} {r : PlanRing} {off v : Nat} (h : Keeps s0 s) : Keeps s0 (ctlPut s j r off v) :=
  .vaPutReq h

protected theorem Keeps.ctlAdd {j : Nat} {r : PlanRing} {off v : Nat} (h : Keeps s0 s) : Keeps s0 (ctlAdd s j r off v) := by
  unfold ctlAdd
  split
  · exact .ctlPut h
  · exact h

protected theorem Keeps.ringMap {j ri : Nat} {r : PlanRing} (h : Keeps s0 s) : Keeps s0 (ringMap s j ri r) := by
  unfold ringMap
  dsimp only
  split
  · exact h
  · exact .ite (.modJob h) h

protected theorem Keeps.ringOpen {j ri : Nat} {r : PlanRing} (h : Keeps s0 s) : Keeps s0 (ringOpen s j ri r) := by
  unfold ringOpen
  dsimp only
  split
  · exact .ringMap h
  · exact .ctlAdd (.ctlPut (.ctlAdd (.vaPutReq (.ringMap h))))

protected theorem Keeps.ringAdv {j ri : Nat} {x : Job} {r : PlanRing} (h : Keeps s0 s) : Keeps s0 (ringAdv s j ri x r) :=
  .ite (.jobFault (.modRing h)) (.ite (.ringOpen (.modRing h)) (.modJob (.modRing (.modRing h))))

protected theorem Keeps.assistGo {j : Nat} {x : Job} {ctl : List (Nat × Nat)} {ev : List AccEv} {go : State → State}
    (hgo : ∀ s, Keeps s0 s → Keeps s0 (go s)) (h : Keeps s0 s) : Keeps s0 (assistGo s j x ctl ev go) := by
  unfold assistGo
  split
  · exact .badEnd h
  · exact .agentEv hgo (fun _ h => h) h

protected theorem OutKeeps.execRingAdv {j : Nat} {ri : Met Nat} (h : Keeps s0 s) : OutKeeps s0 (execRingAdv j ri s) := by
  unfold execRingAdv
  split
  · exact .refused
  · exact .guardNext (.assistGo (fun _ h => .ringAdv h) h)

protected theorem Keeps.ringReset {j ri : Nat} {r : PlanRing} (h : Keeps s0 s) : Keeps s0 (ringReset s j ri r) :=
  .modJob (.ctlPut (.ctlPut (.ctlPut h)))

protected theorem Keeps.ringRetest {j ri : Nat} {r : PlanRing} (h : Keeps s0 s) : Keeps s0 (ringRetest s j ri r) := by
  unfold ringRetest
  split
  · exact h
  · exact .ite (.ringOpen (.modRing h)) h

protected theorem Keeps.ringRel {j ri : Nat} {x : Job} {r : PlanRing} (h : Keeps s0 s) : Keeps s0 (ringRel s j ri x r) :=
  .ite (.jobFault (.modRing h)) (.ringRetest (.ite (.ringReset (.ctlPut (.ctlPut (.modRing h)))) (.ctlPut (.ctlPut (.modRing h)))))

protected theorem OutKeeps.execRingRel {j : Nat} {ri : Met Nat} (h : Keeps s0 s) : OutKeeps s0 (execRingRel j ri s) := by
  unfold execRingRel
  split
  · exact .refused
  · exact .guardNext (.assistGo (fun _ h => .ringRel h) h)

protected theorem Keeps.ringLists {j ri : Nat} {x : Job} {r : PlanRing} (h : Keeps s0 s) : Keeps s0 (ringLists s j ri x r) := by
  unfold ringLists
  dsimp only
  refine .ite ?_ ?_
  · exact .jobFault h
  · split
    · exact .badEnd h
    · exact .ctlAdd (.modRing (.modJob (.foldl (fun _ _ h => .vaPutReq h) h)))

protected theorem OutKeeps.execKeyListGeneration {j : Nat} {ri : Met Nat} (h : Keeps s0 s) : OutKeeps s0 (execKeyListGeneration j ri s) := by
  unfold execKeyListGeneration
  dsimp only
  split
  · exact .refused
  · exact .guardNext (.assistGo (fun _ h => .ringLists h) h)

protected theorem Keeps.copyPte {a b : Pte} (h : Keeps s0 s) : Keeps s0 (copyPte s a b) :=
  .foldl (fun _ _ h => .paPut h) h

protected theorem Keeps.prefixWrite {j vpn : Nat} {x : Job} {p : PlanPrefix} {e : Pte} (h : Keeps s0 s) : Keeps s0 (prefixWrite s j vpn x p e) := by
  unfold prefixWrite
  dsimp only
  refine .ite ?_ ?_
  · split
    · exact h
    · exact .pfxPut (.modJob (.copyPte h))
  · exact .pfxPut (.modJob h)

protected theorem OutKeeps.execPrefixWrite {j : Nat} {m : Met Nat} (h : Keeps s0 s) : OutKeeps s0 (execPrefixWrite j m s) := by
  unfold execPrefixWrite
  dsimp only
  split
  · exact .refused
  · split
    · exact .guardNext (.assistGo (fun _ h => .prefixWrite h) h)
    · exact .refused

protected theorem Keeps.programLoadBody {r : CmdRef} {w : Nat} (h : Keeps s0 s) : Keeps s0 (programLoadBody s r w) := by
  unfold programLoadBody
  dsimp only
  refine .ite ?_ ?_
  · exact .complete h
  · refine .ite ?_ ?_
    · exact .complete h
    · split
      · exact .complete h
      · split
        · exact .complete h
        · exact .complete (.frame h)

protected theorem OutKeeps.execProgramLoad {f q : Nat} {e : Entry} (h : Keeps s0 s) : OutKeeps s0 (execProgramLoad f q e s) :=
  .hostExec (fun _ _ _ h => .programLoadBody h) h

protected theorem Keeps.programUnloadBody {r : CmdRef} {w : Nat} (h : Keeps s0 s) : Keeps s0 (programUnloadBody s r w) := by
  unfold programUnloadBody
  dsimp only
  split
  · exact .complete h
  · exact .ite (.complete h) (.ite (.complete h) (.complete (.frame h)))

protected theorem OutKeeps.execProgramUnload {f q : Nat} {e : Entry} (h : Keeps s0 s) : OutKeeps s0 (execProgramUnload f q e s) :=
  .hostExec (fun _ _ _ h => .programUnloadBody h) h

protected theorem Keeps.partWrite {sl n v : Nat} (h : Keeps s0 s) : Keeps s0 (partWrite s sl n v) :=
  .ite (.frame h) (.frame h)

protected theorem Keeps.jobPartWrite {j sl : Nat} (h : Keeps s0 s) : Keeps s0 (jobPartWrite s j sl) := by
  unfold jobPartWrite
  dsimp only
  split
  · exact h
  · refine .ite ?_ ?_
    · exact h
    · split
      · exact .partWrite h
      · exact h

protected theorem Keeps.partsWrite {g : CoGrp} (h : Keeps s0 s) : Keeps s0 (partsWrite s g) :=
  .foldl (fun _ _ h => .foldl (fun _ _ h => .jobPartWrite h) h) (.frame h)

protected theorem Keeps.modelEvicting {h' : Nat} (h : Keeps s0 s) : Keeps s0 (modelEvicting s h') :=
  .frame h

protected theorem Keeps.framesClaim {taken : List Nat} {n k : Nat} (h : Keeps s0 s) : Keeps s0 (framesClaim taken n k s).1 := by
  induction k generalizing s with
  | zero => exact h
  | succ k ih =>
    unfold framesClaim
    dsimp only
    split
    · exact h
    · split
      · exact ih (.dropModel (.modelEvicting h))
      · exact h

protected theorem Keeps.poolDrop {u : Nat × PUnit} (h : Keeps s0 s) : Keeps s0 (poolDrop s u) :=
  .ite (.frame h) (.modJob (.foldl (fun _ _ h => .farNewOwner h) (.frame h)))

protected theorem Keeps.farClaim {n k : Nat} (h : Keeps s0 s) : Keeps s0 (farClaim n k s).1 := by
  induction k generalizing s with
  | zero => exact h
  | succ k ih =>
    unfold farClaim
    dsimp only
    split
    · exact h
    · split
      · exact ih (.poolDrop h)
      · exact h

protected theorem Keeps.farTake {n : Nat} (h : Keeps s0 s) : Keeps s0 (farTake s n).1 :=
  .farClaim h

protected theorem Keeps.framesTake {taken : List Nat} {n : Nat} (h : Keeps s0 s) : Keeps s0 (framesTake s taken n).1 := by
  unfold framesTake
  split
  · exact h
  · exact .framesClaim h

protected theorem Keeps.loadStart {n fn size src addr : Nat} {cache : Bool} {pins : Nat} {ws : List CmdRef} (h : Keeps s0 s) :
    Keeps s0 (loadStart s n fn size src addr cache pins ws).1 := by
  unfold loadStart
  split
  next t e => exact .ofPair e (.framesTake h)
  next t fr e =>
    have ht : Keeps s0 t := .ofPair e (.framesTake h)
    refine .iteFst (.cachePin (h' := n) (up := true) (.frame ht)) (.iteFst (.frame ht) ?_)
    split
    next u e' => exact .foldl (fun _ _ h => .zeroFrame h) (.frame (.ofPair e' (.farTake (.frame ht))))
    next u ps e' => exact .foldl (fun _ _ h => .farNewOwner h) (.frame (.ofPair e' (.farTake (.frame ht))))

protected theorem Keeps.modelLoadBody {r : CmdRef} {w : Nat} (h : Keeps s0 s) : Keeps s0 (modelLoadBody s r w) := by
  unfold modelLoadBody
  dsimp only
  refine .ite ?_ ?_
  · refine .ite ?_ ?_
    · exact .complete h
    · split
      next t e =>
        exact .ofPair e (.loadStart h)
      next t e =>
        exact .complete (.ofPair e (.loadStart h))
  · refine .ite ?_ ?_
    · exact .complete h
    · split
      · exact .ite (.complete h) (.ite (.frame h) (.complete h))
      · exact .complete h
      · refine .ite ?_ ?_
        · exact .complete h
        · split
          next t e =>
            exact .ofPair e (.loadStart h)
          next t e =>
            exact .complete (.ofPair e (.loadStart h))
      · exact .complete h

protected theorem Keeps.heldEnd {h' st : Nat} (h : Keeps s0 s) : Keeps s0 (heldEnd s h' st) := by
  unfold heldEnd
  refine .foldl (fun _ _ h => ?_) ?_
  · split
    · split
      · exact .queuedEnd h
      · exact .stopEnd (fun _ h => h) h
      · exact h
    · exact h
  · exact h

protected theorem Keeps.withModel {r : CmdRef} {n : Nat} {body : Model → State} (hb : ∀ m, Keeps s0 (body m)) (h : Keeps s0 s) :
    Keeps s0 (withModel s r n body) := by
  unfold withModel
  split
  · exact .complete h
  · exact .ite (.complete h) (hb _)

protected theorem Keeps.modelPin1 {h' : Nat} (h : Keeps s0 s) : Keeps s0 (modelPin1 s h') := by
  unfold modelPin1
  split
  · exact h
  · exact .frame h

protected theorem Keeps.modelPinBody {r : CmdRef} {w : Nat} (h : Keeps s0 s) : Keeps s0 (modelPinBody s r w) :=
  .withModel (fun _ => .ite (.complete h) (.complete (.modelPin1 h))) h

protected theorem OutKeeps.execModelPin {f q : Nat} {e : Entry} (h : Keeps s0 s) : OutKeeps s0 (execModelPin f q e s) :=
  .hostExec (fun _ _ _ h => .modelPinBody h) h

protected theorem Keeps.modelUnpinBody {r : CmdRef} {w : Nat} (h : Keeps s0 s) : Keeps s0 (modelUnpinBody s r w) :=
  .withModel (fun _ => .ite (.complete h) (.complete (.modelUnpin1 h))) h

protected theorem OutKeeps.execModelUnpin {f q : Nat} {e : Entry} (h : Keeps s0 s) : OutKeeps s0 (execModelUnpin f q e s) :=
  .hostExec (fun _ _ _ h => .modelUnpinBody h) h

protected theorem Keeps.modelEvictBody {r : CmdRef} {w : Nat} (h : Keeps s0 s) : Keeps s0 (modelEvictBody s r w) :=
  .withModel (fun _ => .ite (.complete h) (.ite (.complete h) (.ite (.complete (.modelEvicting (.heldEnd (.modelWaitsEnd (.loadUnhold h))))) (.ite
      (.complete h) (.complete (.modelEvicting h)))))) h

protected theorem OutKeeps.execModelEvict {f q : Nat} {e : Entry} (h : Keeps s0 s) : OutKeeps s0 (execModelEvict f q e s) :=
  .hostExec (fun _ _ _ h => .modelEvictBody h) h

protected theorem Keeps.framesPut {frames bs : List Nat} (h : Keeps s0 s) : Keeps s0 (framesPut s frames bs) :=
  .foldl (fun _ _ h => .paPut h) h

protected theorem Keeps.evictCopy {h' : Nat} (h : Keeps s0 s) : Keeps s0 (evictCopy h' s) :=
  .frame h

protected theorem Keeps.pagesPut {pages bs : List Nat} (h : Keeps s0 s) : Keeps s0 (pagesPut s pages bs) :=
  .foldl (fun _ _ h => .paPut h) h

protected theorem Keeps.loadDone {h' : Nat} {m : Model} {bs : List Nat} (h : Keeps s0 s) : Keeps s0 (loadDone s h' m bs) := by
  unfold loadDone
  dsimp only
  refine .foldl (fun _ _ h => ?_) ?_
  · exact .complete h
  · refine .frame ?_
    refine .ite ?_ ?_
    · refine .cachePin ?_
      split
      · exact .ite (.evictCopy (.framesPut h)) (.pagesPut (.framesPut h))
      · exact .framesPut h
    · split
      · exact .ite (.evictCopy (.framesPut h)) (.pagesPut (.framesPut h))
      · exact .framesPut h

protected theorem Keeps.loadEnd {h' : Nat} {m : Model} (h : Keeps s0 s) : Keeps s0 (loadEnd s h' m) :=
  .ite (.modelFail h) (.ite (.modelFail h) (.loadDone h))

protected theorem Keeps.loadEv {n : Nat} {m : Model} {ev : AccEv} (h : Keeps s0 s) : Keeps s0 (loadEv s n m ev).1 := by
  unfold loadEv
  split
  next t e => exact .evMild e h
  · dsimp only
    split
    · exact .vaultUeRec h
    · exact .domeUncorrectable h
    · exact .farUeFence (fun _ h => .evictCopy h) h
    · exact .farTimeoutFence (fun _ h => .evictCopy h) h
    · exact h
    · exact h

protected theorem Keeps.loadRun {n : Nat} {m : Model} {ev : List AccEv} (h : Keeps s0 s) : Keeps s0 (loadRun n m s ev) := by
  induction ev generalizing s with
  | nil => exact .loadEnd h
  | cons ev es ih =>
    unfold loadRun
    split
    next t e => exact ih (.ofPair e (.loadEv h))
    next t e => exact .ofPair e (.loadEv h)
    next t e =>
      have ht : Keeps s0 t := .ofPair e (.loadEv h)
      exact .ite (.modelFail ht) ht

protected theorem Keeps.admitPlace {j : Nat} {x : Job} {g : Option Nat} (h : Keeps s0 s) : Keeps s0 (admitPlace s j x g) :=
  .foldl (fun _ _ h => .gateWrite h) (.foldl (fun _ _ h => .jobPartWrite h) (.frame (.foldl (fun _ _ h => .modSp h) (.zeroSems (.frame (.foldl (fun
      _ _ h => .farNewOwner h) (.frame (.foldl (fun _ _ h => .ite h (.zeroMem h)) (.foldl (fun _ _ h => .zeroFrame h) (.foldl (fun _ _ h => .zeroMem
      h) h))))))))))

protected theorem Keeps.ringWords {j : Nat} {r : PlanRing} (h : Keeps s0 s) : Keeps s0 (ringWords s j r) :=
  .vaPut h

protected theorem Keeps.loadCached {n : Nat} (h : Keeps s0 s) : Keeps s0 (loadCached s n).1 := by
  unfold loadCached
  split
  · split
    · exact h
    · exact .loadStart h
  · exact h

protected theorem Keeps.loadsLoop {pin : State → Nat → State} {hs done : List Nat} {k : Nat} (hpin : ∀ s n, Keeps s0 s → Keeps s0 (pin s n))
    (h : Keeps s0 s) : Keeps s0 (loadsLoop pin hs k s done).1 := by
  induction k generalizing s done with
  | zero => exact h
  | succ k ih =>
    unfold loadsLoop
    split
    · exact h
    · split
      next t e => exact ih (hpin _ _ (.ofPair e (.loadCached h)))
      next t e => exact .ofPair e (.loadCached h)

protected theorem Keeps.loadsStart {hs : List Nat} (h : Keeps s0 s) : Keeps s0 (loadsStart s hs).1 :=
  .loadsLoop (fun _ _ h => h) h

protected theorem Keeps.admitModels {x : Job} (h : Keeps s0 s) : Keeps s0 (admitModels s x).1 :=
  .loadsLoop (fun _ _ h => .ite (.modelPin1 h) h) (.foldl (fun _ _ h => .ite (.modelPin1 h) h) h)

protected theorem Keeps.admitReserve {x : Job} (h : Keeps s0 s) : Keeps s0 (admitReserve s x).1 := by
  unfold admitReserve
  dsimp only
  split
  · exact h
  · refine .iteFst h (.iteFst h ?_)
    split
    · exact h
    · split
      · exact h
      · split
        · exact h
        · split
          next t e => exact .ofPair e (.framesTake h)
          next t fr e =>
            have ht : Keeps s0 t := .ofPair e (.framesTake h)
            refine .iteFst ht ?_
            split
            next u e' => exact .ofPair e' (.farTake ht)
            next u far e' =>
              have hu : Keeps s0 u := .ofPair e' (.farTake ht)
              exact .iteFst hu (.iteFst hu hu)

protected theorem Keeps.admitCheck1 {j : Nat} (h : Keeps s0 s) : Keeps s0 (admitCheck1 s j) := by
  unfold admitCheck1
  dsimp only
  split
  · exact h
  · split
    · exact h
    · refine .ite ?_ ?_
      · split
        next t e =>
          exact .ofPair e (.loadsStart h)
        next t e =>
          exact .releaseJob (.complete (.ofPair e (.loadsStart h)))
      · exact .ite h (.ite (.releaseJob (.complete h)) (.complete (.frame (.modJob h))))

protected theorem Keeps.admitCheck (h : Keeps s0 s) : Keeps s0 (admitCheck s) :=
  .foldl (fun _ _ h => .admitCheck1 h) h

protected theorem OutKeeps.execModelLoad {f q : Nat} {e : Entry} (h : Keeps s0 s) : OutKeeps s0 (execModelLoad f q e s) :=
  .hostExec (fun _ _ _ h => .admitCheck (.modelLoadBody h)) h

protected theorem OutKeeps.execHotsetEvictionEnd {h' : Nat} (h : Keeps s0 s) : OutKeeps s0 (execHotsetEvictionEnd h' s) := by
  unfold execHotsetEvictionEnd
  split
  · exact .guardNext (.admitCheck (.dropModel h))
  · exact .refused

protected theorem Keeps.admitGo {r : CmdRef} {x : Job} (h : Keeps s0 s) : Keeps s0 (admitGo s r x) := by
  unfold admitGo
  dsimp only
  split
  · exact .complete h
  · split
    next t a e =>
      exact .complete (.ofPair e (.admitReserve h))
    next t a b c e =>
      split
      next t' a e' =>
        exact .releaseJob (.complete (.modJob (.ofPair e' (.admitModels (.foldl (fun _ _ h => .ringWords h) (.admitPlace (.frame (.ofPair e
            (.admitReserve h)))))))))
      next t' a e' =>
        exact .admitCheck1 (.ofPair e' (.admitModels (.foldl (fun _ _ h => .ringWords h) (.admitPlace (.frame (.ofPair e (.admitReserve h)))))))

protected theorem Keeps.jobAdmitBody {r : CmdRef} {w : Nat} (h : Keeps s0 s) : Keeps s0 (jobAdmitBody s r w) := by
  unfold jobAdmitBody
  dsimp only
  split
  · exact .complete h
  · exact .ite (.complete h) (.ite (.complete h) (.admitCheck (.admitGo h)))

protected theorem OutKeeps.execJobAdmit {f q : Nat} {e : Entry} (h : Keeps s0 s) : OutKeeps s0 (execJobAdmit f q e s) :=
  .hostExec (fun _ _ _ h => .jobAdmitBody h) h

protected theorem Keeps.jobReleaseBody {r : CmdRef} {w : Nat} (h : Keeps s0 s) : Keeps s0 (jobReleaseBody s r w) :=
  .withJob (fun _ _ => .complete (.endByRelease h)) h

protected theorem OutKeeps.execJobRelease {f q : Nat} {e : Entry} (h : Keeps s0 s) : OutKeeps s0 (execJobRelease f q e s) :=
  .hostExec (fun _ _ _ h => .jobReleaseBody h) h

protected theorem OutKeeps.execModelLoadComplete {h' : Nat} {ev : List AccEv} (h : Keeps s0 s) : OutKeeps s0 (execModelLoadComplete h' ev s) := by
  unfold execModelLoadComplete
  refine .ite ?_ ?_
  · exact .refused
  · split
    · exact .guardNext (.admitCheck (.loadRun h))
    · exact .refused

protected theorem Keeps.arbMod {a : Nat} {f : Arb → Arb} (h : Keeps s0 s) : Keeps s0 (arbMod s a f) :=
  .frame h

protected theorem OutKeeps.execArbGrant {a : Nat} {ins : List ArbIn} {last : UnitEnd} (h : Keeps s0 s) : OutKeeps s0 (execArbGrant a ins last s) :=
  .ite .refused (.guardNext (.arbMod h))

protected theorem OutKeeps.execArbWithdraw {a : Nat} {r : ArbReq} (h : Keeps s0 s) : OutKeeps s0 (execArbWithdraw a r s) :=
  .ite .refused (.guardNext (.arbMod h))

protected theorem OutKeeps.execArbWindowEnd {a : Nat} (h : Keeps s0 s) : OutKeeps s0 (execArbWindowEnd a s) :=
  .ite .refused (.guardNext (.frame h))

protected theorem Keeps.arbSignal {a : Nat} (h : Keeps s0 s) : Keeps s0 (arbSignal s a) :=
  .ite (.frame h) (.evrAdd (.frame h))

protected theorem OutKeeps.execArbStarveFlag {a r : Nat} (h : Keeps s0 s) : OutKeeps s0 (execArbStarveFlag a r s) :=
  .ite .refused (.guardNext (.arbSignal h))

protected theorem OutKeeps.execNetArbMode {mode : Nat} (h : Keeps s0 s) : OutKeeps s0 (execNetArbMode mode s) := by
  unfold execNetArbMode
  split
  · exact .refused
  · exact .guardNext (.netMode h (by omega))

protected theorem Keeps.codecOpenBody {recd : List Nat} {r : CmdRef} {w : Nat} (h : Keeps s0 s) : Keeps s0 (codecOpenBody recd s r w) := by
  unfold codecOpenBody
  dsimp only
  refine .ite ?_ ?_
  · exact .complete h
  · refine .withJob (fun _ _ => ?_) h
    refine .ite ?_ ?_
    · exact .complete h
    · refine .ite ?_ ?_
      · exact .complete h
      · split
        · exact .complete h
        · exact .complete (.frame h)

protected theorem OutKeeps.execCodecOpen {f q : Nat} {e : Entry} (h : Keeps s0 s) : OutKeeps s0 (execCodecOpen f q e s) :=
  .hostExec (fun _ _ _ h => .codecOpenBody h) h

protected theorem Keeps.vEnqueue {f : VFrame} (h : Keeps s0 s) : Keeps s0 (vEnqueue s f) :=
  .vAdvance (.setVideo h)

protected theorem Keeps.withStream {r : CmdRef} {n hdr gone : Nat} {body : Nat → Stream → State} (hb : ∀ c t, Keeps s0 (body c t)) (h : Keeps s0 s) :
    Keeps s0 (withStream s r n hdr gone body) := by
  unfold withStream
  split
  · exact .complete h
  · split
    · exact .complete h
    · exact .ite (.complete h) (.ite (.complete h) (hb _ _))

protected theorem Keeps.codecCloseBody {r : CmdRef} {w : Nat} (h : Keeps s0 s) : Keeps s0 (codecCloseBody s r w) :=
  .withStream (fun _ _ => .vEnqueue h) h

protected theorem OutKeeps.execCodecClose {f q : Nat} {e : Entry} (h : Keeps s0 s) : OutKeeps s0 (execCodecClose f q e s) :=
  .hostExec (fun _ _ _ h => .codecCloseBody h) h

protected theorem Keeps.codecReleaseBody {r : CmdRef} {w : Nat} (h : Keeps s0 s) : Keeps s0 (codecReleaseBody s r w) :=
  .withStream (fun _ _ => .ite (.complete h) (.vEnqueue h)) h

protected theorem OutKeeps.execCodecRelease {f q : Nat} {e : Entry} (h : Keeps s0 s) : OutKeeps s0 (execCodecRelease f q e s) :=
  .hostExec (fun _ _ _ h => .codecReleaseBody h) h

protected theorem Keeps.codecFrameBody {recd : List Nat} {r : CmdRef} {w : Nat} (h : Keeps s0 s) : Keeps s0 (codecFrameBody recd s r w) :=
  .withStream (fun _ _ => .ite (.complete h) (.vEnqueue h)) h

protected theorem OutKeeps.execCodecFrame {f q : Nat} {e : Entry} (h : Keeps s0 s) : OutKeeps s0 (execCodecFrame f q e s) :=
  .hostExec (fun _ _ _ h => .codecFrameBody h) h

protected theorem Keeps.frDone {n : Nat} {f : VFrame} {status param result : Nat} (h : Keeps s0 s) : Keeps s0 (frDone s n f status param result) :=
  .vAdvance (.complete (.setVideo (.setVideo h)))

protected theorem Keeps.frStart {n : Nat} {f : VFrame} {t : Stream} (h : Keeps s0 s) : Keeps s0 (frStart s n f t) := by
  unfold frStart
  dsimp only
  refine .ite ?_ ?_
  · exact .setVideo (.setVideo h)
  · split
    · exact .ite (.setVideo (.setVideo h)) (.frDone (.setVideo (.setVideo h)))
    · exact .setVideo (.setVideo h)

protected theorem Keeps.frTake {n : Nat} {f : VFrame} {t : Stream} (h : Keeps s0 s) : Keeps s0 (frTake s n f t) :=
  .ite (.jobFault h) (.frStart h)

protected theorem OutKeeps.execFrameStart {n : Nat} (h : Keeps s0 s) : OutKeeps s0 (execFrameStart n s) := by
  unfold execFrameStart
  refine .ite ?_ ?_
  · exact .refused
  · split
    · exact .refused
    · split
      · exact .refused
      · exact .guardNext (.frTake h)

protected theorem Keeps.frFail {n : Nat} {f : VFrame} {t : Stream} {status param : Nat} {ran : Bool} (h : Keeps s0 s) :
    Keeps s0 (frFail s n f t status param ran) :=
  .frDone (.frUndef (.setVideo h))

protected theorem Keeps.frAccess {n : Nat} {f : VFrame} {t : Stream} {x : Job} {checks : List (Bool × Nat × Nat)} {ok : State} (h : Keeps s0 s)
    (hok : Keeps s0 ok) : Keeps s0 (frAccess s n f t x checks ok) := by
  unfold frAccess
  split
  · exact .jobFault h
  · exact .frFail h
  · exact hok

protected theorem Keeps.frSignal {f : VFrame} {x : Job} (h : Keeps s0 s) : Keeps s0 (frSignal s f x) := by
  unfold frSignal
  dsimp only
  refine .ite ?_ ?_
  · split
    · exact .paPut h
    · exact h
  · exact h

protected theorem Keeps.vFrameOk {n : Nat} {f : VFrame} {t : Stream} {x : Job} {result : Nat} (h : Keeps s0 s) :
    Keeps s0 (vFrameOk s n f t x result) :=
  .ite (.jobFault h) (.frDone (.frSignal (.setVideo h)))

protected theorem Keeps.outPut {j dst : Nat} {ws : List (Nat × List Nat)} (h : Keeps s0 s) : Keeps s0 (outPut s j dst ws) :=
  .foldl (fun _ _ h => .vaPut h) h

protected theorem Keeps.decodeEnd {n : Nat} {f : VFrame} {t : Stream} {x : Job} {b : Nat} (h : Keeps s0 s) : Keeps s0 (decodeEnd s n f t x b) := by
  unfold decodeEnd
  dsimp only
  refine .frAccess h ?_
  split
  · exact .frFail h
  · exact .frFail h
  · exact .ite (.frFail h) (.ite (.frFail h) (.ite (.frFail h) (.frAccess h (.vFrameOk (.outPut (.vaPut h))))))

protected theorem Keeps.encodeEnd {n : Nat} {f : VFrame} {t : Stream} {x : Job} {b : Nat} (h : Keeps s0 s) : Keeps s0 (encodeEnd s n f t x b) :=
  .frAccess h (.ite (.frFail h) (.frAccess h (.vFrameOk (.vaPut (.vaPut h)))))

protected theorem Keeps.exportEnd {n : Nat} {f : VFrame} {t : Stream} {x : Job} (h : Keeps s0 s) : Keeps s0 (exportEnd s n f t x) :=
  .ite (.frFail h) (.frAccess h (.vFrameOk (.vaPut h)))

protected theorem Keeps.frEnd {n : Nat} {f : VFrame} (h : Keeps s0 s) : Keeps s0 (frEnd s n f) := by
  unfold frEnd
  split
  · exact .frDone h
  · split
    · exact .frDone h
    · split
      · exact .decodeEnd h
      · exact .encodeEnd h
      · exact .exportEnd h

protected theorem Keeps.codecLost {n : Nat} {f : VFrame} (h : Keeps s0 s) : Keeps s0 (codecLost s n f) :=
  .evrAdd (.endStream (.complete (.setVideo (.setVideo (.engUndef h)))))

protected theorem Keeps.frErr {n : Nat} {f : VFrame} {status pa : Nat} (h : Keeps s0 s) : Keeps s0 (frErr n f status pa s) := by
  unfold frErr
  split
  · exact .frFail h
  · exact h

protected theorem Keeps.frEv {n : Nat} {f : VFrame} {e : AccEv} (h : Keeps s0 s) : Keeps s0 (frEv n f s e) := by
  unfold frEv
  split
  · split
    · exact .ite (.codecLost (.vaultUeRec h)) (.vaultUncorrectable h)
    · exact .ite h (.domeUncorrectable h)
    · exact .farUeFence (fun _ h => .frErr h) h
    · exact .farTimeoutFence (fun _ h => .frErr h) h
    · exact .frErr h
    · exact .frErr h
    · exact h
  · exact h

protected theorem Keeps.frFinish {n : Nat} {f : VFrame} {ev : List AccEv} (h : Keeps s0 s) : Keeps s0 (frFinish s n f ev) :=
  .ite (.frEnd (.evMilds h)) (.foldl (fun _ _ h => .frEv h) (.evMilds h))

protected theorem OutKeeps.execFrameEnd {r : EngineRun} (h : Keeps s0 s) : OutKeeps s0 (execFrameEnd r s) := by
  unfold execFrameEnd
  dsimp only
  refine .ite ?_ ?_
  · exact .refused
  · split
    · exact .refused
    · exact .ite .refused (.guardNext (.frFinish h))

protected theorem OutKeeps.execCodecEngineHang {n : Nat} (h : Keeps s0 s) : OutKeeps s0 (execCodecEngineHang n s) := by
  unfold execCodecEngineHang
  refine .ite ?_ ?_
  · exact .refused
  · split
    · exact .refused
    · exact .guardNext (.setVideo (.codecLost h))

protected theorem Keeps.withReady {r : CmdRef} {n : Nat} {body : Nat → Job → State} (hb : ∀ j x, Keeps s0 (body j x)) (h : Keeps s0 s) :
    Keeps s0 (withReady s r n body) :=
  .withJob (fun _ _ => .ite (hb _ _) (.complete h)) h

protected theorem Keeps.windowMapBody {r : CmdRef} {w : Nat} (h : Keeps s0 s) : Keeps s0 (windowMapBody s r w) := by
  unfold windowMapBody
  dsimp only
  refine .withReady (fun _ _ => ?_) h
  refine .ite ?_ ?_
  · exact .complete h
  · refine .ite ?_ ?_
    · exact .complete h
    · refine .ite ?_ ?_
      · exact .complete h
      · split
        · exact .complete h
        · exact .complete (.modJob (.frame h))

protected theorem OutKeeps.execWindowMap {f q : Nat} {e : Entry} (h : Keeps s0 s) : OutKeeps s0 (execWindowMap f q e s) :=
  .hostExec (fun _ _ _ h => .windowMapBody h) h

protected theorem Keeps.windowUnmapBody {r : CmdRef} {w : Nat} (h : Keeps s0 s) : Keeps s0 (windowUnmapBody s r w) := by
  unfold windowUnmapBody
  dsimp only
  refine .withReady (fun _ _ => ?_) h
  split
  · exact .complete h
  · exact .ite (.complete h) (.ite (.complete h) (.ite (.complete h) (.complete (.modJob (.frame h)))))

protected theorem OutKeeps.execWindowUnmap {f q : Nat} {e : Entry} (h : Keeps s0 s) : OutKeeps s0 (execWindowUnmap f q e s) :=
  .hostExec (fun _ _ _ h => .windowUnmapBody h) h

protected theorem Keeps.dmaOut {j host len : Nat} {gcm : Bool} {bs : List Nat} (h : Keeps s0 s) : Keeps s0 (dmaOut s j host len gcm bs) :=
  .ite (.foldl (fun _ _ h => .gcmWrite h) h) (.hostPut h)

protected theorem Keeps.dmaMove {r : CmdRef} {w j : Nat} {x : Job} (h : Keeps s0 s) : Keeps s0 (dmaMove s r w j x) := by
  unfold dmaMove
  dsimp only
  refine .ite ?_ ?_
  · exact .complete (.dmaOut h)
  · split
    · exact .complete (.vaPut h)
    · exact .complete (.freshVal h)

protected theorem Keeps.dmaBody {ev : List AccEv} {r : CmdRef} {w : Nat} (h : Keeps s0 s) : Keeps s0 (dmaBody ev s r w) := by
  unfold dmaBody
  dsimp only
  refine .withReady (fun _ _ => ?_) h
  refine .ite ?_ ?_
  · exact .complete h
  · split
    · exact .complete h
    · split
      next t a e =>
        exact .complete (.ofPair e (.dmaEvs h))
      next t e =>
        exact .dmaMove (.ofPair e (.dmaEvs h))

protected theorem OutKeeps.execDma {f q : Nat} {e : Entry} {ev : List AccEv} (h : Keeps s0 s) : OutKeeps s0 (execDma f q e ev s) :=
  .ite .refused (.hostExec (fun _ _ _ h => .dmaBody h) h)

protected theorem Keeps.queryOut {r : CmdRef} {w : Nat} {bs : List Nat} (h : Keeps s0 s) : Keeps s0 (queryOut s r w bs) :=
  .ite (.complete (.hostPut h)) (.complete (.hostPut h))

protected theorem Keeps.queryJob {r : CmdRef} {n : Nat} {body : Nat → Job → State} (hb : ∀ j x, Keeps s0 (body j x)) (h : Keeps s0 s) :
    Keeps s0 (queryJob s r n body) := by
  unfold queryJob
  split
  · exact .complete h
  · exact .ite (.complete h) (hb _ _)

protected theorem Keeps.queryStream {r : CmdRef} {n : Nat} {body : Stream → State} (hb : ∀ t, Keeps s0 (body t)) (h : Keeps s0 s) :
    Keeps s0 (queryStream s r n body) := by
  unfold queryStream
  split
  · exact .complete h
  · exact .ite (.complete h) (hb _)

protected theorem Keeps.queryBody {r : CmdRef} {w : Nat} (h : Keeps s0 s) : Keeps s0 (queryBody s r w) := by
  unfold queryBody
  dsimp only
  split
  · exact .queryOut h
  · exact .queryJob (fun _ _ => .queryOut h) h
  · exact .queryJob (fun _ _ => .queryOut h) h
  · exact .queryOut h
  · exact .queryStream (fun _ => .queryOut h) h
  · exact .ite (.complete h) (.queryOut h)
  · exact .ite (.complete h) (.queryOut h)
  · exact .complete h

protected theorem OutKeeps.execQuery {f q : Nat} {e : Entry} (h : Keeps s0 s) : OutKeeps s0 (execQuery f q e s) :=
  .hostExec (fun _ _ _ h => .queryBody h) h

protected theorem Keeps.marginBody {r : CmdRef} {w : Nat} (h : Keeps s0 s) : Keeps s0 (marginBody s r w) :=
  .ite (.complete h) (.ite (.complete h) (.ite (.complete h) (.netMode (.ite (.freshVal h) h) (by decide))))

protected theorem OutKeeps.execMargin {f q : Nat} {e : Entry} (h : Keeps s0 s) : OutKeeps s0 (execMargin f q e s) :=
  .hostExec (fun _ _ _ h => .marginBody h) h

protected theorem Keeps.marginEnd {m : MarginRun} {lanes : List (Nat × Nat × Nat)} (h : Keeps s0 s) : Keeps s0 (marginEnd s m lanes) :=
  .complete (.netMode (.hostPut h) (ite_lt (by decide) (by decide)))

protected theorem OutKeeps.execMarginComplete {lanes : List (Nat × Nat × Nat)} (h : Keeps s0 s) : OutKeeps s0 (execMarginComplete lanes s) := by
  unfold execMarginComplete
  refine .ite ?_ ?_
  · exact .refused
  · split
    · exact .refused
    · exact .guardNext (.marginEnd h)

protected theorem Keeps.portGate {n : Nat} (h : Keeps s0 s) : Keeps s0 (portGate s n) :=
  .ite h (.linkLost (.modPort h))

protected theorem OutKeeps.execPwrGateEn {n : Nat} {en : Bool} (h : Keeps s0 s) : OutKeeps s0 (execPwrGateEn n en s) :=
  .ite .refused (.guardNext (.portGate (.gateWrite h)))

protected theorem Keeps.cupGated {c : Nat} {on : Bool} (h : Keeps s0 s) : Keeps s0 (cupGated s c on) :=
  .ite (.foldl (fun _ _ h => .modSp h) h) h

protected theorem Keeps.gateEnd {n : Nat} (h : Keeps s0 s) : Keeps s0 (gateEnd s n) :=
  .ite (.admitCheck (.setVdd (.cupGated (.frame h)))) (.frame h)

protected theorem OutKeeps.execGateTransitionEnd {n : Nat} (h : Keeps s0 s) : OutKeeps s0 (execGateTransitionEnd n s) :=
  .ite .refused (.guardNext (.gateEnd h))

protected theorem Keeps.retarget (h : Keeps s0 s) : Keeps s0 (retarget s) :=
  .foldl (fun _ _ h => .frame h) h

protected theorem Keeps.markThrottled {slow : Job → Req → Bool} (h : Keeps s0 s) : Keeps s0 (markThrottled s slow) :=
  .frame h

protected theorem Keeps.markSlow (h : Keeps s0 s) : Keeps s0 (markSlow s) :=
  .markThrottled h

protected theorem Keeps.thermIsland {c : Nat} {die : Int} {dram : Option Int} (h : Keeps s0 s) : Keeps s0 (thermIsland s c die dram) := by
  unfold thermIsland
  dsimp only
  refine .ite ?_ ?_
  · split
    · exact .evrAdd (.frame (.frame h))
    · exact .evrAdd (.freshVal (.frame (.frame h)))
  · exact .frame h

protected theorem OutKeeps.execThermalLevelUpdate {temps : List Int} {video : Int} (h : Keeps s0 s) :
    OutKeeps s0 (execThermalLevelUpdate temps video s) :=
  .ite .refused (.guardNext (.markSlow (.retarget (.thermIsland (.foldl (fun _ _ h => .thermIsland h) h)))))

protected theorem OutKeeps.execPowerEstimate {watts : Nat} (h : Keeps s0 s) : OutKeeps s0 (execPowerEstimate watts s) :=
  .ite .refused (.guardNext (.frame h))

theorem devStep_le {p : Power} {sum : Nat} (h : p.devLevel ≤ 11) : devStep p sum ≤ 11 := by
  unfold devStep
  split
  · omega
  · split <;> omega

protected theorem Keeps.devUpdate (h : Keeps s0 s) : Keeps s0 (devUpdate s) := by
  have hl (p : Power) (hp : p.plimit = s.power.plimit) (hd : s.power.devLevel ≤ 11 → p.devLevel ≤ 11) : Keeps s0 { s with power := p } :=
    h.register fun r => { r with plimit := hp ▸ r.plimit, devLevel := hd r.devLevel }
  refine .ite (.evrAdd (.frame (.markSlow (.retarget ?_)) (by dsimp only) (by dsimp only) (by dsimp only))) (.markSlow (.retarget ?_))
  · exact hl _ rfl devStep_le
  · exact hl _ rfl devStep_le

protected theorem OutKeeps.execDevLevelUpdate (h : Keeps s0 s) : OutKeeps s0 (execDevLevelUpdate s) :=
  .guardNext (.devUpdate h)

protected theorem OutKeeps.execCoreCurrentEstimate {amps : Nat} (h : Keeps s0 s) : OutKeeps s0 (execCoreCurrentEstimate amps s) :=
  .guardNext (.ite (.markThrottled (.frame h)) (.frame h))

protected theorem OutKeeps.execLevelChangeDone {c : Nat} (h : Keeps s0 s) : OutKeeps s0 (execLevelChangeDone c s) := by
  unfold execLevelChangeDone
  dsimp only
  split
  · exact .refused
  · exact .guardNext (.markSlow (.setVdd (.frame h)))

protected theorem Keeps.tripRecord {sensor : Nat} {temp : Int} (h : Keeps s0 s) : Keeps s0 (tripRecord s sensor temp) :=
  .ite h (.evrFlushAll (.frame h))

protected theorem Keeps.doTrip {sensor : Nat} {temp : Int} (h : Keeps s0 s) : Keeps s0 (doTrip s sensor temp) :=
  .frame (.tripRecord h)

protected theorem OutKeeps.execThermalTrip {sensor : Nat} {temp : Int} (h : Keeps s0 s) : OutKeeps s0 (execThermalTrip sensor temp s) :=
  .ite .refused (.guardNext (.doTrip h))

protected theorem Keeps.doShutdown (h : Keeps s0 s) : Keeps s0 (doShutdown s) :=
  .ite h (.evrAdd (.foldl (fun _ _ h => .endByRelease h) (.frame h)))

protected theorem Keeps.shutdownEnd (h : Keeps s0 s) : Keeps s0 (shutdownEnd s) := by
  unfold shutdownEnd
  dsimp only
  split
  · exact .frame (.storeWrite (.evrFlushAll h))
  · exact .ite (.frame (.flashTick (.evrFlushAll h))) (.evrFlushAll h)

protected theorem OutKeeps.execShutdown {f : Nat} (h : Keeps s0 s) : OutKeeps s0 (execShutdown f s) :=
  .ite .refused (.guardNext (.ite (.doShutdown h) h))

protected theorem OutKeeps.execAlertCauseClear {f mask : Nat} (h : Keeps s0 s) : OutKeeps s0 (execAlertCauseClear f mask s) :=
  .ite .refused (.guardNext (.ite (.frame h) h))

protected theorem Keeps.cupOutAdd {c : Nat} (h : Keeps s0 s) : Keeps s0 (cupOutAdd s c) :=
  .frame h

protected theorem Keeps.lockLost {k n : Nat} (h : Keeps s0 s) : Keeps s0 (lockLost s k n) := by
  unfold lockLost
  dsimp only
  split
  · exact .setVdd (.faultJobs (.cupOutAdd h))
  · exact .setVdd (.faultJobs (.cupOutAdd (.frame h)))
  · exact .foldl (fun _ _ h => .fenceOut (fun _ h => h) (.fenceChan h)) h
  · exact .pfReset h
  · exact .linkLost h
  · exact .frame (.foldl (fun _ _ h => .codecLost h) h)

protected theorem Keeps.pllLost {k n : Nat} (h : Keeps s0 s) : Keeps s0 (pllLost s k n) :=
  .ite (.deviceFault (.evrAdd (.frame h))) (.evrAdd (.lockLost (.frame h)))

protected theorem OutKeeps.execPllLockLost {k n : Nat} (h : Keeps s0 s) : OutKeeps s0 (execPllLockLost k n s) :=
  .ite .refused (.guardNext (.pllLost h))

protected theorem OutKeeps.execRailOutOfTolerance {rail mv : Nat} (h : Keeps s0 s) : OutKeeps s0 (execRailOutOfTolerance rail mv s) :=
  .ite .refused (.guardNext (.deviceFault (.evrAdd (.frame h))))

protected theorem Keeps.doeAnswer {f : Nat} {o : List Nat} (h : Keeps s0 s) : Keeps s0 (doeAnswer s f o) :=
  .modFn h

protected theorem OutKeeps.execDoeDiscovery {f : Nat} {obj : List Byte} (h : Keeps s0 s) : OutKeeps s0 (execDoeDiscovery f obj s) :=
  .ite .refused (.guardNext (.doeAnswer h))

protected theorem OutKeeps.execDoeAbort {f : Nat} (h : Keeps s0 s) : OutKeeps s0 (execDoeAbort f s) :=
  .ite .refused (.guardNext (.modFn h))

protected theorem OutKeeps.execDoeUnsupportedObject {f : Nat} {obj : List Byte} (h : Keeps s0 s) : OutKeeps s0 (execDoeUnsupportedObject f obj s) :=
  .ite .refused (.guardNext (.modFn h))

protected theorem Keeps.attAnswer {f : Nat} {o : List Nat} {status : Nat} {payload : List Nat} (h : Keeps s0 s) :
    Keeps s0 (attAnswer s f o status payload) :=
  .doeAnswer h

protected theorem Keeps.getCerts {f : Nat} {o : List Nat} (h : Keeps s0 s) : Keeps s0 (getCerts s f o) :=
  .ite (.attAnswer h) (.ite (.attAnswer h) (.attAnswer h))

protected theorem OutKeeps.execGetCerts {f : Nat} {obj : List Byte} (h : Keeps s0 s) : OutKeeps s0 (execGetCerts f obj s) :=
  .ite .refused (.guardNext (.getCerts h))

protected theorem Keeps.getReport {f : Nat} {o : List Nat} (h : Keeps s0 s) : Keeps s0 (getReport s f o) :=
  .ite (.attAnswer h) (.ite (.attAnswer h) (.attAnswer h))

protected theorem OutKeeps.execGetReport {f : Nat} {obj : List Byte} (h : Keeps s0 s) : OutKeeps s0 (execGetReport f obj s) :=
  .ite .refused (.guardNext (.getReport h))

protected theorem Keeps.keyDeliver {f : Nat} {o : List Nat} (h : Keeps s0 s) : Keeps s0 (keyDeliver s f o) := by
  unfold keyDeliver
  dsimp only
  split
  · exact .attAnswer h
  · split
    · exact .attAnswer h
    · exact .ite (.attAnswer h) (.ite (.attAnswer h) (.attAnswer (.setJob h)))

protected theorem OutKeeps.execKeyDeliver {f : Nat} {obj : List Byte} (h : Keeps s0 s) : OutKeeps s0 (execKeyDeliver f obj s) :=
  .ite .refused (.guardNext (.keyDeliver h))

protected theorem OutKeeps.execBar0BadAccess {f off size : Nat} {_write : Bool} (h : Keeps s0 s) :
    OutKeeps s0 (execBar0BadAccess f off size _write s) :=
  .ite .refused (.guardNext (.frame h))

protected theorem Keeps.hstCtrl {f v : Nat} (h : Keeps s0 s) : Keeps s0 (hstCtrl s f v) :=
  .ite (.adminEnable (.ite h (.modFn h))) (.adminDisable (.ite h (.modFn h)))

protected theorem Keeps.hostRegWrite {f o v : Nat} (h : Keeps s0 s) : Keeps s0 (hostRegWrite s f o v) := by
  unfold hostRegWrite
  split
  · exact .ite h (.modFn h)
  · exact .ite h (.modFn h)
  · exact .hstCtrl h
  · exact .ite h (.modFn h)
  · exact h

protected theorem Keeps.msixWrite {i v : Nat} (h : Keeps s0 s) : Keeps s0 (msixWrite s i v) :=
  .ite (.modFn h) (.ite (.setFn h) (.ite (.msix (.setFn h)) (.setFn h)))

protected theorem Keeps.alertClear {mask : Nat} (h : Keeps s0 s) : Keeps s0 (alertClear s mask) :=
  .frame h

protected theorem Keeps.pfRegWrite {o v : Nat} {lo hi : Bool} (h : Keeps s0 s) : Keeps s0 (pfRegWrite s o v lo hi) :=
  .ite (.frame h) (.ite (.ite (.frame h) h) (.ite (.ite (.doShutdown h) h) (.ite (.alertClear h) (.ite (.ite (.msixWrite (.ite (.msixWrite h) h))
      (.ite (.msixWrite h) h)) h))))

protected theorem Keeps.spireCtrl {p v : Nat} (h : Keeps s0 s) : Keeps s0 (spireCtrl s p v) :=
  .ite (.modSp (.ite (.modSp (.ite (.clearReg (.modSp h)) (.modSp h))) (.ite (.clearReg (.modSp h)) (.modSp h))))
      (.ite (.modSp (.ite (.clearReg (.modSp h)) (.modSp h))) (.ite (.clearReg (.modSp h)) (.modSp h)))

protected theorem Keeps.fabPcfg {pi v : Nat} (h : Keeps s0 s) : Keeps s0 (fabPcfg s pi v) :=
  .portGate (.gateWrite (.ite (.modPort h) (.linkLost (.modPort h))))

protected theorem Keeps.fabRegWrite {o v : Nat} (h : Keeps s0 s) : Keeps s0 (fabRegWrite s o v) :=
  .ite (.frame h) (.ite h (.ite (.fabPcfg h) (.ite (.modPort h) h)))

protected theorem Keeps.sliceRegWrite {sl o v : Nat} (h : Keeps s0 s) : Keeps s0 (sliceRegWrite s sl o v) :=
  .ite (.ite h (.partWrite h)) (.ite (.frame h) (.ite (.frame h) h))

protected theorem Keeps.arbRegWrite {a o v : Nat} (h : Keeps s0 s) : Keeps s0 (arbRegWrite s a o v) :=
  .ite h (.ite (.frame h) (.ite (.frame h) h))

protected theorem Keeps.powerRegWrite {o v : Nat} (h : Keeps s0 s) : Keeps s0 (powerRegWrite s o v) :=
  have ht : Keeps s0 { s with power := { s.power with plimit := min 1600 (max 600 (fld v 47 32)) } } :=
    h.register fun r => { r with plimit := by dsimp only; omega }
  .ite (.ite (.doShutdown ht) ht) (.ite (.alertClear h) (.ite (.ite (.portGate (.gateWrite h)) h) h))

protected theorem Keeps.hangWrite {p v : Nat} (h : Keeps s0 s) : Keeps s0 (hangWrite s p v) :=
  .modSp h

protected theorem Keeps.jobRegWrite {j v : Nat} (h : Keeps s0 s) : Keeps s0 (jobRegWrite s j v) :=
  .ite h (.frame h)

protected theorem Keeps.lanternRegWrite {o v : Nat} (h : Keeps s0 s) : Keeps s0 (lanternRegWrite s o v) :=
  have hquantum : Keeps s0 { s with quantum := max 1 (v % 65536) } := h.register fun r => { r with quantum := by dsimp only; omega }
  have hfence : Keeps s0 { s with ueFence := max 1 (v % 16) } := h.register fun r => { r with ueFence := by dsimp only; omega }
  .ite (.jobRegWrite h) (.ite hquantum (.ite (.powerRegWrite h) (.ite (.netMode h (by omega)) (.ite (.fabRegWrite h) (.ite hfence
    (.ite (.ite h (.ite (.spireCtrl h) (.ite (.hangWrite h) h))) (.ite (.ite h (.sliceRegWrite h)) (.ite (.ite (.frame h) h)
      (.ite (.arbRegWrite h) h)))))))))

protected theorem Keeps.regWrite {f off size v : Nat} (h : Keeps s0 s) : Keeps s0 (regWrite s f off size v) :=
  .ite (.lanternRegWrite h) (.ite (.ite (.hostRegWrite h) (.pfRegWrite h)) (.ite (.hostRegWrite h) h))

protected theorem OutKeeps.execRegisterWrite {f off size v : Nat} (h : Keeps s0 s) : OutKeeps s0 (execRegisterWrite f off size v s) :=
  .ite .refused (.guardNext (.regWrite h))

protected theorem OutKeeps.execMgmtStatus (h : Keeps s0 s) : OutKeeps s0 (execMgmtStatus s) :=
  .guardNext (.mgmtReply h)

protected theorem OutKeeps.execMgmtShutdown (h : Keeps s0 s) : OutKeeps s0 (execMgmtShutdown s) :=
  .guardNext (.ite (.mgmtReply (.doShutdown h)) (.mgmtReply h))

protected theorem Keeps.flashCmd {ok : Bool} {c : FlashCmd} (h : Keeps s0 s) : Keeps s0 (flashCmd s ok c) :=
  .ite (.mgmtReply h) (.ite (.flashDo h) (.frame h))

protected theorem OutKeeps.execFlashRead {addr len : Nat} (h : Keeps s0 s) : OutKeeps s0 (execFlashRead addr len s) :=
  .ite .refused (.guardNext (.flashCmd h))

protected theorem OutKeeps.execFlashErase {addr : Nat} {ok : Bool} (h : Keeps s0 s) : OutKeeps s0 (execFlashErase addr ok s) :=
  .ite .refused (.guardNext (.flashCmd h))

protected theorem OutKeeps.execFlashProgram {addr : Nat} {bytes : List Byte} {ok : Bool} (h : Keeps s0 s) :
    OutKeeps s0 (execFlashProgram addr bytes ok s) :=
  .ite .refused (.guardNext (.flashCmd h))

protected theorem OutKeeps.execRecoveryData {off : Nat} {bytes : List Byte} (h : Keeps s0 s) : OutKeeps s0 (execRecoveryData off bytes s) :=
  .ite .refused (.guardNext (.ite (h.memory fun m => { m with recImg := Memory.put_wf _ _ m.recImg }) (.mgmtReply h)))

protected theorem OutKeeps.execJtagBoundaryScan {ir dr : Nat} (h : Keeps s0 s) : OutKeeps s0 (execJtagBoundaryScan ir dr s) :=
  .guardNext (.frame h)

/-- A page copied within a store keeps its canonical form. -/
theorem copyPage_wf {st : Store} {a b : Nat} (h : st.wf = true) : (copyPage st a b).wf = true := by
  have hfold {α : Type} (f : Store → α → Store) (hf : ∀ st x, st.wf = true → (f st x).wf = true) (l : List α) (st : Store)
      (h : st.wf = true) : (l.foldl f st).wf = true := by
    induction l generalizing st with
    | nil => exact h
    | cons x l ih => exact ih _ (hf _ _ h)
  exact hfold _ (fun _ _ => Store.put_wf _ _) _ _ (hfold _ (fun _ _ => Store.mark_wf _ _ _) _ _ (Store.mark_wf _ _ _ h))

protected theorem Keeps.pageOut {j n : Nat} (h : Keeps s0 s) : Keeps s0 (pageOut s j n) := by
  unfold pageOut
  split
  · exact h
  · exact .modJob (h.memory fun m => { m with mem := copyPage_wf m.mem })

protected theorem Keeps.pageIn {x : Job} {keep : Bool} {n : Nat} (h : Keeps s0 s) : Keeps s0 (pageIn s x keep n) :=
  .ite (h.memory fun m => { m with mem := copyPage_wf m.mem }) (.zeroMem h)

protected theorem Keeps.ringsFresh {j : Nat} {x : Job} (h : Keeps s0 s) : Keeps s0 (ringsFresh s j x) :=
  .foldl (fun _ _ h => .ringWords h) (.resetRings h)

protected theorem Keeps.takePages {j : Nat} {keep : Bool} (h : Keeps s0 s) : Keeps s0 (takePages s j keep) := by
  unfold takePages
  dsimp only
  split
  · exact h
  · exact .ite (.modJob (.foldl (fun _ _ h => .pageIn (.pageOut h)) (.foldl (fun _ _ h => .performAll h) h)))
      (.ringsFresh (.modJob (.foldl (fun _ _ h => .pageIn (.pageOut h)) (.foldl (fun _ _ h => .performAll h) h))))

protected theorem Keeps.noteOut {o : Option Nat} {j : Nat} (h : Keeps s0 s) : Keeps s0 (noteOut s o j) := by
  unfold noteOut
  split
  · exact .ite h (.modJob h)
  · exact h

protected theorem Keeps.setHolder {gi j : Nat} {keep : Bool} {out : Option Nat} (h : Keeps s0 s) : Keeps s0 (setHolder s gi j keep out) := by
  unfold setHolder
  dsimp only
  split
  · exact .frame (.ite (.noteOut h) (.noteOut (.noteOut h)))
  · exact h

protected theorem Keeps.resumeSend {j : Nat} (h : Keeps s0 s) : Keeps s0 (resumeSend s j) := by
  unfold resumeSend
  split
  · exact .ite (.modJob (.ctlAll h)) h
  · exact h

protected theorem Keeps.takeGroup {gi j : Nat} {keep : Bool} {out : Option Nat} (h : Keeps s0 s) : Keeps s0 (takeGroup s gi j keep out) := by
  unfold takeGroup
  dsimp only
  split
  · exact .partsWrite (.ite (.setHolder (.takePages (.chargeHolder h))) (.resumeSend (.setHolder (.takePages (.chargeHolder h)))))
  · exact .ite (.setHolder (.takePages (.chargeHolder h))) (.resumeSend (.setHolder (.takePages (.chargeHolder h))))

protected theorem Keeps.goSend {j : Nat} {x : Job} {req verdict : Nat} (h : Keeps s0 s) : Keeps s0 (goSend s j x req verdict) :=
  .modJob (.ctlAll h)

protected theorem Keeps.readyAll {j req : Nat} (h : Keeps s0 s) : Keeps s0 (readyAll s j req) := by
  unfold readyAll
  dsimp only
  split
  · exact h
  · exact .ite h (.ite (.goSend (.modJob h)) (.foldl (fun _ _ h => .claimSend h) (.modJob h)))

protected theorem Keeps.readyIn {j l req : Nat} (h : Keeps s0 s) : Keeps s0 (readyIn s j l req) :=
  .readyAll (.modJob h)

protected theorem Keeps.readySend {j : Nat} {x : Job} {req : Nat} (h : Keeps s0 s) : Keeps s0 (readySend s j x req) :=
  .ite h (.ite (.readyIn h) (.ctlSend h))

protected theorem OutKeeps.execReqReady {f : Frame} {l req : Nat} (h : Keeps s0 s) : OutKeeps s0 (execReqReady f l req s) :=
  .rx (fun _ h => .ctlIn (fun _ _ _ h => .ite (.readyIn h) h) h) h

protected theorem Keeps.claimLate {j : Nat} {x : Job} {c : Claim} {granted : Bool} (h : Keeps s0 s) : Keeps s0 (claimLate s j x c granted) :=
  .ite (.claimSend (.modJob h)) (.modJob h)

protected theorem Keeps.verdictIn {pi j g : Nat} {granted : Bool} (h : Keeps s0 s) : Keeps s0 (verdictIn s pi j g granted) := by
  unfold verdictIn
  dsimp only
  split
  · exact h
  · split
    · exact h
    · refine .ite ?_ ?_
      · exact .claimLate (.modPort h)
      · split
        · exact .modJob (.modPort h)
        · exact .ite (.modJob (.modPort h)) (.ite (.goSend (.modJob (.modPort h))) (.goSend (.claimsRelease (.modJob (.modPort h)))))

protected theorem OutKeeps.execRedVerdict {f : Frame} {g : Nat} {granted : Bool} (h : Keeps s0 s) : OutKeeps s0 (execRedVerdict f g granted s) := by
  unfold execRedVerdict
  refine .ite ?_ ?_
  · exact .refused
  · refine .rx (fun _ h => ?_) h
    split
    · exact .verdictIn h
    · exact .stray h

protected theorem OutKeeps.execGo {f : Frame} {req verdict : Nat} (h : Keeps s0 s) : OutKeeps s0 (execGo f req verdict s) :=
  .ite .refused (.rx (fun _ h => .ctlIn (fun _ _ _ h => .modJob h) h) h)

protected theorem Keeps.enderIn {j l req status : Nat} {e : EndWait} (h : Keeps s0 s) : Keeps s0 (enderIn s j l req status e) :=
  .modJob (.ite (.memCount h) h)

protected theorem Keeps.reqEndIn {j l req status : Nat} (h : Keeps s0 s) : Keeps s0 (reqEndIn s j l req status) := by
  unfold reqEndIn
  split
  · exact h
  · split
    · exact .stopEnd (fun _ h => h) (.memCount h)
    · split
      · exact .endPoint (.modJob (.reqAnswer (.claimsRelease (.memCount h))))
      · split
        · exact .enderIn h
        · exact .ite h (.modJob h)

protected theorem OutKeeps.execReqEnd {f : Frame} {l req status : Nat} (h : Keeps s0 s) : OutKeeps s0 (execReqEnd f l req status s) :=
  .ite .refused (.rx (fun _ h => .ctlIn (fun _ _ _ h => .reqEndIn h) h) h)

protected theorem OutKeeps.execPause {f : Frame} {l : Nat} (h : Keeps s0 s) : OutKeeps s0 (execPause f l s) :=
  .rx (fun _ h => .ctlIn (fun _ _ _ h => .modJob h) h) h

protected theorem OutKeeps.execResume {f : Frame} {l : Nat} (h : Keeps s0 s) : OutKeeps s0 (execResume f l s) :=
  .rx (fun _ h => .ctlIn (fun _ _ _ h => .modJob h) h) h

protected theorem Keeps.submitEnd {j : Nat} {x : Job} {who : Nat} {r : CmdRef} {num pass status : Nat} (h : Keeps s0 s) :
    Keeps s0 (submitEnd s j x who r num pass status) :=
  .reqAnswer (.modJob h)

protected theorem Keeps.refuseReq {j : Nat} {x : Job} {r : CmdRef} {num pass status : Nat} (h : Keeps s0 s) :
    Keeps s0 (refuseReq s j x r num pass status) :=
  .submitEnd (.ite h (.ctlAll h))

protected theorem Keeps.pfxNew {j : Nat} {q : PlanPrefix × Pte} (h : Keeps s0 s) : Keeps s0 (pfxNew s j q) := by
  unfold pfxNew
  split
  · exact h
  · exact .ite h (.pfxSet h)

protected theorem Keeps.pfxNewAll {j : Nat} {x : Job} (h : Keeps s0 s) : Keeps s0 (pfxNewAll s j x) :=
  .foldl (fun _ _ h => .pfxNew h) h

protected theorem Keeps.queueReq {j : Nat} {x : Job} {q : Req} {queue : List Req} (h : Keeps s0 s) : Keeps s0 (queueReq s j x q queue) :=
  .readySend (.ite (.schedPointJ (.modJob (.pfxNewAll h))) (.modJob (.pfxNewAll h)))

protected theorem Keeps.submitLc {j : Nat} {x : Job} {q : Req} (h : Keeps s0 s) : Keeps s0 (submitLc s j x q) := by
  unfold submitLc
  split
  · exact .queueReq (.modJob h)
  · exact .refuseReq (.modJob h)

protected theorem Keeps.submitSlip {f q : Nat} {e : Entry} (h : Keeps s0 s) : Keeps s0 (submitSlip s f q e) := by
  unfold submitSlip
  dsimp only
  split
  · exact .ite h (.modJob (.ite h (.ctlAll h)))
  · exact h

protected theorem Keeps.submitBody {at_ : Nat} {r : CmdRef} {w : Nat} (h : Keeps s0 s) : Keeps s0 (submitBody at_ s r w) := by
  unfold submitBody
  dsimp only
  refine .withJob (fun _ _ => ?_) h
  refine .ite ?_ ?_
  · exact .complete h
  · refine .ite ?_ ?_
    · exact .refuseReq h
    · split
      · exact .submitEnd (.memCount h)
      · exact .ite (.refuseReq h) (.ite (.submitLc h) (.queueReq h))

protected theorem OutKeeps.execSubmit {f q : Nat} {e : Entry} (h : Keeps s0 s) : OutKeeps s0 (execSubmit f q e s) :=
  .hostExec (fun _ _ _ h => .submitBody h) (.submitSlip h)

protected theorem Keeps.loadSpire {j : Nat} {x : Job} {vals : List Nat} {p6 : Option Bool} {first : Bool} {p : Nat} (h : Keeps s0 s) :
    Keeps s0 (loadSpire s j x vals p6 first p) := by
  unfold loadSpire
  exact .modSp (.doClear h)

protected theorem Keeps.pfxShare {j entry n : Nat} (h : Keeps s0 s) : Keeps s0 (pfxShare s j entry n) := by
  unfold pfxShare
  dsimp only
  split
  · exact h
  · exact .pfxPut h

protected theorem Keeps.prefixShare {j : Nat} (h : Keeps s0 s) : Keeps s0 (prefixShare s j) := by
  unfold prefixShare
  dsimp only
  split
  · exact h
  · exact .foldl (fun _ _ h => .ite (.modJob h) (.pfxShare (.pfxNew (.modJob h)))) (.modJob h)

protected theorem Keeps.modelsMap {j : Nat} {x : Job} (h : Keeps s0 s) : Keeps s0 (modelsMap s j x) := by
  unfold modelsMap
  dsimp only
  refine .foldl (fun _ _ h => ?_) ?_
  · split
    · exact h
    · exact .modJob h
  · exact h

protected theorem Keeps.modelsUse {x : Job} (h : Keeps s0 s) : Keeps s0 (modelsUse s x) :=
  .ite h (.foldl (fun _ _ h => .frame h) h)

theorem foldl_farMark_wf {st : Store} {l : List Nat} (h : st.farWf = true) :
    (l.foldl (fun st n => st.farMark (n * 2 ^ 21) (2 ^ 21) 0) st).farWf = true := by
  induction l generalizing st with
  | nil => exact h
  | cons n l ih => exact ih (Store.farMark_wf _ _ _ h)

protected theorem Keeps.ovfGive {a : State × Option (Nat × Nat)} {j : Nat} {q : Nat × PlanOvf} (h : Keeps s0 a.1) : Keeps s0 (ovfGive a j q).1 := by
  unfold ovfGive
  split
  · exact h
  · dsimp only
    split
    · exact .frame h
    · split
      next t e => exact .ofPair e (.farTake h)
      next t ps e =>
        have ht : Keeps s0 t := .ofPair e (.farTake h)
        split
        · exact ht
        · have hown : Keeps s0 (ps.foldl (farNewOwner j) t) := .foldl (fun _ _ h => .farNewOwner h) ht
          exact .modJob (hown.memory fun m => { m with far := foldl_farMark_wf m.far })

protected theorem Keeps.ovfAll {j : Nat} {x : Job} (h : Keeps s0 s) : Keeps s0 (ovfAll s j x).1 := by
  have hr : Keeps s0 ((x.plan.ovfs.mapIdx fun i o => (i, o)).foldl (fun a q => ovfGive a j q) (s, none)).1 :=
    .foldlPair (fun _ _ h => .ovfGive h) h
  unfold ovfAll
  dsimp only
  split
  · exact hr
  · exact .ovfUnpin hr

protected theorem Keeps.dispatchRun {j : Nat} {x : Job} {q : Req} (h : Keeps s0 s) : Keeps s0 (dispatchRun s j x q) :=
  .modJob (.foldl (fun _ _ h => .modSp (.loadSpire h)) (.modelsUse (.prefixShare (.modelsMap h))))

protected theorem Keeps.dispatchRefuse {j : Nat} {x : Job} {q : Req} {status param : Nat} (h : Keeps s0 s) :
    Keeps s0 (dispatchRefuse s j x q status param) :=
  .modJob (.queuedEnd h)

protected theorem Keeps.dispatchHeld {j : Nat} {q : Req} (h : Keeps s0 s) : Keeps s0 (dispatchHeld s j q) :=
  .ite h (.modJob h)

protected theorem Keeps.dispatchReq {j : Nat} {x : Job} {q : Req} {gi : Nat} (h : Keeps s0 s) : Keeps s0 (dispatchReq s j x q gi) := by
  unfold dispatchReq
  split
  · exact .dispatchRefuse h
  · refine .ite ?_ ?_
    · split
      next t e =>
        exact .admitCheck (.dispatchHeld (.ofPair e (.loadsStart h)))
      next t e =>
        exact .admitCheck (.dispatchRefuse (.ofPair e (.loadsStart h)))
    · refine .ite ?_ ?_
      · exact .dispatchHeld h
      · split
        next t a e =>
          exact .dispatchRefuse (.ofPair e (.ovfAll h))
        next t e =>
          exact .dispatchRun (.takeGroup (.ofPair e (.ovfAll h)))

protected theorem OutKeeps.execRequestDispatch {j : Nat} (h : Keeps s0 s) : OutKeeps s0 (execRequestDispatch j s) := by
  unfold execRequestDispatch
  split
  · split
    · exact .guardNext (.dispatchReq h)
    · exact .refused
  · exact .refused

protected theorem Keeps.noteFallback {j pass : Nat} {f : List Nat × Nat} (h : Keeps s0 s) : Keeps s0 (noteFallback s j pass f) := by
  unfold noteFallback
  dsimp only
  split
  · exact h
  · exact .evrAdd (.modJob h)

protected theorem Keeps.completeReq {j : Nat} {x : Job} {r : RunReq} (h : Keeps s0 s) : Keeps s0 (completeReq s j x r) :=
  .completeX (.modJob (.noteFallback h))

protected theorem Keeps.finishReq {j : Nat} {r : RunReq} {gi : Nat} (h : Keeps s0 s) : Keeps s0 (finishReq s j r gi) := by
  unfold finishReq
  dsimp only
  split
  next t e =>
    exact .jobFault (.ofPair e (.requestLetGo (.foldl (fun _ _ h => .sigApply h) (.performAll h))))
  next t e =>
    split
    · exact .schedPoint (.completeReq (.chargeHolder (.claimsRelease (.ofPair e (.requestLetGo (.foldl (fun _ _ h => .sigApply h) (.performAll
        h)))))))
    · exact .chargeHolder (.claimsRelease (.ofPair e (.requestLetGo (.foldl (fun _ _ h => .sigApply h) (.performAll h)))))

protected theorem OutKeeps.execRequestCompletion {j : Nat} (h : Keeps s0 s) : OutKeeps s0 (execRequestCompletion j s) := by
  unfold execRequestCompletion
  split
  · split
    · refine .guardNext ?_
      split
      · exact .windowWrite h
      · exact .finishReq h
    · exact .refused
  · exact .refused

protected theorem OutKeeps.execCollWatchdog {j l : Nat} (h : Keeps s0 s) : OutKeeps s0 (execCollWatchdog j l s) := by
  unfold execCollWatchdog
  dsimp only
  split
  · exact .refused
  · split <;> exact .guardNext (.jobFault h)

protected theorem OutKeeps.execGoWaitTimeout {j : Nat} (h : Keeps s0 s) : OutKeeps s0 (execGoWaitTimeout j s) := by
  unfold execGoWaitTimeout
  split
  · exact .refused
  · exact .guardNext (.jobFault h)

protected theorem Keeps.recordSpire {j p : Nat} (h : Keeps s0 s) : Keeps s0 (recordSpire s j p) :=
  .doClear (.modJob h)

protected theorem Keeps.saveAll {j : Nat} {x : Job} (h : Keeps s0 s) : Keeps s0 (saveAll s j x) :=
  .foldl (fun _ _ h => .ite (.modSp h) h) h

protected theorem Keeps.switchOut {j : Nat} {x : Job} (h : Keeps s0 s) : Keeps s0 (switchOut s j x) :=
  .modJob (.ite (.ctlAll (.ite (.foldl (fun _ _ h => .ite (.recordSpire h) h) h) (.foldl (fun _ _ h => .modelUnuse h) (.foldl (fun _ _ h => .ite
      (.recordSpire h) h) h)))) (.ite (.foldl (fun _ _ h => .ite (.recordSpire h) h) h) (.foldl (fun _ _ h => .modelUnuse h) (.foldl (fun _ _ h =>
      .ite (.recordSpire h) h) h))))

protected theorem Keeps.restoreSpire {j : Nat} {x : Job} {p : Nat} (h : Keeps s0 s) : Keeps s0 (restoreSpire s j x p) := by
  unfold restoreSpire
  exact .modSp h

protected theorem Keeps.outCounted {gi j : Nat} (h : Keeps s0 s) : Keeps s0 (outCounted s gi j) := by
  unfold outCounted
  split
  · exact .noteOut (.frame h)
  · exact h

protected theorem Keeps.switchIn {gi j : Nat} {x : Job} (h : Keeps s0 s) : Keeps s0 (switchIn s gi j x) :=
  .recvRetest (.resumeSend (.modJob (.foldl (fun _ _ h => .modSp h) (.modelsUse (.modelsMap (.outCounted h))))))

protected theorem Keeps.restoreDrop {j : Nat} {x : Job} (h : Keeps s0 s) : Keeps s0 (restoreDrop s j x) :=
  .foldl (fun _ _ h => .ite (.doClear h) h) h

protected theorem Keeps.switchBack {j : Nat} {x : Job} (h : Keeps s0 s) : Keeps s0 (switchBack s j x) :=
  .recvRetest (.modJob (.foldl (fun _ _ h => .modSp (.restoreSpire h)) h))

protected theorem Keeps.switchDone {gi j : Nat} {h' : Option (Nat × Job)} {x : Job} (h : Keeps s0 s) : Keeps s0 (switchDone s gi j h' x) := by
  unfold switchDone
  dsimp only
  refine .ite ?_ ?_
  · refine .foldl (fun _ _ h => ?_) ?_
    · exact .restoreSpire h
    · refine .takeGroup ?_
      split
      · exact .ite (.restoreDrop h) (.switchOut h)
      · exact h
  · refine .takeGroup ?_
    split
    · exact .ite (.restoreDrop h) (.switchOut h)
    · exact h

protected theorem Keeps.restoreHeld {j : Nat} (h : Keeps s0 s) : Keeps s0 (restoreHeld s j) :=
  .modJob h

protected theorem Keeps.switchGo {gi : Nat} {g : CoGrp} {j : Nat} {x : Job} (h : Keeps s0 s) : Keeps s0 (switchGo s gi g j x) := by
  unfold switchGo
  refine .ite ?_ ?_
  · split
    next t a e _ =>
      exact .admitCheck (.stopEnd (fun _ h => h) (.ofPair e (.loadsStart h)))
    next t a b e _ =>
      exact .admitCheck (.restoreHeld (.ofPair e (.loadsStart h)))
  · refine .ite ?_ ?_
    · exact .restoreHeld h
    · refine .ite ?_ ?_
      · exact .ite (.switchIn h) (.switchBack h)
      · split
        · exact .ite (.switchDone h) (.saveAll h)
        · exact .switchDone h

protected theorem OutKeeps.execSwitch {gi j : Nat} (h : Keeps s0 s) : OutKeeps s0 (execSwitch gi j s) := by
  unfold execSwitch
  split
  · exact .guardNext (.switchGo h)
  · exact .refused

protected theorem Keeps.quantumEnd {gi : Nat} (h : Keeps s0 s) : Keeps s0 (quantumEnd s gi) := by
  unfold quantumEnd
  dsimp only
  split
  · exact .schedPoint h
  · exact .frame (.schedPoint h)

protected theorem OutKeeps.execQuantumExpiry {gi : Nat} (h : Keeps s0 s) : OutKeeps s0 (execQuantumExpiry gi s) := by
  unfold execQuantumExpiry
  split
  · exact .guardNext (.quantumEnd h)
  · exact .refused

protected theorem OutKeeps.exec {i : Instr} (h : Keeps s0 s) : OutKeeps s0 (exec i s) := by
  cases i with
  | loop => exact .execLoop h
  | endl => exact .execEndl h
  | br => exact .execBr h
  | yield => exact .execYield h
  | halt => exact .execHalt h
  | gate => exact .execGate h
  | finial => exact .execFinial h
  | mma => exact .execMma h
  | mma2 => exact .execMma2 h
  | vopTensor => exact .execVopTensor h
  | vopScalar => exact .execVopScalar h
  | vopDescriptor => exact .execVopDescriptor h
  | sfn => exact .execSfn h
  | rstat => exact .execRstat h
  | cdw => exact .execCdw h
  | attn => exact .execAttn h
  | qnt => exact .execQnt h
  | dqt => exact .execDqt h
  | move => exact .execMove h
  | comb => exact .execComb h
  | xsend => exact .execXsend h
  | xrecvArm => exact .execXrecvArm h
  | xrecvWait => exact .execXrecvWait h
  | sig => exact .execSig h
  | waits => exact .execWaits h
  | fence => exact .execFence h
  | instructionComplete => exact .execInstructionComplete h
  | fenceComplete => exact .execFenceComplete h
  | xsendComplete => exact .execXsendComplete h
  | pstrMgroupStart => exact .execPstrMgroupStart h
  | spireHang => exact .execSpireHang h
  | carriedSpireChange => exact .execCarriedSpireChange h
  | carriedSpireQuantum => exact .execCarriedSpireQuantum h
  | stealIteration => exact .execStealIteration h
  | saveComplete => exact .execSaveComplete h
  | clear => exact .execClear h
  | run => exact .execRun h
  | saveReq => exact .execSaveReq h
  | sfnCompat => exact .execSfnCompat h
  | semaphoreHomeCycle => exact .execSemaphoreHomeCycle h
  | homeWriteApply => exact .execHomeWriteApply h
  | ringAdv => exact .execRingAdv h
  | ringRel => exact .execRingRel h
  | keyListGeneration => exact .execKeyListGeneration h
  | prefixWrite => exact .execPrefixWrite h
  | sqTailDoorbell => exact .execSqTailDoorbell h
  | cqHeadDoorbell => exact .execCqHeadDoorbell h
  | sqEntryFetch => exact .execSqEntryFetch h
  | adminQueueEnable => exact .execAdminQueueEnable h
  | adminQueueDisable => exact .execAdminQueueDisable h
  | bar4Access => exact .execBar4Access h
  | qpCreate => exact .execQpCreate h
  | qpDelete => exact .execQpDelete h
  | qpAllot => exact .execQpAllot h
  | programLoad => exact .execProgramLoad h
  | programUnload => exact .execProgramUnload h
  | jobAdmit => exact .execJobAdmit h
  | jobRelease => exact .execJobRelease h
  | modelLoad => exact .execModelLoad h
  | modelPin => exact .execModelPin h
  | modelUnpin => exact .execModelUnpin h
  | modelEvict => exact .execModelEvict h
  | modelLoadComplete => exact .execModelLoadComplete h
  | hotsetEvictionEnd => exact .execHotsetEvictionEnd h
  | windowMap => exact .execWindowMap h
  | windowUnmap => exact .execWindowUnmap h
  | query => exact .execQuery h
  | asyncEvent => exact .execAsyncEvent h
  | margin => exact .execMargin h
  | calibRead => exact .execCalibRead h
  | calibWrite => exact .execCalibWrite h
  | evrFreeze => exact .execEvrFreeze h
  | evrUnfreeze => exact .execEvrUnfreeze h
  | evrClear => exact .execEvrClear h
  | submit => exact .execSubmit h
  | dma => exact .execDma h
  | codecOpen => exact .execCodecOpen h
  | codecClose => exact .execCodecClose h
  | codecFrame => exact .execCodecFrame h
  | codecRelease => exact .execCodecRelease h
  | requestDispatch => exact .execRequestDispatch h
  | requestCompletion => exact .execRequestCompletion h
  | msixCoalesceTimeout => exact .execMsixCoalesceTimeout h
  | functionLevelReset => exact .execFunctionLevelReset h
  | hotReset => exact .execHotReset h
  | doeDiscovery => exact .execDoeDiscovery h
  | doeAbort => exact .execDoeAbort h
  | getCerts => exact .execGetCerts h
  | getReport => exact .execGetReport h
  | keyDeliver => exact .execKeyDeliver h
  | switch => exact .execSwitch h
  | quantumExpiry => exact .execQuantumExpiry h
  | collWatchdog => exact .execCollWatchdog h
  | goWaitTimeout => exact .execGoWaitTimeout h
  | data => exact .execData h
  | link => exact .execLink h
  | ackTimer => exact .execAckTimer h
  | replayTimeout => exact .execReplayTimeout h
  | portTraining => exact .execPortTraining h
  | portTrainRetry => exact .execPortTrainRetry h
  | linkDown => exact .execLinkDown h
  | helloTimer => exact .execHelloTimer h
  | roster => exact .execRoster h
  | towers => exact .execTowers h
  | reqReady => exact .execReqReady h
  | redVerdict => exact .execRedVerdict h
  | go => exact .execGo h
  | pause => exact .execPause h
  | resume => exact .execResume h
  | reqEnd => exact .execReqEnd h
  | jobFault => exact .execJobFault h
  | beat => exact .execBeat h
  | beatTimer => exact .execBeatTimer h
  | beatTimeout => exact .execBeatTimeout h
  | landed => exact .execLanded h
  | redResult => exact .execRedResult h
  | frameStart => exact .execFrameStart h
  | frameEnd => exact .execFrameEnd h
  | codecEngineHang => exact .execCodecEngineHang h
  | vaultRefresh => exact .execVaultRefresh h
  | vaultTempSample => exact .execVaultTempSample h
  | vaultWriteTurn => exact .execVaultWriteTurn h
  | vaultPatrol => exact .execVaultPatrol h
  | farAccessTimeout => exact .execFarAccessTimeout h
  | farUeWindowEnd => exact .execFarUeWindowEnd h
  | farRefreshRead => exact .execFarRefreshRead h
  | farWriteLost => exact .execFarWriteLost h
  | hostCompletionTimeout => exact .execHostCompletionTimeout h
  | arbGrant => exact .execArbGrant h
  | arbWithdraw => exact .execArbWithdraw h
  | arbWindowEnd => exact .execArbWindowEnd h
  | arbStarveFlag => exact .execArbStarveFlag h
  | netArbMode => exact .execNetArbMode h
  | evrData7Read => exact .execEvrData7Read h
  | evrFlush => exact .execEvrFlush h
  | evrFreezeLimit => exact .execEvrFreezeLimit h
  | storeHourlyWrite => exact .execStoreHourlyWrite h
  | coldReset => exact .execColdReset h
  | pwrgdFall => exact .execPwrgdFall h
  | warmReset => exact .execWarmReset h
  | perstNDeassert => exact .execPerstNDeassert h
  | farMemoryTraining => exact .execFarMemoryTraining h
  | pwrGateEn => exact .execPwrGateEn h
  | gateTransitionEnd => exact .execGateTransitionEnd h
  | thermalLevelUpdate => exact .execThermalLevelUpdate h
  | powerEstimate => exact .execPowerEstimate h
  | devLevelUpdate => exact .execDevLevelUpdate h
  | coreCurrentEstimate => exact .execCoreCurrentEstimate h
  | levelChangeDone => exact .execLevelChangeDone h
  | thermalTrip => exact .execThermalTrip h
  | shutdown => exact .execShutdown h
  | alertCauseClear => exact .execAlertCauseClear h
  | pllLockLost => exact .execPllLockLost h
  | railOutOfTolerance => exact .execRailOutOfTolerance h
  | lanternWatchdogExpiry => exact .execLanternWatchdogExpiry h
  | mgmtStatus => exact .execMgmtStatus h
  | mgmtShutdown => exact .execMgmtShutdown h
  | flashRead => exact .execFlashRead h
  | flashErase => exact .execFlashErase h
  | flashProgram => exact .execFlashProgram h
  | recoveryData => exact .execRecoveryData h
  | mgmtRecoveryBoot => exact .execMgmtRecoveryBoot h
  | bar0BadAccess _ _ _ write => exact .execBar0BadAccess (_write := write) h
  | registerWrite => exact .execRegisterWrite h
  | marginComplete => exact .execMarginComplete h
  | pmD3hotEntry => exact .execPmD3hotEntry h
  | vfEnable => exact .execVfEnable h
  | doeUnsupportedObject => exact .execDoeUnsupportedObject h
  | jtagBoundaryScan => exact .execJtagBoundaryScan h

protected theorem Keeps.ueSeen (h : Keeps s0 s) : Keeps s0 (ueSeen s) :=
  .frame h

protected theorem Keeps.lanternTick (h : Keeps s0 s) : Keeps s0 (lanternTick s) :=
  .ite (.shutdownEnd (.flashTick h)) (.ite (.faultReset (.flashTick h)) (.flashTick h))

protected theorem Keeps.endersFlush (h : Keeps s0 s) : Keeps s0 (endersFlush s) :=
  .foldl (fun _ _ h => .endersEnd h) h

protected theorem Keeps.tick (h : Keeps s0 s) : Keeps s0 (tick s) :=
  .lanternTick (.ite (.endersFlush (.frame (.ueSeen h))) (.frame h))

end

/-- What a step keeps of the invariants, whether it runs a command or lets time pass. -/
theorem step_keeps {s t : State} (h : step s = .next t) : (MemInv s → MemInv t) ∧ (RegInv s → RegInv t) := by
  unfold step at h
  split at h
  case h_1 =>
    have hk : Keeps s t := OutKeeps.next (.tick .refl) t h
    exact ⟨hk.mem, hk.reg⟩
  case h_2 c rest _ =>
    have hk : Keeps { s with pending := rest } t := OutKeeps.exec .refl t h
    exact ⟨fun ⟨hhmem, hmem, hfar, hflash, hold, hrec⟩ => hk.mem ⟨hhmem, hmem, hfar, hflash, hold, hrec⟩,
      fun ⟨hmode, hquantum, hlim, hlev, hfence⟩ => hk.reg ⟨hmode, hquantum, hlim, hlev, hfence⟩⟩

/-- Settles O5: every operation that a command is made of keeps the form. -/
theorem stepKeepsMemoryCanonical : Obligations.StepKeepsMemoryCanonical :=
  fun _ _ hs h => (step_keeps h).1 hs

/-- Settles O6: every operation that a command is made of keeps the ranges. -/
theorem stepKeepsRegisterRanges : Obligations.StepKeepsRegisterRanges :=
  fun _ _ hs h => (step_keeps h).2 hs

/-- Settles O7. -/
theorem execLeavesTheQueue : Obligations.ExecLeavesTheQueue :=
  fun _ _ t h => (OutKeeps.exec .refl t h).pending

end Sys2Proof.Machine
end

section
/-! The control words of the sequencer (04 R109, R110, R125 to R129): what LOOP, ENDL, BR, YIELD, HALT, GATE, FINIAL and VOP in scalar and in
descriptor form do where they are issued, and what they leave unchanged. -/
namespace Sys2Proof.Machine

section
variable {s : State} {p w : Nat} {i : Iss}

/-- What a fetched word meets: the spire, its current context, its job. -/
theorem issOf_eq_some (h : issOf s p w = some i) :
    i.x = spOf s p ∧ curCtx i.x = some i.c ∧ i.x.job = some i.j ∧ jobOf s i.j = some i.y ∧ curWord i.x i.c = some w := by
  unfold issOf at h
  split at h
  · cases h
  · split at h
    case h_1 c j hctx hjob =>
      split at h
      case h_1 y hy =>
        split at h
        case isTrue hword =>
          cases h
          exact ⟨rfl, hctx, hjob, hy, hword⟩
        case isFalse => cases h
      case h_2 => cases h
    case h_2 => cases h

theorem issOf_spire (h : issOf s p w = some i) : i.x = spOf s p := (issOf_eq_some h).1
theorem issOf_job (h : issOf s p w = some i) : jobOf s i.j = some i.y := (issOf_eq_some h).2.2.2.1
end

section
variable {s : State} {p : Nat} {w : IWord} {i : Iss}

theorem exec_loop_of_issues (h : Issues .loop s p w i) : exec (.loop p ⟨w, []⟩) s =
    if 8 ≤ i.c.loops.length then .next (refuse s p i.j i.c (chk true 0x107))
    else .next (atOnce s p (loopCtx i.y.steal i.c w.toNat)) := by
  have harm : exec (.loop p ⟨w, []⟩) s = execLoop p ⟨w, []⟩ s := rfl
  rw [harm, execLoop, seqIssue, wordMet_no_events, issue_any _ h]

theorem exec_endl_of_issues (h : Issues .endl s p w i) (hown : i.x.stolen = none) : exec (.endl p ⟨w, []⟩) s =
    guardNext (!endlHeld i.x i.c) .notIssuable (traceAdd (atOnce s p (endlCtx i.c)) i.j (endlMarks i.c)) := by
  have harm : exec (.endl p ⟨w, []⟩) s = execEndl p ⟨w, []⟩ s := rfl
  rw [harm, execEndl, seqIssue, wordMet_no_events, issue_any _ h, hown]

theorem exec_endl_of_stolen {z : Stolen} (h : Issues .endl s p w i) (hz : i.x.stolen = some z) : exec (.endl p ⟨w, []⟩) s =
    guardNext i.x.infl.isEmpty .notIssuable (stolenEnd s p z) := by
  have harm : exec (.endl p ⟨w, []⟩) s = execEndl p ⟨w, []⟩ s := rfl
  rw [harm, execEndl, seqIssue, wordMet_no_events, issue_any _ h, hz]

theorem exec_br_of_issues (h : Issues .br s p w i) : exec (.br p ⟨w, []⟩) s =
    .next (atOnce s p { i.c with pc := ((i.c.pc : Int) + brOffset w.toNat).toNat }) := by
  have harm : exec (.br p ⟨w, []⟩) s = execBr p ⟨w, []⟩ s := rfl
  rw [harm, execBr, seqIssue, wordMet_no_events, issue_any _ h]

theorem exec_yield_of_issues (h : Issues .yield s p w i) : exec (.yield p ⟨w, []⟩) s =
    .next (modSp s p fun x => settle { setCtx x (pcNext i.c) with changing := x.changing || (x.stolen.isNone && runnable x.other) }) := by
  have harm : exec (.yield p ⟨w, []⟩) s = execYield p ⟨w, []⟩ s := rfl
  rw [harm, execYield, seqIssue, wordMet_no_events, issue_any _ h]

theorem exec_halt_of_issues (h : Issues .halt s p w i) : exec (.halt p ⟨w, []⟩) s =
    .next (atOnce s p { i.c with halting := true }) := by
  have harm : exec (.halt p ⟨w, []⟩) s = execHalt p ⟨w, []⟩ s := rfl
  rw [harm, execHalt, seqIssue, wordMet_no_events, issue_any _ h]

/-- The marker of a FINIAL: TAG, logical spire, cycles since the dispatch. -/
def finialMark (i : Iss) (n : Nat) : List Nat := [fld n 127 96, i.c.lidx, (i.x.cycles - i.x.cycDisp) % 2 ^ 64]

theorem exec_finial_of_issues (h : Issues .finial s p w i) : exec (.finial p ⟨w, []⟩) s =
    .next (if i.x.stolen.isSome && i.y.trace then modSp (atOnce s p (pcNext i.c)) p fun x =>
        { x with stolen := x.stolen.map fun t => { t with marks := t.marks ++ [finialMark i w.toNat] } }
      else traceAdd (atOnce s p (pcNext i.c)) i.j [finialMark i w.toNat]) := by
  have harm : exec (.finial p ⟨w, []⟩) s = execFinial p ⟨w, []⟩ s := rfl
  rw [harm, execFinial, seqIssue, wordMet_no_events, issue_any _ h]
  rfl

theorem exec_vopScalar_of_issues (h : Issues .vop s p w i) (hform : fld w.toNat 127 126 = 1) : exec (.vopScalar p ⟨w, []⟩) s =
    .next (atOnce s p (vopScalarCtx i.c w.toNat)) := by
  have harm : exec (.vopScalar p ⟨w, []⟩) s = execVopScalar p ⟨w, []⟩ s := rfl
  rw [harm, execVopScalar, seqIssue, wordMet_no_events, issue_of_issues _ h (decide_eq_true hform)]

theorem exec_vopDescriptor_of_issues (h : Issues .vop s p w i) (hform : fld w.toNat 127 126 = 2) : exec (.vopDescriptor p ⟨w, []⟩) s =
    .next (atOnce s p (vopDescCtx i.c w.toNat)) := by
  have harm : exec (.vopDescriptor p ⟨w, []⟩) s = execVopDescriptor p ⟨w, []⟩ s := rfl
  rw [harm, execVopDescriptor, seqIssue, wordMet_no_events, issue_of_issues _ h (decide_eq_true hform)]
end

/-! The trace ring. -/

@[simp] theorem traceAdd_nil (s : State) (j : Nat) : traceAdd s j [] = s := rfl

/-- Markers enter a job's ring while it traces. -/
theorem traceAdd_of_job {s : State} {j : Nat} {y : Job} (ms : List (List Nat)) (h : jobOf s j = some y) (hms : ms ≠ []) :
    traceAdd s j ms = setJob s j { y with traceRing := if y.trace then y.traceRing ++ ms else y.traceRing } := by
  have hempty : ms.isEmpty = false := by simpa using hms
  rw [traceAdd, hempty, if_neg Bool.false_ne_true, modJob_of_job _ h]
  congr 1
  split <;> rfl

@[simp] theorem jobOf_modSp (s : State) (p : Nat) (f : Spire → Spire) (j : Nat) : jobOf (modSp s p f) j = jobOf s j := rfl
@[simp] theorem jobOf_atOnce (s : State) (p : Nat) (c : LCtx) (j : Nat) : jobOf (atOnce s p c) j = jobOf s j := rfl

theorem jobOf_traceAdd {s : State} {j : Nat} {y : Job} (ms : List (List Nat)) (h : jobOf s j = some y) :
    jobOf (traceAdd s j ms) j = some { y with traceRing := if y.trace then y.traceRing ++ ms else y.traceRing } := by
  cases hms : ms with
  | nil => simp [h]
  | cons m l =>
    rw [traceAdd_of_job _ h (List.cons_ne_nil m l), jobOf_setJob_self]

theorem traceAdd_frame (s : State) (j : Nat) (ms : List (List Nat)) : ∃ jobs, traceAdd s j ms = { s with jobs := jobs } := by
  cases ms with
  | nil => exact ⟨_, rfl⟩
  | cons m l =>
    simp only [traceAdd, modJob]
    cases jobOf s j <;> exact ⟨_, rfl⟩

@[simp] theorem spOf_traceAdd (s : State) (j : Nat) (ms : List (List Nat)) (q : Nat) : spOf (traceAdd s j ms) q = spOf s q := by
  obtain ⟨_, hframe⟩ := traceAdd_frame s j ms
  rw [hframe]
  rfl

theorem jobOf_traceAdd_ne {s : State} {j k : Nat} (ms : List (List Nat)) (h : j ≠ k) : jobOf (traceAdd s j ms) k = jobOf s k := by
  cases ms with
  | nil => rfl
  | cons m l => exact jobOf_modJob_ne h

/-- Settles O9. -/
theorem loopAndEndlComplete : Obligations.LoopAndEndlComplete := by
  refine ⟨?opens, ?skips, ?depth, ?again, ?closes, ?trace, ?stolen⟩
  case opens =>
    intro s p w i h hfew hcnt
    rw [exec_loop_of_issues h, if_neg (by omega), loopCtx, if_neg hcnt]
    rfl
  case skips =>
    intro s p w i h hfew hcnt
    rw [exec_loop_of_issues h, if_neg (by omega), loopCtx, if_pos hcnt]
  case depth =>
    intro s p w i h hfull
    rw [exec_loop_of_issues h, if_pos hfull]
    rfl
  case again =>
    intro s p w i f rest h hown hloops hleft
    have hfree : endlHeld i.x i.c = false := by simp [endlHeld, hloops]; omega
    rw [exec_endl_of_issues h hown, hfree]
    simp [endlCtx, endlMarks, hloops, hleft]
  case closes =>
    intro s p w i f rest h hown hloops hlast hback hidle
    have hfree : endlHeld i.x i.c = false := by
      rw [endlHeld, hloops]
      simp only [hback, Nat.lt_irrefl, decide_false, Bool.false_or, Bool.and_eq_false_iff]
      refine .inr (hidle.imp id fun hnone => ?_)
      rw [List.any_eq_false]
      intro g hg
      simpa [and_assoc] using hnone g hg
    rw [exec_endl_of_issues h hown, hfree]
    simp [endlCtx, endlMarks, hloops, Nat.not_lt.mpr hlast, pcNext]
  case trace => exact fun s j ms y hy => ⟨rfl, jobOf_traceAdd ms hy⟩
  case stolen =>
    intro s p w i t h hz hidle
    rw [exec_endl_of_stolen h hz, hidle]
    rfl

/-- Settles O10. -/
theorem branchYieldHaltComplete : Obligations.BranchYieldHaltComplete :=
  ⟨fun _ _ _ _ h => exec_br_of_issues h, fun _ _ _ _ h => exec_yield_of_issues h, fun _ _ _ _ h => exec_halt_of_issues h⟩

/-- Nothing of a spire but its state and contexts changes when it settles. -/
theorem settle_stolen {x : Spire} {z : Stolen} (h : x.stolen = some z) : (settle x).stolen = some z := by
  unfold settle
  split
  · exact h
  · simp [h]

theorem setCtx_of_stolen {x : Spire} {z : Stolen} (c : LCtx) (h : x.stolen = some z) :
    setCtx x c = { x with stolen := some { z with ctx := c } } := by
  simp [setCtx, h]

theorem setCtx_of_own {x : Spire} (c : LCtx) (h : x.stolen = none) : setCtx x c = { x with run := some c } := by
  simp [setCtx, h]

/-- Settles O11. -/
theorem gateAndFinialComplete : Obligations.GateAndFinialComplete := by
  refine ⟨fun s p w i h hlegal hfree hreach => exec_gate_of_issues h hlegal hfree hreach, fun s p w i h => ⟨fun hout => ?ring, fun z hz htrace =>
      ?held⟩⟩
  case ring =>
    have hnot : (i.x.stolen.isSome && i.y.trace) = false := by
      rcases hout with hown | hoff
      · simp [hown]
      · simp [hoff]
    rw [exec_finial_of_issues h, hnot]
    rfl
  case held =>
    have hheld : (i.x.stolen.isSome && i.y.trace) = true := by simp [hz, htrace]
    have hx := issOf_spire h.fetched
    rw [exec_finial_of_issues h, hheld]
    refine ⟨_, rfl, rfl, fun q hq => ?_, ?_⟩
    · simp [atOnce, spOf_modSp_ne (Ne.symm hq)]
    · have hset : (setCtx (spOf s p) (pcNext i.c)).stolen = some { z with ctx := pcNext i.c } := by
        rw [← hx, setCtx_of_stolen _ hz]
      simp only [if_true, atOnce, spOf_modSp_self, settle_stolen hset, Option.map_some]
      rfl

/-! VOP in scalar and descriptor form. -/

/-- A difference modulo 2^64. -/
theorem wrap64_sub {a b : Nat} (ha : a < 2 ^ 64) (hb : b < 2 ^ 64) : wrap64 ((a : Int) - b) = (a + 2 ^ 64 - b) % 2 ^ 64 := by
  simp only [wrap64]
  omega

theorem vopScalarCtx_of_value {c : LCtx} {n : Nat} (h : fld n 110 105 < 0x10) : vopScalarCtx c n =
    { c with pc := c.pc + 1
             sregs := tset c.sregs (fld n 125 121) (scalarOp (fld n 110 105) (sF c n 125 121) (sF c n 120 116)
               (if bitOf n 104 then wrap64 (sext 32 (fld n 103 72)) else sF c n 115 111) (fld n 103 72)) } := by
  have hop : isCmp (fld n 110 105) = false := decide_eq_false (by omega)
  simp only [vopScalarCtx, hop]
  rfl

theorem vopScalarCtx_of_compare {c : LCtx} {n : Nat} (h : 0x10 ≤ fld n 110 105) : vopScalarCtx c n =
    { c with pc := c.pc + 1
             preds := predSet c.preds (fld n 71 69) (scalarCmp (fld n 110 105) (sF c n 120 116)
               (if bitOf n 104 then wrap64 (sext 32 (fld n 103 72)) else sF c n 115 111)) } := by
  have hop : isCmp (fld n 110 105) = true := decide_eq_true h
  simp only [vopScalarCtx, hop]
  rfl

/-- Settles O13. -/
theorem scalarAndDescriptorVopComplete : Obligations.ScalarAndDescriptorVopComplete := by
  refine ⟨fun s p w i h hform => ?scalar, fun s p w i h hform => ?descriptor⟩
  case scalar =>
    rw [exec_vopScalar_of_issues h hform]
    refine ⟨fun hop => ?sum, fun hop ha hb => ?difference, fun hop => ?less, fun hop => ?value, fun hop => ?compare⟩
    case sum => rw [vopScalarCtx_of_value (by omega), hop]; rfl
    case difference => rw [vopScalarCtx_of_value (by omega), hop, ← wrap64_sub ha hb]; rfl
    case less => rw [vopScalarCtx_of_compare (by omega), hop]; rfl
    case value => rw [vopScalarCtx_of_value hop]
    case compare => rw [vopScalarCtx_of_compare hop]
  case descriptor =>
    rw [exec_vopDescriptor_of_issues h hform]
    exact ⟨fun hread => by simp [vopDescCtx, hread, pcNext], fun hwrite => by simp [vopDescCtx, hwrite, pcNext]⟩

/-! What these words leave unchanged. -/

/-- A halting context ends once nothing is in flight (04 R126). -/
def endHalting (infl : List InFl) (c : LCtx) : LCtx := if c.halting && infl.isEmpty then { c with halted := true } else c

/-- What a spire that settles changes: its state, and the end of an own context that halts. -/
theorem settle_eq (x : Spire) : settle x = x
    ∨ ∃ st, settle x = { x with st := st, run := if x.stolen.isSome then x.run else x.run.map (endHalting x.infl) } := by
  unfold settle
  split
  · exact .inl rfl
  · right
    split <;> rename_i hz
    · simp only [hz, if_true, Bool.true_or]
      exact ⟨_, rfl⟩
    · simp only [hz, Bool.false_or]
      split
      · exact ⟨_, rfl⟩
      · split
        · exact ⟨_, rfl⟩
        · split
          · exact ⟨_, rfl⟩
          · split <;> exact ⟨_, rfl⟩

/-- Once a spire settles on a context, its state may have changed, and its own context may have halted. -/
theorem settle_setCtx (x : Spire) (c : LCtx) : ∃ st, settle (setCtx x c) = setCtx { x with st := st } c
    ∨ x.stolen = none ∧ c.halting = true ∧ x.infl = [] ∧ settle (setCtx x c) = setCtx { x with st := st } { c with halted := true } := by
  rcases settle_eq (setCtx x c) with hsame | ⟨st, hnew⟩
  · exact ⟨x.st, .inl hsame⟩
  refine ⟨st, ?_⟩
  rw [hnew]
  rcases hz : x.stolen with _ | z
  case some => exact .inl (by simp [setCtx, hz])
  case none =>
    by_cases hends : c.halting = true ∧ x.infl = []
    · exact .inr ⟨rfl, hends.1, hends.2, by simp [setCtx, hz, endHalting, hends]⟩
    · have hgoes : (c.halting && x.infl.isEmpty) = false := by simpa [← Bool.not_eq_true] using hends
      exact .inl (by simp [setCtx, hz, endHalting, hgoes])

section
variable {s : State} {p : Nat} {w : IWord} {i : Iss}

/-- A word done at once on its context changes its own spire only. -/
theorem ownSpireOnly_of_atOnce {n : Nat} {c : LCtx} {k : Instr} {keeps : LCtx → LCtx} (hi : issOf s p n = some i)
    (hk : exec k s = .next (atOnce s p c)) (hc : c = keeps c) : OwnSpireOnly s p i k keeps := by
  intro t ht
  rw [hk] at ht
  cases ht
  obtain ⟨st, hsettle⟩ := settle_setCtx i.x c
  refine ⟨rfl, fun q hq => spOf_modSp_ne (Ne.symm hq), st, c, hc, ?_⟩
  rw [atOnce, spOf_modSp_self, ← issOf_spire hi]
  exact hsettle
end

/-- Settles O14. -/
theorem atOnceChangesItsSpireOnly : Obligations.AtOnceChangesItsSpireOnly := by
  refine ⟨fun s p w i => ⟨?loop, ?endl, ?br, ?halt, ?scalar, ?descriptor⟩, fun s p w i t h ht => ?anyEndl, fun preds v => rfl⟩
  case loop =>
    intro h hfew
    refine ownSpireOnly_of_atOnce h.fetched ((exec_loop_of_issues h).trans (if_neg (by omega))) ?_
    unfold loopCtx
    split <;> rfl
  case endl =>
    intro h hown hmarks t ht
    rw [exec_endl_of_issues h hown, guardNext_next] at ht
    have hnone : endlMarks i.c = [] := by
      unfold endlMarks
      split
      case h_1 f _ hloops =>
        have hf : f.marks = [] := hmarks f (by rw [hloops]; rfl)
        simp [hf]
      case h_2 => rfl
    obtain ⟨hfree, rfl⟩ := ht
    refine ownSpireOnly_of_atOnce (c := endlCtx i.c) h.fetched ?_ ?_ _ (by rw [exec_endl_of_issues h hown, hfree]; rfl)
    · rw [exec_endl_of_issues h hown, hfree, hnone]
      rfl
    · unfold endlCtx
      split
      · rfl
      · split <;> rfl
  case br => exact fun h => ownSpireOnly_of_atOnce h.fetched (exec_br_of_issues h) rfl
  case halt => exact fun h => ownSpireOnly_of_atOnce h.fetched (exec_halt_of_issues h) rfl
  case scalar =>
    intro h hform
    refine ownSpireOnly_of_atOnce h.fetched (exec_vopScalar_of_issues h hform) ?_
    unfold vopScalarCtx
    dsimp only
    split <;> rfl
  case descriptor =>
    intro h hform
    refine ownSpireOnly_of_atOnce h.fetched (exec_vopDescriptor_of_issues h hform) ?_
    unfold vopDescCtx
    dsimp only
    split <;> rfl
  case anyEndl =>
    have hx := issOf_spire h.fetched
    have hy := issOf_job h.fetched
    rcases hz : i.x.stolen with _ | z
    case none =>
      rw [exec_endl_of_issues h hz, guardNext_next] at ht
      obtain ⟨-, rfl⟩ := ht
      refine ⟨?_, fun q hq _ => ?_, (fun z hz' => nomatch hz'), fun j hj => jobOf_traceAdd_ne _ (Ne.symm hj), _, jobOf_traceAdd _ hy⟩
      · obtain ⟨_, hframe⟩ := traceAdd_frame (atOnce s p (endlCtx i.c)) i.j (endlMarks i.c)
        rw [hframe]
        rfl
      · rw [spOf_traceAdd, atOnce, spOf_modSp_ne (Ne.symm hq)]
    case some =>
      rw [exec_endl_of_stolen h hz, guardNext_next] at ht
      obtain ⟨-, rfl⟩ := ht
      refine ⟨rfl, fun q hq hq' => ?_, fun z' hz' hne => ?_, fun j hj => rfl, i.y.traceRing, hy⟩
      · have ho : z.owner ≠ q := Ne.symm (hq' z rfl)
        rw [stolenEnd, spOf_modSp_ne ho, spOf_modSp_ne (Ne.symm hq)]
      · cases hz'
        exact ⟨_, _, by rw [stolenEnd, spOf_modSp_self, spOf_modSp_ne (Ne.symm hne)]⟩

end Sys2Proof.Machine
end

section
/-! What holds of every tile command alike: it is refused where it is not well-formed, an illegal word ends its job, a word whose predicate
does not hold passes on, and a data instruction that may go takes its effect (04 R96, R97, R101). -/
namespace Sys2Proof.Machine

section
variable {o : Op} {form : Nat → Bool} {s : State} {p : Nat} {w : IWord} {i : Iss}

theorem tileWf_iff {b : Bool} : tileWf o p w b = true ↔ p < 256 ∧ (isOp o w.toNat = true ∧ b = true ∨ wordLegal w.toNat = false) := by
  simp [tileWf]

@[simp] theorem dataIssue_no_events (mk : State → Nat → Iss → Nat → DataOp) : dataIssue o form s p w mk =
    issue o form s p w fun i n => dataStep s p i n (mk s p i n) [] := rfl
end

/-- The command `c` presents the word `w` to physical spire `p` as one of opcode `o` in a form, its accesses meeting no event. -/
structure Presents (c : Instr) (o : Op) (form : Nat → Bool) (p : Nat) (w : IWord) : Prop where
  wf : c.wf = (tileWf o p w (form w.toNat) && true)
  exec : ∀ s, ∃ go, exec c s = issue o form s p w go

section
variable {c : Instr} {o : Op} {form : Nat → Bool} {p : Nat} {w : IWord}

theorem presents_of_met (hwf : c.wf = (tileWf o p w (form w.toNat) && true))
    (hexec : ∀ s, ∃ may go, exec c s = wordMet s p ⟨w, []⟩ may (issue o form s p w go)) : ∃ o form, Presents c o form p w :=
  ⟨o, form, hwf, fun s =>
    have ⟨_, go, h⟩ := hexec s
    ⟨go, by rw [h, wordMet_no_events]⟩⟩

theorem presents_of_data (hwf : c.wf = (tileWf o p w (form w.toNat) && true)) (hexec : ∀ s, ∃ mk, exec c s = dataIssue o form s p w mk) :
    ∃ o form, Presents c o form p w :=
  ⟨o, form, hwf, fun s =>
    have ⟨_, h⟩ := hexec s
    ⟨_, by rw [h, dataIssue_no_events]⟩⟩
end

theorem presents_of_tileCommand {p : Nat} {w : IWord} : ∀ c ∈ tileCommands p w, ∃ o form, Presents c o form p w := by
  simp only [tileCommands, List.forall_mem_cons]
  exact ⟨presents_of_met (o := .loop) (form := anyForm) rfl fun _ => ⟨_, _, rfl⟩,
    presents_of_met (o := .endl) (form := anyForm) rfl fun _ => ⟨_, _, rfl⟩,
    presents_of_met (o := .br) (form := anyForm) rfl fun _ => ⟨_, _, rfl⟩,
    presents_of_met (o := .yield) (form := anyForm) rfl fun _ => ⟨_, _, rfl⟩,
    presents_of_met (o := .halt) (form := anyForm) rfl fun _ => ⟨_, _, rfl⟩,
    presents_of_met (o := .gate) (form := anyForm) rfl fun _ => ⟨_, _, rfl⟩,
    presents_of_met (o := .finial) (form := anyForm) rfl fun _ => ⟨_, _, rfl⟩,
    presents_of_data (o := .mma) (form := anyForm) rfl fun _ => ⟨_, rfl⟩,
    presents_of_data (o := .mma2) (form := anyForm) rfl fun _ => ⟨_, rfl⟩,
    presents_of_data (o := .vop) (form := vopForm 0) rfl fun _ => ⟨_, rfl⟩,
    presents_of_met (o := .vop) (form := vopForm 1) rfl fun _ => ⟨_, _, rfl⟩,
    presents_of_met (o := .vop) (form := vopForm 2) rfl fun _ => ⟨_, _, rfl⟩,
    presents_of_data (o := .sfn) (form := anyForm) rfl fun _ => ⟨_, rfl⟩,
    presents_of_data (o := .rstat) (form := anyForm) rfl fun _ => ⟨_, rfl⟩,
    presents_of_data (o := .cdw) (form := anyForm) rfl fun _ => ⟨_, rfl⟩,
    presents_of_data (o := .attn) (form := anyForm) rfl fun _ => ⟨_, rfl⟩,
    presents_of_data (o := .qnt) (form := anyForm) rfl fun _ => ⟨_, rfl⟩,
    presents_of_data (o := .dqt) (form := anyForm) rfl fun _ => ⟨_, rfl⟩,
    presents_of_data (o := .move) (form := anyForm) rfl fun _ => ⟨_, rfl⟩,
    presents_of_data (o := .comb) (form := anyForm) rfl fun _ => ⟨_, rfl⟩,
    presents_of_data (o := .xsend) (form := anyForm) rfl fun _ => ⟨_, rfl⟩,
    presents_of_met (o := .xrecv) (form := fun n => !bitOf n 113) rfl fun _ => ⟨_, _, rfl⟩,
    presents_of_met (o := .xrecv) (form := fun n => bitOf n 113) rfl fun _ => ⟨_, _, rfl⟩,
    presents_of_met (o := .sig) (form := anyForm) rfl fun _ => ⟨_, _, rfl⟩,
    presents_of_met (o := .waits) (form := anyForm) rfl fun _ => ⟨_, _, rfl⟩,
    presents_of_met (o := .fence) (form := anyForm) rfl fun _ => ⟨_, _, rfl⟩,
    List.forall_mem_nil _⟩

/-- Settles O19: whichever opcode and form presents it, the issue of a word whose predicate does not hold passes on. -/
theorem unpredicatedWordHasNoEffect : Obligations.UnpredicatedWordHasNoEffect := by
  intro s p w i hi hmay hlegal hpred c hc hwf
  obtain ⟨o, form, hc⟩ := presents_of_tileCommand c hc
  obtain ⟨go, hexec⟩ := hc.exec s
  rw [hc.wf, Bool.and_true, tileWf_iff] at hwf
  obtain ⟨hp, ⟨hop, hform⟩ | hillegal⟩ := hwf
  · rw [hexec, issue_of_not_pred go hp hop hform hi hmay hlegal hpred, pcSkip]
    split <;> rfl
  · rw [hlegal] at hillegal
    cases hillegal

/-- Settles O20: whichever opcode and form presents it, the issue of an illegal word refuses it with cause 0100h. -/
theorem illegalWordFaultsItsJob : Obligations.IllegalWordFaultsItsJob := by
  intro s p w i hp hi hmay hlegal c hc
  obtain ⟨o, form, hc⟩ := presents_of_tileCommand c hc
  obtain ⟨go, hexec⟩ := hc.exec s
  rw [hexec]
  have hp : ¬ 256 ≤ p := by omega
  simp [issue, hp, hi, hmay, hlegal, refuse, chk]

/-- Settles O15. -/
theorem dataInstructionsComplete : Obligations.DataInstructionsComplete :=
  ⟨fun _ _ _ _ => dataIssue_any, fun _ _ _ _ => dataIssue_any, fun _ _ _ _ h hform => dataIssue_goes h (decide_eq_true hform),
    fun _ _ _ _ => dataIssue_any, fun _ _ _ _ => dataIssue_any, fun _ _ _ _ => dataIssue_any, fun _ _ _ _ => dataIssue_any,
    fun _ _ _ _ => dataIssue_any, fun _ _ _ _ => dataIssue_any, fun _ _ _ _ => dataIssue_any, fun _ _ _ _ => dataIssue_any,
    fun _ _ _ _ => dataIssue_any⟩

end Sys2Proof.Machine
end

section
/-! Completions, fences, sends and receives of a spire, and the semaphores (03 R83; 04 R122, R123; 11 R258; 12 R278; 14 R326 to R328). -/
namespace Sys2Proof.Machine

section
variable {s : State} {p seq : Nat} {f : InFl} {j : Nat}

theorem exec_instructionComplete (hf : inflOf (spOf s p) seq = some f) : exec (.instructionComplete p seq) s =
    guardNext (spClk s p && workDone s p f) .notEnabled (finish s p f) := by
  have harm : exec (.instructionComplete p seq) s = execInstructionComplete p seq s := rfl
  rw [harm, execInstructionComplete, hf]

theorem exec_fenceComplete (hf : inflOf (spOf s p) seq = some f) (hj : (spOf s p).job = some j) : exec (.fenceComplete p seq) s =
    guardNext (spClk s p && f.wait = 1 && fenceDone s p j f) .notEnabled (finish s p f) := by
  have harm : exec (.fenceComplete p seq) s = execFenceComplete p seq s := rfl
  rw [harm, execFenceComplete, hf, hj]

theorem exec_xsendComplete (hf : inflOf (spOf s p) seq = some f) : exec (.xsendComplete p seq) s =
    guardNext (spClk s p && f.wait = 2 && (List.range 4).all fun pi => (portOf s pi).txq.all fun g => g.id != nth f.lat 0) .notEnabled
      (finish s p f) := by
  have harm : exec (.xsendComplete p seq) s = execXsendComplete p seq s := rfl
  rw [harm, execXsendComplete, hf]

theorem exec_pstrMgroupStart {c : LCtx} {y : Job} (hj : (spOf s p).job = some j) (hc : curCtx (spOf s p) = some c)
    (hf : pstrOf (spOf s p) seq = some f) (hy : jobOf s j = some y) (hacc : accAll s y (pstrWords (nth f.lat 3) f.mg) [] = none) :
    exec (.pstrMgroupStart p seq) s =
      guardNext (spClk s p && pstrReady s y (nth f.lat 3) f.mg && !pstrHeld s p y f) .notEnabled (pstrGo s p j y c f) := by
  have harm : exec (.pstrMgroupStart p seq) s = execPstrMgroupStart p seq s := rfl
  simp [harm, execPstrMgroupStart, hj, hc, hf, hy, hacc]
end

section
variable {s : State} {p : Nat} {w : IWord} {i : Iss}

theorem exec_fence_of_issues (h : Issues .fence s p w i) : exec (.fence p ⟨w, []⟩) s =
    .next (plainGo s p i { plainInfl i w.toNat 1 with lat := [s.ids, s.now] }) := by
  have harm : exec (.fence p ⟨w, []⟩) s = execFence p ⟨w, []⟩ s := rfl
  rw [harm, execFence, seqIssue, wordMet_no_events, issue_any _ h]

theorem recvAcc_of_grp {n first count : Nat} {g : Grp} (hg : recvGrp i n = some (g, first, count)) :
    recvAcc i n = (recvSlots first count).flatMap (slotAcc g) := by
  rw [recvAcc, hg]

theorem exec_xrecvArm_of_issues {g : Grp} {first count : Nat} (h : Issues .xrecv s p w i) (harms : bitOf w.toNat 113 = false)
    (hg : recvGrp i w.toNat = some (g, first, count)) (hctl : ctlBad s i.y [] ((recvSlots first count).flatMap (slotAcc g)) = none) :
    exec (.xrecvArm p ⟨w, []⟩) s =
      .next ((recvSlots first count).foldl (fun s k => armSlot s i.j g k) (atOnce s p (pcNext i.c))) := by
  have harm : exec (.xrecvArm p ⟨w, []⟩) s = execXrecvArm p ⟨w, []⟩ s := rfl
  rw [harm, execXrecvArm, wordMet_no_events, issue_of_issues _ h (by rw [harms]; rfl)]
  simp [hg, recvAcc_of_grp hg, hctl]

/-- The receive that an XRECV waits for. -/
def recvWait (id n first count : Nat) : PWait :=
  { id := id, recv := true, scope := 0, home := 0, va := 0, target := 0, dec := false, ok := false, group := fld n 127 124, first := first
    count := count, sdrop := fld n 112 108, hang := 0, wdog := 0 }

theorem exec_xrecvWait_of_issues {g : Grp} {first count : Nat} (h : Issues .xrecv s p w i) (hwaits : bitOf w.toNat 113 = true)
    (hg : recvGrp i w.toNat = some (g, first, count)) (hruns : i.y.paused = [])
    (hctl : ctlBad s i.y ((recvSlots first count).flatMap (slotAcc g)) [] = none) :
    exec (.xrecvWait p ⟨w, []⟩) s = .next (recvRetest (atOnce { s with ids := s.ids + 1 } p
      { pcNext i.c with waits := i.c.waits ++ [recvWait (s.ids + 1) w.toNat first count] }) i.j) := by
  have harm : exec (.xrecvWait p ⟨w, []⟩) s = execXrecvWait p ⟨w, []⟩ s := rfl
  rw [harm, execXrecvWait, wordMet_no_events, issue_of_issues _ h hwaits]
  simp [hg, recvAcc_of_grp hg, hctl, hruns, freshId, recvWait]
end

/-- Settles O21. -/
theorem completionsFencesAndReceivesComplete : Obligations.CompletionsFencesAndReceivesComplete := by
  refine ⟨?instruction, fun _ _ _ _ h => exec_fence_of_issues h, ?fence, ?send, ?stream, ?arm, ?wait⟩
  case instruction =>
    intro s p seq f hclk hf hdone
    rw [exec_instructionComplete hf, hclk, hdone]
    rfl
  case fence =>
    intro s p seq f j hclk hf hj hwait hdone
    rw [exec_fenceComplete hf hj, hclk, hdone, hwait]
    rfl
  case send =>
    intro s p seq f hclk hf hwait hsent
    have hgone : ((List.range 4).all fun pi => (portOf s pi).txq.all fun g => g.id != nth f.lat 0) = true := by
      simpa using hsent
    rw [exec_xsendComplete hf, hclk, hgone, hwait]
    rfl
  case stream =>
    intro s p seq j c f y hclk hj hc hf hy hacc hready hfree
    rw [exec_pstrMgroupStart hj hc hf hy hacc, hclk, hready, hfree]
    rfl
  case arm => exact fun s p w i g first count h harms hg hctl => exec_xrecvArm_of_issues h harms hg hctl
  case wait => exact fun s p w i g first count h hwaits hg hruns hctl => exec_xrecvWait_of_issues h hwaits hg hruns hctl

theorem fenceCovers_eq_false_iff {kinds cup : Nat} {w : PWr} : fenceCovers kinds cup w = false ↔
    (bitOf kinds 3 = true → paKind w.pa ≠ .vault ∧ paKind w.pa ≠ .far) ∧ (bitOf kinds 2 = true → paKind w.pa ≠ .dome)
    ∧ (bitOf kinds 4 = true → w.host = false) ∧ (bitOf kinds 1 = true → homeSlice w.pa ≠ some cup) := by
  cases h1 : bitOf kinds 1 <;> cases h2 : bitOf kinds 2 <;> cases h3 : bitOf kinds 3 <;> cases h4 : bitOf kinds 4 <;>
    simp [fenceCovers, h1, h2, h3, h4, and_comm, and_assoc]

/-- Settles O22: what the completion's own condition names. -/
theorem fenceCompletesOnlyAfterCoveredWrites : Obligations.FenceCompletesOnlyAfterCoveredWrites := by
  intro s t p seq f j hf hj hexec
  rw [exec_fenceComplete hf hj, guardNext_next] at hexec
  obtain ⟨hgo, -⟩ := hexec
  have hdone : fenceDone s p j f = true := by simp only [Bool.and_eq_true] at hgo; exact hgo.2
  simp only [fenceDone, Bool.and_eq_true, List.all_eq_true] at hdone
  obtain ⟨⟨holder, hwrites⟩, -⟩ := hdone
  refine ⟨fun g hg hlsp => ?_, fun w hw hjob hlsp hid => ?_⟩
  · simpa [hlsp] using holder g hg
  · have huncovered : fenceCovers (fld f.word 127 122) (p / 8) w = false := by
      simpa [hjob, hlsp, Nat.not_lt.mpr hid] using hwrites w hw
    exact fenceCovers_eq_false_iff.mp huncovered

end Sys2Proof.Machine
end

section
/-! Semaphores and issued writes at their homes (04 R122; 11 R256, R257; 12 R278). -/
namespace Sys2Proof.Machine

section
variable {s : State} {p : Nat} {w : IWord} {i : Iss} {r : SemRef}

theorem exec_sig_of_issues (h : Issues .sig s p w i)
    (hr : semRef s p i.y i.c.lidx (fld w.toNat 127 127) (sF i.c w.toNat 126 122) = some r) : exec (.sig p ⟨w, []⟩) s =
      .next { plainGo s p i (plainInfl i w.toNat 4) with
        ids := s.ids + 1
        sigs := s.sigs ++ [{ id := s.ids + 1, job := i.j, p := p, lsp := i.c.lidx, seq := i.x.seq, scope := r.scope
                             home := r.home, key := r.key, val := semImm i.c w.toNat }] } := by
  have harm : exec (.sig p ⟨w, []⟩) s = execSig p ⟨w, []⟩ s := rfl
  rw [harm, execSig, seqIssue, wordMet_no_events, issue_any _ h, hr]
  rfl

theorem exec_waits_of_issues (h : Issues .waits s p w i)
    (hr : semRef s p i.y i.c.lidx (fld w.toNat 127 127) (sF i.c w.toNat 126 122) = some r) : exec (.waits p ⟨w, []⟩) s =
      .next (atOnce { s with ids := s.ids + 1 } p
        { i.c with pc := i.c.pc + 1
                   waits := i.c.waits ++ [{ id := s.ids + 1, recv := false, scope := r.scope, home := r.home, va := r.va
                                            target := semImm i.c w.toNat, dec := bitOf w.toNat 83, ok := false, group := 0, first := 0
                                            count := 0, sdrop := 0, hang := 0, wdog := 0 }] }) := by
  have harm : exec (.waits p ⟨w, []⟩) s = execWaits p ⟨w, []⟩ s := rfl
  rw [harm, execWaits, seqIssue, wordMet_no_events, issue_any _ h, hr]
  rfl
end

theorem exec_semaphoreHomeCycle {s : State} {scope home : Nat} {sigs order : List Nat} (hscope : scope < 2) (hhome : home < 32)
    (hsigs : sigs.eraseDups = sigs) (horder : order.eraseDups = order) (hfw : fwUp s = true) (hready : sigs.all (sigReady s scope home) = true)
    (hsome : sigs ≠ [] ∨ waitsAt s scope home ≠ []) (hall : ∀ a ∈ waitsAt s scope home, a.w.dec = true → a.w.id ∈ order) :
    exec (.semaphoreHomeCycle scope home sigs ⟨order, []⟩) s = .next (homeCycle s scope home sigs order) := by
  have harm : exec (.semaphoreHomeCycle scope home sigs ⟨order, []⟩) s = execSemaphoreHomeCycle scope home sigs ⟨order, []⟩ s := rfl
  have hscope : ¬ 2 ≤ scope := by omega
  have hhome : ¬ 32 ≤ home := by omega
  have hdecs : (((waitsAt s scope home).filter fun a => a.w.dec).all fun a => order.contains a.w.id) = true := by
    simpa [or_iff_not_imp_left] using hall
  have hsome : (!sigs.isEmpty || !(waitsAt s scope home).isEmpty) = true := by simpa using hsome
  simp only [harm, execSemaphoreHomeCycle, hscope, hhome, hsigs, horder, hfw, hready, hdecs, hsome]
  simp [homeMet]

/-- Settles O23. -/
theorem semaphoreCommandsComplete : Obligations.SemaphoreCommandsComplete :=
  ⟨fun _ _ _ _ _ h hr => exec_sig_of_issues h hr, fun _ _ _ _ _ h hr => exec_waits_of_issues h hr,
    fun _ _ _ _ _ hscope hhome hsigs horder hfw hready hsome hall =>
      exec_semaphoreHomeCycle hscope hhome hsigs horder hfw hready hsome hall⟩

/-! Bytes in little-endian order. -/

theorem length_leBytes (n v : Nat) : (leBytes n v).length = n := by
  induction n generalizing v with
  | zero => rfl
  | succ n ih => simp [leBytes, ih]

theorem lt_of_mem_leBytes {n v b : Nat} (h : b ∈ leBytes n v) : b < 256 := by
  induction n generalizing v with
  | zero => cases h
  | succ n ih =>
    rcases List.mem_cons.mp h with rfl | h
    · exact Nat.mod_lt _ (by decide)
    · exact ih h

theorem ofLe_leBytes (n v : Nat) : ofLe (leBytes n v) = v % 256 ^ n := by
  induction n generalizing v with
  | zero => simp [leBytes, ofLe, Nat.mod_one]
  | succ n ih => rw [leBytes, ofLe, ih, Nat.mod_mod, Nat.pow_succ', Nat.mod_mul]

/-- Reading back what the bytes of a list are at `a`. -/
theorem rdBytes_eq {rd : Nat → Nat} {a n : Nat} {bs : List Nat} (hn : bs.length = n) (h : ∀ k, k < n → rd (a + k) = nth bs k) :
    rdBytes rd a n = bs := by
  subst hn
  refine List.ext_getElem (by simp [rdBytes]) fun k hk hk' => ?_
  simp [rdBytes, h k hk', nth, hk']

/-! A store's byte in a written run. -/

theorem Store.get_eq_read {st : Store} {x : Nat} {b : Byte} (h : Memory.read st.dflt st.cells x = some b) : st.get x = b := by
  unfold Store.get
  cases hcell : cellAt st.cells x with
  | some c => simpa [Memory.read, hcell] using h
  | none =>
    have hdflt : st.dflt x = some b := by simpa [Memory.read, hcell] using h
    unfold Store.dflt at hdflt
    split at hdflt
    case h_1 hfind => simpa [hfind] using hdflt
    case h_2 => cases hdflt
    case h_3 hfind => simpa [hfind] using hdflt

/-- A byte of a store in a written run reads as written. -/
theorem Store.put_get_in {st : Store} {a k : Nat} {bs : List Nat} (h : k < bs.length) :
    ((st.put a bs).get (a + k)).toNat = nth bs k % 256 := by
  have hread : Memory.read (st.put a bs).dflt (st.put a bs).cells (a + k) = some (BitVec.ofNat 8 (bs.getD k 0)) := read_put_in h
  rw [Store.get_eq_read hread]
  rfl

/-! Writes to the vaults and the dome store. -/

section
variable (s : State) (pa : Nat) (bs : List Nat)

/-- A write into a vault queues its lines at their channels. -/
theorem queueLines_frame (n : Nat) : ∃ vchans, queueLines s pa n = { s with vchans := vchans } := by
  unfold queueLines
  generalize List.range ((pa + n + 255) / 256 - pa / 256) = l
  induction l generalizing s with
  | nil => exact ⟨_, rfl⟩
  | cons i l ih =>
    obtain ⟨vchans, h⟩ := ih (modVch s ((pa / 256 + i) / 2 ^ 24)
      (vaultPhys s ((pa / 256 + i) / 2 ^ 24) ((pa / 256 + i) % 2 ^ 24 * 256)).1 fun x =>
        { x with wq := x.wq ++ [pa / 256 + i], wqSince := if x.wq.isEmpty then s.now else x.wqSince })
    exact ⟨vchans, h⟩
end

theorem paPut_dome {s : State} {pa : Nat} {bs : List Nat} (h : paKind pa = .dome) : paPut s pa bs = { s with mem := s.mem.put pa bs } := by
  simp [paPut, h]

/-- A write to a vault or the dome store puts its bytes into memory, and changes else the queues of the vaults' channels alone. -/
theorem paPut_mem {s : State} {pa : Nat} {bs : List Nat} (h : paKind pa = .vault ∨ paKind pa = .dome) :
    ∃ vchans, paPut s pa bs = { s with mem := s.mem.put pa bs, vchans := vchans } := by
  rcases h with h | h
  · obtain ⟨vchans, hq⟩ := queueLines_frame { s with mem := s.mem.put pa bs } pa bs.length
    exact ⟨vchans, by simp only [paPut, h, hq]⟩
  · exact ⟨s.vchans, by rw [paPut_dome h]⟩

theorem exec_homeWriteApply {s : State} {id : Nat} {w : PWr} {ev : List AccEv} (hw : s.writes.find? (fun v => v.id == id) = some w) :
    exec (.homeWriteApply ⟨id, ev⟩) s =
      guardNext (fwUp s && !marginHolds s w.pa (wrLen w) && ev.all (evMerges s w)) .notEnabled (homeWrite s w ev) := by
  have harm : exec (.homeWriteApply ⟨id, ev⟩) s = execHomeWriteApply ⟨id, ev⟩ s := rfl
  rw [harm, execHomeWriteApply, hw]

/-- A write that meets no event is performed, or fails as its window's access does. -/
@[simp] theorem homeWrite_no_events (s : State) (w : PWr) : homeWrite s w [] = windowWrite w s := rfl

/-- Settles O25. -/
theorem homeWritesArePerformed : Obligations.HomeWritesArePerformed := by
  refine ⟨fun s id w ev hw hfw hmargin hev => by rw [exec_homeWriteApply hw, hfw, hmargin, hev]; rfl,
    fun s id w hw hfw hmargin hbytes hkind => ?_⟩
  have hid : w.id = id := by simpa using List.find?_some hw
  have hgood : wrBad s w = none := by rcases hkind with h | h <;> simp [wrBad, h]
  obtain ⟨vchans, hput⟩ := paPut_mem (s := { s with writes := s.writes.filter (·.id != id) }) (bs := w.data) hkind
  have hwrite : windowWrite w s = { s with mem := s.mem.put w.pa w.data, vchans := vchans, writes := s.writes.filter (·.id != id) } := by
    simp only [windowWrite, hgood, applyWr, hbytes, hid, hput, Bool.false_eq_true, if_false]
  have hexec := exec_homeWriteApply (ev := []) hw
  rw [hfw, hmargin, homeWrite_no_events, hwrite] at hexec
  exact ⟨_, hexec, fun k hk => Store.put_get_in hk, fun a ha => Store.put_get_out ha, rfl, rfl, rfl, rfl, rfl⟩

/-! A home cycle that one SIG reaches. -/

section
variable {s t : State} {scope home : Nat}

theorem ctxWaits_eq_nil_of_same {p : Nat} {o : Option LCtx} (hspire : spOf t p = spOf s p)
    (hjobs : ∀ j, (jobOf t j).isSome = (jobOf s j).isSome) (h : ctxWaits s p scope home o = []) : ctxWaits t p scope home o = [] := by
  unfold ctxWaits at h ⊢
  rw [hspire]
  split
  case h_1 c j hjob =>
    rw [hjob] at h
    have hj := hjobs j
    cases hs : jobOf s j <;> cases ht : jobOf t j <;> simp_all
  case h_2 => rfl

/-- Where no wait is pending at a home none is after a change of jobs and memory that keeps the jobs there. -/
theorem waitsAt_eq_nil_of_same (hspires : t.spires = s.spires) (hjobs : ∀ j, (jobOf t j).isSome = (jobOf s j).isSome)
    (h : waitsAt s scope home = []) : waitsAt t scope home = [] := by
  have hsp (p : Nat) : spOf t p = spOf s p := by rw [spOf, hspires]; rfl
  simp only [waitsAt, hspires, List.flatMap_eq_nil_iff, List.append_eq_nil_iff] at h ⊢
  exact fun x hx => ⟨ctxWaits_eq_nil_of_same (hsp x.1) hjobs (h x hx).1, ctxWaits_eq_nil_of_same (hsp x.1) hjobs (h x hx).2⟩

@[simp] theorem noteFirst_self (x : Spire) : noteFirst x x = x := by
  unfold noteFirst
  split
  case h_1 c o hc ho =>
    refine if_neg ?_
    cases hb : ctxBlocked o <;> simp [bothBlocked, hc, ho, hb]
  case h_2 => rfl

theorem spOf_noteAll (s0 : State) (p : Nat) : spOf (noteAll s0 s) p = if (tfind s.spires p).isSome then noteFirst (spOf s0 p) (spOf s p) else {} := by
  simp only [spOf, noteAll, tget, tfind_map]
  cases tfind s.spires p <;> rfl

/-- A cycle without waits applies its SIGs. -/
theorem homeCycle_of_no_waits {sigs order : List Nat}
    (h : waitsAt ((s.sigs.filter fun g => sigs.contains g.id).foldl sigApply s) scope home = []) :
    homeCycle s scope home sigs order = noteAll s ((s.sigs.filter fun g => sigs.contains g.id).foldl sigApply s) := by
  simp only [homeCycle, h, List.filter_nil, List.foldl_nil, List.map_nil, List.eraseDups_nil]

/-- A cycle that one SIG reaches while no wait is pending applies it, where that leaves the spires and keeps the jobs. -/
theorem exec_semaphoreHomeCycle_one {g : Sig} (hscope : scope < 2) (hhome : home < 32) (hfw : fwUp s = true)
    (hg : s.sigs.filter (fun h => h.id = g.id) = [g]) (hready : sigReady s scope home g.id = true) (hwaits : waitsAt s scope home = [])
    (hspires : (sigApply s g).spires = s.spires) (hjobs : ∀ j, (jobOf (sigApply s g) j).isSome = (jobOf s j).isSome) :
    exec (.semaphoreHomeCycle scope home [g.id] ⟨[], []⟩) s = .next (noteAll s (sigApply s g)) := by
  have hone : (s.sigs.filter fun h => [g.id].contains h.id) = [g] := by simpa using hg
  have hnone := waitsAt_eq_nil_of_same hspires hjobs hwaits
  have happly : (s.sigs.filter fun h => [g.id].contains h.id).foldl sigApply s = sigApply s g := by rw [hone]; rfl
  rw [exec_semaphoreHomeCycle hscope hhome rfl rfl hfw (by simpa using hready) (.inl (List.cons_ne_nil _ _)) (by simp [hwaits]),
    homeCycle_of_no_waits (by rw [happly]; exact hnone), happly]

theorem spOf_noteAll_self (hspires : t.spires = s.spires) (p : Nat) : spOf (noteAll s t) p = spOf s p := by
  have hsp : spOf t p = spOf s p := by rw [spOf, hspires]; rfl
  rw [spOf_noteAll, hsp, noteFirst_self, hspires]
  split
  · rfl
  · next hnone => simp [spOf, tget, Option.not_isSome_iff_eq_none.mp hnone]
end

theorem sigApply_cupola {s : State} {g : Sig} (h : g.scope = 0) : sigApply s g =
    { s with sigs := s.sigs.filter (·.id != g.id), csem := tmod 0 s.csem (g.home * 256 + g.key) fun v => (v + g.val) % 2 ^ 32 } := by
  simp [sigApply, h]

theorem sigReady_place {s : State} {scope home id : Nat} {g : Sig} (hg : s.sigs.filter (fun h => h.id = id) = [g])
    (h : sigReady s scope home id = true) : g.scope = scope ∧ g.home = home := by
  have hfind : s.sigs.find? (fun g => g.id == id) = some g :=
    List.head?_filter.symm.trans (congrArg List.head? hg)
  simp only [sigReady, hfind, Option.any_some, Bool.and_eq_true, decide_eq_true_eq] at h
  exact h.1

/-! The word of a ring. -/

theorem tget_tmod_self {α : Type} (d : α) (t : Tbl α) (i : Nat) (f : α → α) : tget d (tmod d t i f) i = f (tget d t i) := by simp [tmod]

theorem tget_tmod_ne {α : Type} {d : α} {t : Tbl α} {i k : Nat} {f : α → α} (h : i ≠ k) : tget d (tmod d t i f) k = tget d t k := by
  simp [tmod, tget_tset_ne h]

/-- A ring's counts after a SIG of `v` to a word of it: `hit` says which words the SIG wrote. -/
def ringHit (hit : Nat → Bool) (v : Nat) (t : Tbl RingSt) (r : PlanRing × Nat) : Tbl RingSt :=
  if hit r.1.ctl then tmod {} t r.2 fun y => { y with adv := y.adv + v }
  else if hit (r.1.ctl + 12) then tmod {} t r.2 fun y => { y with rel := y.rel + v } else t

section
variable {hit : Nat → Bool} {v : Nat} {t : Tbl RingSt}

theorem tget_ringHit_ne {r : PlanRing × Nat} {i : Nat} (h : r.2 ≠ i) : tget {} (ringHit hit v t r) i = tget {} t i := by
  unfold ringHit
  split
  · exact tget_tmod_ne h
  · split
    · exact tget_tmod_ne h
    · rfl

theorem tget_foldl_ringHit_before {l : List PlanRing} {k i : Nat} (h : i < k) :
    tget {} ((l.zipIdx k).foldl (ringHit hit v) t) i = tget {} t i := by
  induction l generalizing k t with
  | nil => rfl
  | cons r l ih =>
    rw [List.zipIdx_cons, List.foldl_cons, ih (by omega), tget_ringHit_ne (by dsimp only; omega)]

/-- The ring whose ADV word was hit counts the SIG's value. -/
theorem adv_foldl_ringHit {l : List PlanRing} {k m : Nat} {r : PlanRing} (hr : l[m]? = some r) (hadv : hit r.ctl = true) :
    (tget {} ((l.zipIdx k).foldl (ringHit hit v) t) (k + m)).adv = (tget {} t (k + m)).adv + v := by
  induction l generalizing k m t with
  | nil => cases hr
  | cons q l ih =>
    rw [List.zipIdx_cons, List.foldl_cons]
    cases m with
    | zero =>
      have hq : q = r := by simpa using hr
      subst hq
      simp only [Nat.add_zero]
      rw [tget_foldl_ringHit_before (Nat.lt_add_one k), ringHit, if_pos hadv, tget_tmod_self]
    | succ m =>
      have hm : l[m]? = some r := by simpa using hr
      rw [show k + (m + 1) = k + 1 + m by omega, ih hm, tget_ringHit_ne (by dsimp only; omega)]
end

/-- The job of a SIG to a dome-store word: its bytes are noted, and its ring of that word counts the requests. -/
def sigJob (s : State) (g : Sig) (x : Job) : Job :=
  { x with dirty := if x.running.isSome then x.dirty ++ [(unplacePa x g.key, 4)] else x.dirty
           rings := x.plan.rings.zipIdx.foldl (ringHit (fun va => (xlate s x va).any fun e => e.2 = g.key) g.val) x.rings }

theorem noteWrite_of_job {s : State} {j pa n : Nat} {x : Job} (hpa : paKind pa ≠ .window) (hx : jobOf s j = some x) :
    noteWrite s j pa n = setJob s j { x with dirty := if x.running.isSome then x.dirty ++ [(unplacePa x pa, n)] else x.dirty } := by
  have hhost : (paKind pa == PaKind.window) = false := by simpa using hpa
  rw [noteWrite, modJob_of_job _ hx]
  congr 1
  split
  case h_1 r hrun => simp [hhost, hrun]
  case h_2 hrun => rw [if_neg (by simp [hrun])]

/-- The word that a SIG of the dome store writes. -/
def sigWord (s : State) (g : Sig) : List Nat := leBytes 4 ((rdLe (paByte s) g.key 4 + g.val) % 2 ^ 32)

/-- The state once that word is written and the SIG has left. -/
def sigPut (s : State) (g : Sig) : State := { s with sigs := s.sigs.filter (·.id != g.id), mem := s.mem.put g.key (sigWord s g) }

theorem sigApply_dome {s : State} {g : Sig} (hscope : g.scope = 1) (hkey : paKind g.key = .dome) :
    sigApply s g = match jobOf s g.job with
      | some x => setJob (sigPut s g) g.job (sigJob s g x)
      | none => sigPut s g := by
  have hnot : ¬ g.scope = 0 := by omega
  have hwin : paKind g.key ≠ .window := by rw [hkey]; decide
  have hput : sigApply s g = ringSig (noteWrite (sigPut s g) g.job g.key 4) g.job g.key g.val := by
    rw [sigApply, if_neg hnot, paPut_dome hkey]
    rfl
  rw [hput]
  cases hx : jobOf s g.job with
  | some x =>
    have hx' : jobOf (sigPut s g) g.job = some x := hx
    rw [noteWrite_of_job hwin hx', ringSig, modJob_of_job _ (jobOf_setJob_self ..), setJob_setJob]
    rfl
  | none =>
    have hx' : jobOf (sigPut s g) g.job = none := hx
    rw [noteWrite, modJob_of_none _ hx', ringSig, modJob_of_none _ hx']

theorem sigApply_dome_frame {s : State} {g : Sig} (hscope : g.scope = 1) (hkey : paKind g.key = .dome) :
    ∃ jobs, sigApply s g = { sigPut s g with jobs := jobs } := by
  rw [sigApply_dome hscope hkey]
  split <;> exact ⟨_, rfl⟩

theorem jobOf_sigApply_dome {s : State} {g : Sig} (hscope : g.scope = 1) (hkey : paKind g.key = .dome) (j : Nat) :
    jobOf (sigApply s g) j = if j = g.job then (jobOf s j).map (sigJob s g) else jobOf s j := by
  rw [sigApply_dome hscope hkey]
  split
  case h_1 x hx =>
    split
    case isTrue hj => rw [hj, jobOf_setJob_self, hx]; rfl
    case isFalse hj => rw [jobOf_setJob_ne (Ne.symm hj)]; rfl
  case h_2 hx =>
    split
    case isTrue hj => rw [hj, hx]; exact hx
    case isFalse => rfl

theorem paKind_eq_dome_iff {pa : Nat} : paKind pa = .dome ↔ 0x004000000000 ≤ pa ∧ pa < 0x004010000000 := by
  unfold paKind
  constructor
  · intro h
    split at h
    · cases h
    · split at h
      case isTrue hdome => simpa using hdome
      case isFalse =>
        split at h
        · cases h
        · split at h <;> cases h
  · rintro ⟨hlo, hhi⟩
    simp [hlo, hhi, Nat.not_lt.mpr (Nat.le_trans (by decide : 0x002000000000 ≤ 0x004000000000) hlo)]

/-- The aligned word of a dome-store page reads as its last write. -/
theorem rdLe_put_dome {s : State} {key v : Nat} {m : Store} (hmem : s.mem = m.put key (leBytes 4 v)) (halign : key % 4 = 0)
    (hkey : paKind key = .dome) (hv : v < 2 ^ 32) : rdLe (paByte s) key 4 = v := by
  have hbytes : rdBytes (paByte s) key 4 = leBytes 4 v := by
    refine rdBytes_eq (length_leBytes 4 v) fun k hk => ?_
    have hdome : paKind (key + k) = .dome := by
      rw [paKind_eq_dome_iff] at hkey ⊢
      omega
    have hk' : k < (leBytes 4 v).length := by rwa [length_leBytes]
    have hbyte : nth (leBytes 4 v) k < 256 := by
      rw [nth, List.getD_eq_getElem _ _ hk']
      exact lt_of_mem_leBytes (List.getElem_mem hk')
    rw [paByte, hdome]
    simp only [hmem, Store.put_get_in hk', Nat.mod_eq_of_lt hbyte]
  rw [rdLe, hbytes, ofLe_leBytes, Nat.mod_eq_of_lt (by omega)]

/-- Settles O24. -/
theorem sigAddsToItsSemaphore : Obligations.SigAddsToItsSemaphore := by
  refine ⟨fun s home g hfw hhome hg hready hwaits => ?cupola, fun s home g hfw hhome hg hready hwaits halign hkey => ?dome⟩
  case cupola =>
    obtain ⟨hscope, rfl⟩ := sigReady_place hg hready
    have happly := sigApply_cupola (s := s) hscope
    have hexec := exec_semaphoreHomeCycle_one (by decide) hhome hfw hg hready hwaits (by rw [happly]) (fun j => by rw [happly]; rfl)
    refine ⟨_, hexec, ?_, fun c k hck hk hkey => ?_, ?_, fun p => spOf_noteAll_self (by rw [happly]) p⟩
    · rw [happly]
      simp [noteAll, semVal, tget_tmod_self]
    · rw [happly]
      have hne : g.home * 256 + g.key ≠ c * 256 + k := fun heq => hck (by congr 1 <;> omega)
      simp [noteAll, semVal, tget_tmod_ne hne]
    · rw [happly]
      rfl
  case dome =>
    obtain ⟨hscope, rfl⟩ := sigReady_place hg hready
    obtain ⟨jobs, hframe⟩ := sigApply_dome_frame (s := s) hscope hkey
    have hjobs := jobOf_sigApply_dome (s := s) hscope hkey
    have hexec := exec_semaphoreHomeCycle_one (by decide) hhome hfw hg hready hwaits (by rw [hframe]; rfl) (fun j => by
      rw [hjobs]; split <;> simp)
    refine ⟨_, hexec, ?_, fun a ha => ?_, ?_, fun p => spOf_noteAll_self (by rw [hframe]; rfl) p, fun j hj => ?_, fun x hx => ?_⟩
    · refine rdLe_put_dome (m := s.mem) (by rw [hframe]; rfl) halign hkey (Nat.mod_lt _ (by decide))
    · rw [hframe]
      exact Store.put_get_out (by rwa [sigWord, length_leBytes])
    · rw [hframe]
      rfl
    · exact (hjobs j).trans (if_neg hj)
    · refine ⟨sigJob s g x, ((hjobs g.job).trans (if_pos rfl)).trans (by rw [hx]; rfl), rfl, rfl, fun ri r hr hctl => ?_⟩
      have hhit : ((xlate s x r.ctl).any fun e => e.2 = g.key) = true := by
        obtain ⟨e, he, hpa⟩ := Option.map_eq_some_iff.mp hctl
        simp [he, hpa]
      have hadv := adv_foldl_ringHit (k := 0) (t := x.rings) (v := g.val) (hit := fun va => (xlate s x va).any fun e => e.2 = g.key) hr hhit
      rw [Nat.zero_add] at hadv
      exact hadv

end Sys2Proof.Machine
end

section
/-! Spires: hang, carried spires, stealing, saving, and the writes of their control registers (01 R25; 03 R89, R91, R92; 04 R129). -/
namespace Sys2Proof.Machine

section
variable {s : State} {p : Nat}

theorem exec_spireHang {j : Nat} (hj : (spOf s p).job = some j) : exec (.spireHang p) s =
    guardNext (spClk s p && hung (spOf s p)) .notEnabled (spireFault s p j 4 (((spOf s p).run.map (·.pc)).getD 0)) := by
  have harm : exec (.spireHang p) s = execSpireHang p s := rfl
  rw [harm, execSpireHang, hj]

theorem exec_stealIteration {owner j : Nat} {c : LCtx} {f : LoopFr} (hill : (256 ≤ p || 256 ≤ owner || p = owner || p / 8 != owner / 8) = false)
    (hfrom : stealFrom (spOf s owner) = some (c, f)) (hj : (spOf s p).job = some j) : exec (.stealIteration p owner) s =
      guardNext (spClk s p && mayStealNow (spOf s p) && (spOf s owner).job == some j && ((jobOf s j).any (·.steal)) && !(spOf s owner).saveReq)
        .notEnabled (doSteal s p owner c f) := by
  have harm : exec (.stealIteration p owner) s = execStealIteration p owner s := rfl
  rw [harm, execStealIteration, hill, hfrom, hj]
  rfl

/-- A steal that happens takes an iteration of another spire of the cupola. -/
theorem exec_stealIteration_next {owner : Nat} {t : State} {c : LCtx} {f : LoopFr} (h : exec (.stealIteration p owner) s = .next t)
    (hfrom : stealFrom (spOf s owner) = some (c, f)) : p ≠ owner ∧ t = doSteal s p owner c f := by
  have harm : exec (.stealIteration p owner) s = execStealIteration p owner s := rfl
  rw [harm, execStealIteration] at h
  split at h
  case isTrue => cases h
  case isFalse hill =>
    rw [hfrom] at h
    split at h
    case h_1 hc _ =>
      cases hc
      rw [guardNext_next] at h
      exact ⟨by rintro rfl; simp at hill, h.2.symm⟩
    case h_2 => cases h
end

/-- Settles O26. -/
theorem spireEventsComplete : Obligations.SpireEventsComplete := by
  refine ⟨?hang, ?change, ?quantum, ?steal, ?save⟩
  case hang =>
    intro s p j hclk hj hhung
    rw [exec_spireHang hj, hclk, hhung]
    rfl
  case change =>
    intro s p hclk hdue hidle hst
    have harm : exec (.carriedSpireChange ⟨p, []⟩) s = execCarriedSpireChange ⟨p, []⟩ s := rfl
    have hruns : ((spOf s p).st == .running || (spOf s p).st == .blocked) = true := by simpa using hst
    simp [harm, execCarriedSpireChange, hclk, hdue, hidle, hruns, saveMet]
  case quantum =>
    intro s p c hclk hst hown hother hrun hcyc
    have harm : exec (.carriedSpireQuantum p) s = execCarriedSpireQuantum p s := rfl
    simp [harm, execCarriedSpireQuantum, hclk, hst, hown, hother, hrun, hcyc]
  case steal =>
    intro s p owner c f j y hclk hp howner hne hcup hfrom hj hoj hy hsteal hmay hsave
    have hill : (256 ≤ p || 256 ≤ owner || p = owner || p / 8 != owner / 8) = false := by
      simp [hne, hcup, Nat.not_le.mpr hp, Nat.not_le.mpr howner]
    rw [exec_stealIteration hill hfrom hj, hclk, hmay, hoj, hy, hsave]
    simp [hsteal]
  case save =>
    intro s p j hclk hj hready
    have harm : exec (.saveComplete ⟨p, []⟩) s = execSaveComplete ⟨p, []⟩ s := rfl
    simp [harm, execSaveComplete, hclk, hj, hready, saveMet]

/-- Settles O27. -/
theorem stealTakesTheHighestIteration : Obligations.StealTakesTheHighestIteration := by
  intro s t p owner c f hexec hfrom
  obtain ⟨hne, rfl⟩ := exec_stealIteration_next hexec hfrom
  refine ⟨⟨_, by rw [doSteal, spOf_modSp_self], rfl, rfl, rfl, rfl, rfl⟩, by rw [doSteal, spOf_modSp_self], ?_, ?_, fun q hq hq' => ?_, rfl⟩
  · rw [doSteal, spOf_modSp_self, spOf_modSp_ne (Ne.symm hne)]
  · rw [doSteal, spOf_modSp_ne hne, spOf_modSp_self]
  · rw [doSteal, spOf_modSp_ne (Ne.symm hq), spOf_modSp_ne (Ne.symm hq')]

/-! Register writes. -/

section
variable {s : State} {p : Nat} (hp : p < 256) (hfw : fwUp s = true) (hen : spEnabled s p = true)
include hp hfw hen

theorem exec_clear : exec (.clear p) s = .next (if uncoreOut s (p / 8) then s else clearReg s p) := by
  have harm : exec (.clear p) s = execClear p s := rfl
  rw [harm, execClear, if_neg (by omega), spCtrlWrite, hfw, hen]
  rfl

theorem exec_run : exec (.run p) s = .next (if uncoreOut s (p / 8) then s else modSp s p runReg) := by
  have harm : exec (.run p) s = execRun p s := rfl
  rw [harm, execRun, if_neg (by omega), spCtrlWrite, hfw, hen]
  rfl

theorem exec_saveReq : exec (.saveReq p) s = .next (if uncoreOut s (p / 8) then s else modSp s p saveReqX) := by
  have harm : exec (.saveReq p) s = execSaveReq p s := rfl
  rw [harm, execSaveReq, if_neg (by omega), spCtrlWrite, hfw, hen]
  rfl

theorem exec_sfnCompat (on : Bool) :
    exec (.sfnCompat p on) s = .next (if uncoreOut s (p / 8) then s else modSp s p fun x => compatX x on) := by
  have harm : exec (.sfnCompat p on) s = execSfnCompat p on s := rfl
  rw [harm, execSfnCompat, if_neg (by omega), spCtrlWrite, hfw, hen]
  rfl
end

theorem next_modSp_congr {s : State} {p : Nat} {f g : Spire → Spire} (h : f (spOf s p) = g (spOf s p)) :
    (Host.Outcome.next (modSp s p f) : Out) = .next (modSp s p g) :=
  congrArg (fun x => Host.Outcome.next (setSp s p x)) h

/-- A write that leaves its spire as it is leaves every spire as it is. -/
theorem spOf_modSp_same {s : State} {p : Nat} {f : Spire → Spire} (h : f (spOf s p) = spOf s p) (q : Nat) :
    spOf (modSp s p f) q = spOf s q := by
  by_cases hq : p = q
  · rw [← hq, spOf_modSp_self, h]
  · exact spOf_modSp_ne hq

/-- A running spire whose context runs, and of which nothing is asked, goes on. -/
theorem settle_of_runs {x : Spire} {c : LCtx} (hst : x.st = .running) (hrun : x.run = some c) (hhalting : c.halting = false)
    (hhalted : c.halted = false) (hblocked : ctxBlocked c = false) (hsave : x.saveReq = false) : settle x = x := by
  have hx : x = { x with st := .running, run := some c, saveReq := false } := by rw [← hst, ← hrun, ← hsave]
  rw [hx]
  cases hz : x.stolen <;> cases hc : x.changing <;> simp [settle, hhalting, hhalted, hblocked]

/-- A save asked of a running or blocked spire that changes nothing and runs no stolen iteration starts. -/
theorem settle_saving {x : Spire} (hst : x.st = .running ∨ x.st = .blocked) (hchange : x.changing = false) (hown : x.stolen = none) :
    settle { x with saveReq := true } = { x with saveReq := true, st := .saving, run := x.run.map (endHalting x.infl) } := by
  have hmay : (x.st != .running && x.st != .blocked && x.st != .halted) = false := by rcases hst with h | h <;> simp [h]
  simp only [settle, hmay, hchange, hown]
  rfl

theorem foldDet_frame (s : State) (p : Nat) : ∃ jobs, foldDet s p = { s with jobs := jobs } := by
  unfold foldDet modJob
  dsimp only
  split
  · exact ⟨_, rfl⟩
  · split <;> exact ⟨_, rfl⟩

/-- Settles O28. -/
theorem spireRegisterWrites : Obligations.SpireRegisterWrites := by
  refine ⟨fun s p on hp hfw hen hout => ?lost, fun s p hp hfw hen hin => ?_⟩
  case lost =>
    simp only [List.forall_mem_cons, exec_clear hp hfw hen, exec_run hp hfw hen, exec_saveReq hp hfw hen, exec_sfnCompat hp hfw hen, hout]
    exact ⟨rfl, rfl, rfl, rfl, List.forall_mem_nil _⟩
  simp only [exec_clear hp hfw hen, exec_run hp hfw hen, exec_saveReq hp hfw hen, exec_sfnCompat hp hfw hen, hin, Bool.false_eq_true, if_false]
  refine ⟨fun hst => ?clears, fun hi hh hf => ?ignores, ?runs, ?runsOn, ?runIgnored, ?saves, ?saveIgnored, ?compat, ?compatIgnored⟩
  case clears =>
    have hclear : clearReg s p = doClear s p := if_pos (by simpa [or_assoc] using hst)
    obtain ⟨jobs, hframe⟩ := foldDet_frame s p
    have hsp : spOf (doClear s p) p = spClear (spOf s p) := by rw [doClear, spOf_modSp_self, hframe]; rfl
    rw [hclear]
    refine ⟨rfl, _, rfl, by rw [doClear, hframe]; rfl, fun q hq => by rw [doClear, spOf_modSp_ne (Ne.symm hq), hframe]; rfl, ?_⟩
    rw [hsp]
    exact ⟨rfl, rfl, rfl, rfl, rfl, rfl, rfl, rfl, rfl, rfl, rfl, rfl, rfl, rfl, rfl, rfl⟩
  case ignores => rw [clearReg, if_neg (by simp [hi, hh, hf])]
  case runs =>
    intro hst hrun
    have hgo : runReg (spOf s p) = settle { spOf s p with st := .running, compat := (spOf s p).compatReg, cycDisp := (spOf s p).cycles } :=
      if_pos (by simpa [Option.isSome_iff_ne_none] using ⟨hst, hrun⟩)
    exact next_modSp_congr hgo
  case runsOn =>
    intro c hst hrun hhalting hhalted hblocked hsave
    have hgo : runReg (spOf s p) = settle { spOf s p with st := .running, compat := (spOf s p).compatReg, cycDisp := (spOf s p).cycles } :=
      if_pos (by simpa [hrun] using hst)
    exact next_modSp_congr (hgo.trans (settle_of_runs rfl hrun hhalting hhalted hblocked hsave))
  case runIgnored =>
    intro hnot
    have hsame : runReg (spOf s p) = spOf s p := by
      refine if_neg ?_
      rcases hnot with ⟨hi, hl⟩ | hnone
      · simp [hi, hl]
      · simp [hnone]
    exact ⟨_, rfl, rfl, spOf_modSp_same hsame⟩
  case saves =>
    intro hst
    have hgo : saveReqX (spOf s p) = settle { spOf s p with saveReq := true } := if_pos (by simpa using hst)
    refine ⟨next_modSp_congr hgo, fun hchange hown => ⟨_, rfl, rfl, fun q hq => spOf_modSp_ne (Ne.symm hq), ?_⟩⟩
    rw [spOf_modSp_self, hgo, settle_saving hst hchange hown]
    exact ⟨rfl, rfl, rfl, rfl, rfl⟩
  case saveIgnored =>
    intro hr hb
    have hsame : saveReqX (spOf s p) = spOf s p := if_neg (by simp [hr, hb])
    exact ⟨_, rfl, rfl, spOf_modSp_same hsame⟩
  case compat =>
    intro hr hb hs on
    have hgo : compatX (spOf s p) on = { spOf s p with compatReg := on } := if_neg (by simp [hr, hb, hs])
    exact next_modSp_congr hgo
  case compatIgnored =>
    intro hst on
    have hsame : compatX (spOf s p) on = spOf s p := if_pos (by simpa [or_assoc] using hst)
    exact ⟨_, rfl, rfl, spOf_modSp_same hsame⟩

end Sys2Proof.Machine
end

section
/-! The machine: reset, a step with a command at the front of the queue, a step on an empty one (log 3), and the device level (19 R424). -/
namespace Sys2Proof.Machine

/-- Settles O1. -/
theorem stepRunsTheFrontCommand : Obligations.StepRunsTheFrontCommand := by
  intro c s rest h
  rw [step, h]

/-- Settles O3. -/
theorem resetHoldsTheStatedValues : Obligations.ResetHoldsTheStatedValues := by
  refine ⟨rfl, rfl, rfl, rfl, rfl, rfl, rfl, rfl, rfl, rfl, fun p => ⟨rfl, rfl, rfl⟩, fun p => ⟨rfl, rfl, rfl, rfl, rfl⟩, fun n hlo hhi => ?_,
    fun n hn hother => ?_⟩
  · have hport : gateOf State.reset n = { en := true, st := 2 } := if_pos (by simp [hlo, hhi])
    rw [hport]
    exact ⟨rfl, rfl⟩
  · have hgate : gateOf State.reset n = {} := if_neg (by simp; omega)
    rw [hgate]
    exact ⟨rfl, rfl⟩

/-- Settles O4. -/
theorem resetMeetsTheInvariants : Obligations.ResetMeetsTheInvariants :=
  ⟨⟨rfl, rfl, rfl, rfl, rfl, rfl⟩, ⟨by decide, by decide, by decide, by decide, by decide⟩⟩

/-! A microsecond. -/

theorem foldl_fixed_of {α β : Type} {f : β → α → β} {b : β} {l : List α} (h : ∀ a ∈ l, f b a = b) : l.foldl f b = b := by
  induction l with
  | nil => rfl
  | cons a l ih =>
    rw [List.foldl_cons, h a List.mem_cons_self]
    exact ih fun x hx => h x (List.mem_cons_of_mem a hx)

theorem mem_of_tfind {α : Type} {t : Tbl α} {i : Nat} {v : α} (h : tfind t i = some v) : (i, v) ∈ t := by
  induction t with
  | nil => cases h
  | cons e t ih =>
    obtain ⟨k, w⟩ := e
    rw [tfind] at h
    split at h
    case isTrue hk =>
      cases h
      rw [hk]
      exact List.mem_cons_self
    case isFalse => exact List.mem_cons_of_mem _ (ih h)

/-- Where no job has a completion that waits for crossing messages none is written. -/
theorem endersFlush_of_none {s : State} (h : ∀ k ∈ s.jobs, k.2.enders = []) : endersFlush s = s := by
  refine foldl_fixed_of fun j _ => ?_
  unfold endersEnd
  split
  case h_1 => rfl
  case h_2 x hx =>
    have hnone : x.enders = [] := h _ (mem_of_tfind hx)
    simp [hnone]

/-- No flash operation is due. -/
theorem flashTick_of_none {s : State} (h : ∀ o ∈ s.flashOps, s.now < o.till) : flashTick false s = s := by
  have hdone : s.flashOps.filter (fun o => false || decide (o.till ≤ s.now)) = [] := by simpa using h
  have hkept : s.flashOps.filter (fun o => !(false || decide (o.till ≤ s.now))) = s.flashOps := by simpa using h
  simp only [flashTick, hdone, hkept, List.foldl_nil]

/-- The state after a microsecond of running firmware, before the completions that wait are written. -/
def ticked (s : State) : State :=
  { ueSeen s with
    now := s.now + 1, arbs := s.arbs.map fun x => (x.1, arbTick x.1 x.2)
    jobs := s.jobs.map fun k => (k.1, tickReq s k.1 k.2)
    video := { s.video with engines := s.video.engines.map fun e => (e.1, engTick e.2) }
    spires := s.spires.map fun x => (x.1, tickSpire (tickCycles s (x.1 / 8)) x.2) }

/-- The state after a microsecond without firmware. -/
def idled (s : State) : State :=
  { s with now := s.now + 1, arbs := if clocksOn s then s.arbs.map fun x => (x.1, arbTick x.1 x.2) else s.arbs }

theorem step_of_empty {s : State} (h : s.pending = []) :
    step s = .next (lanternTick (if fwUp s then endersFlush (ticked s) else idled s)) := by
  rw [step, h]
  rfl

theorem tickSpire_off {x : Spire} (n : Nat) (h : x.st = .off) : tickSpire n x = x := if_pos h

theorem tickSpire_on {x : Spire} (n : Nat) (h : x.st ≠ .off) : tickSpire n x =
    { x with cycles := (x.cycles + n) % 2 ^ 64, run := x.run.map (tickCtx n (x.st = .running && x.stolen.isNone)) } := if_neg h

/-- Settles O2. -/
theorem emptyQueueLetsTimePass : Obligations.EmptyQueueLetsTimePass := by
  intro s hempty
  refine ⟨ticked s, if fwUp s then endersFlush (ticked s) else idled s, step_of_empty hempty, fun hfw => ?idle, fun hfw => ?runs,
    fun hshut hstage hops => ?lantern⟩
  case idle =>
    rw [hfw]
    refine ⟨rfl, fun a => ?_⟩
    cases hclk : clocksOn s
    · simp [idled, hclk]
    · simp only [idled, hclk, Bool.false_eq_true, if_false, if_true]
      exact tfind_map (fun e => arbTick e.1 e.2) s.arbs a
  case runs =>
    rw [hfw]
    refine ⟨rfl, rfl, fun a => tfind_map (fun e => arbTick e.1 e.2) s.arbs a, fun j => tfind_map (fun k => tickReq s k.1 k.2) s.jobs j,
      fun j x r hx hr => ?job, fun p => ?spire, fun hnone => endersFlush_of_none fun k hk => ?enders⟩
    case job =>
      have hx' : jobOf (ticked s) j = some (tickReq s j x) :=
        (tfind_map (fun k => tickReq s k.1 k.2) s.jobs j).trans (congrArg (Option.map (tickReq s j)) hx)
      refine ⟨if stillRuns s j x then { r with haltAt := s.now + 1 } else r, ?_, fun hgo => if_pos hgo, fun hgo => if_neg (by simp [hgo])⟩
      rw [hx', tickReq, hr]
      rfl
    case spire =>
      have hp : tfind (ticked s).spires p = (tfind s.spires p).map fun x => tickSpire (tickCycles s (p / 8)) x :=
        tfind_map (fun e => tickSpire (tickCycles s (e.1 / 8)) e.2) s.spires p
      rw [hp]
      refine ⟨fun hnone => by rw [hnone]; rfl, fun x hx => ⟨_, by rw [hx]; rfl, fun hoff => tickSpire_off _ hoff, fun hon => ?_⟩⟩
      rw [tickSpire_on _ hon]
      exact ⟨rfl, rfl, rfl⟩
    case enders =>
      obtain ⟨k', hk', rfl⟩ := List.mem_map.mp hk
      exact hnone k' hk'
  case lantern =>
    rw [lanternTick, flashTick_of_none hops, hshut]
    simp [hstage]

end Sys2Proof.Machine
end

section
/-! The device level (19 R424). -/
namespace Sys2Proof.Machine

theorem foldl_keeps {α β : Type} {P : β → Prop} {f : β → α → β} {b : β} {l : List α} (hf : ∀ b, ∀ a ∈ l, P b → P (f b a)) (hb : P b) :
    P (l.foldl f b) := by
  induction l generalizing b with
  | nil => exact hb
  | cons a l ih => exact ih (fun b x hx => hf b x (List.mem_cons_of_mem a hx)) (hf b a List.mem_cons_self hb)

theorem retarget_frame (s : State) : ∃ therms, retarget s = { s with therms := therms } :=
  foldl_keeps (P := fun t => ∃ therms, t = { s with therms := therms }) (fun _ _ _ ⟨_, h⟩ => ⟨_, by rw [h]⟩) ⟨_, rfl⟩

theorem markSlow_frame (s : State) : ∃ jobs, markSlow s = { s with jobs := jobs } := ⟨_, rfl⟩

theorem evrAdd_frame (s : State) (code sev src : Nat) (ps : List Nat) : ∃ evr, evrAdd s code sev src ps = { s with evr := evr } := by
  unfold evrAdd
  dsimp only
  by_cases hfrozen : s.evr.frozen
  · rw [if_pos hfrozen]
    by_cases hroom : s.evr.held.length < if sev ≤ 1 then 56 else 64
    · exact ⟨_, if_pos hroom⟩
    · exact ⟨_, if_neg hroom⟩
  · exact ⟨_, if_neg hfrozen⟩

@[simp] theorem evrAdd_power (s : State) (code sev src : Nat) (ps : List Nat) : (evrAdd s code sev src ps).power = s.power := by
  obtain ⟨_, h⟩ := evrAdd_frame s code sev src ps
  rw [h]

theorem bitOf_eq_testBit (w i : Nat) : bitOf w i = w.testBit i := by
  rw [bitOf, Nat.testBit_eq_decide_div_mod_eq, Nat.shiftRight_eq_div_pow, Bool.beq_eq_decide_eq]

/-- The power registers after an update of the device level from ten estimates of sum `sum`. -/
def devPower (p : Power) (sum : Nat) : Power :=
  let l := devStep p sum
  { p with devLevel := l, devHeld := if l = p.devLevel then p.devHeld + 1 else 0, pkgW := sum / 10
           alert := if 0 < l then p.alert ||| 4 else p.alert }

/-- An update sets the power registers, but for the second of the last record. -/
theorem devUpdate_power (s : State) : ∃ r, (devUpdate s).power = { devPower s.power (sumN s.power.ests) with lastRec := r } := by
  let p := s.power
  let l := devStep p (sumN p.ests)
  obtain ⟨u, hu⟩ : ∃ u, markSlow (retarget { s with power := devPower p (sumN p.ests) }) = u := ⟨_, rfl⟩
  have hpower : u.power = devPower p (sumN p.ests) := by
    obtain ⟨_, hret⟩ := retarget_frame { s with power := devPower p (sumN p.ests) }
    rw [← hu, hret]
    rfl
  have heq : devUpdate s = if p.devLevel < l && p.lastRec != some (secWindow u) then
      evrAdd { u with power := { u.power with lastRec := some (secWindow u) } } 0x0C12 1 9 [p.plimit, sumN p.ests / 10, l, 0] else u := by
    rw [← hu]
    rfl
  rw [heq]
  split
  · exact ⟨some (secWindow u), by rw [evrAdd_power, hpower]⟩
  · exact ⟨_, hpower⟩

/-- Settles O57: R424's step of the level. -/
theorem deviceLevelFollowsThePowerLimit : Obligations.DeviceLevelFollowsThePowerLimit := by
  intro s t hexec
  have harm : exec .devLevelUpdate s = execDevLevelUpdate s := rfl
  rw [harm, execDevLevelUpdate, guardNext_next] at hexec
  obtain ⟨-, rfl⟩ := hexec
  obtain ⟨r, hpower⟩ := devUpdate_power s
  have hlevel : (devUpdate s).power.devLevel = devStep s.power (sumN s.power.ests) := by rw [hpower]; rfl
  refine ⟨fun hover hlow => ?_, fun hover htop => ?_, fun hunder hin hheld => ?_, fun hunder hin hheld => ?_, fun hmid hin => ?_, fun hpos => ?_, ?_⟩
  · rw [hlevel, devStep, if_pos hover]
    omega
  · rw [hlevel, devStep, if_pos hover]
    omega
  · rw [hlevel, devStep, if_neg (by omega), if_pos (by simp [hunder, hheld])]
  · rw [hlevel, devStep, if_neg (by omega), if_neg (by simp; omega)]
  · rw [hlevel, devStep, if_neg (by omega), if_neg (by simp; omega)]
  · rw [hlevel] at hpos
    rw [hpower]
    simp only [devPower, if_pos hpos, bitOf_eq_testBit, Nat.testBit_or, Bool.or_eq_true]
    exact .inr (by decide)
  · rw [hpower]
    rfl

end Sys2Proof.Machine
end

section
/-! The release of a job (17 R394): its vault pages read zero, and its slot is empty. -/
namespace Sys2Proof.Machine

/-- Every byte that reads 0 in `s` reads 0 in `t`. -/
def ZerosStay (s t : State) : Prop := ∀ a, s.mem.get a = 0 → t.mem.get a = 0

theorem zerosStay_of_mem {s t : State} (h : t.mem = s.mem) : ZerosStay s t := fun _ ha => by rw [h]; exact ha

theorem zeroMem_zero {s : State} {a n x : Nat} (h₁ : a ≤ x) (h₂ : x < a + n) : (zeroMem s a n).mem.get x = 0 := Store.mark_zero h₁ h₂

theorem zerosStay_zeroMem (s : State) (a n : Nat) : ZerosStay s (zeroMem s a n) := fun x hx => by
  by_cases hin : a ≤ x ∧ x < a + n
  · exact zeroMem_zero hin.1 hin.2
  · exact (Store.mark_get (by omega)).trans hx

theorem zerosStay_foldl {α : Type} {f : State → α → State} (hf : ∀ s a, ZerosStay s (f s a)) (s : State) (l : List α) :
    ZerosStay s (l.foldl f s) :=
  fun x hx => foldl_keeps (P := fun t => t.mem.get x = 0) (fun t a _ ht => hf t a x ht) hx

/-- Once the pages of a list are zeroed every byte of each reads 0. -/
theorem zeroPages_zero {s : State} {pages : List Nat} {n o : Nat} (hn : n ∈ pages) (ho : o < 2 ^ 21) :
    (pages.foldl (fun s n => zeroMem s (vaultPa n) (2 ^ 21)) s).mem.get (vaultPa n + o) = 0 := by
  induction pages generalizing s with
  | nil => cases hn
  | cons m pages ih =>
    rw [List.foldl_cons]
    rcases List.mem_cons.mp hn with rfl | hn
    · exact zerosStay_foldl (fun s m => zerosStay_zeroMem s (vaultPa m) (2 ^ 21)) _ pages _ (zeroMem_zero (by omega) (by omega))
    · exact ih hn

theorem zerosStay_zeroFrame (s : State) (q : Nat) : ZerosStay s (zeroFrame s q) := by
  unfold zeroFrame
  split
  · refine zerosStay_foldl (fun s i => ?_) s _
    exact zerosStay_zeroMem s _ _
  · exact fun _ h => h

/-- A fold of an operation that leaves a part of the state leaves it. -/
theorem foldl_leaves {α β : Type} {g : State → β} {f : State → α → State} (hf : ∀ s a, g (f s a) = g s) (s : State) (l : List α) :
    g (l.foldl f s) = g s :=
  foldl_keeps (P := fun t => g t = g s) (fun t a _ ht => (hf t a).trans ht) rfl

@[simp] theorem mem_zeroSems (s : State) (x : Job) : (zeroSems s x).mem = s.mem := by
  refine foldl_leaves (g := State.mem) (fun s r => ?_) s _
  refine foldl_leaves (g := State.mem) (fun s i => ?_) s _
  rfl

@[simp] theorem mem_foldl_farNewOwner (s : State) (tag : Nat) (l : List Nat) : (l.foldl (farNewOwner tag) s).mem = s.mem :=
  foldl_leaves (g := State.mem) (f := farNewOwner tag) (fun _ _ => rfl) s l

@[simp] theorem mem_modelUnpin1 (s : State) (h : Nat) : (modelUnpin1 s h).mem = s.mem := by
  unfold modelUnpin1
  dsimp only
  split
  · rfl
  · split <;> rfl

@[simp] theorem mem_modelUnuse (s : State) (h : Nat) : (modelUnuse s h).mem = s.mem := by
  unfold modelUnuse
  dsimp only
  split
  · rfl
  · split <;> rfl

@[simp] theorem mem_modJob (s : State) (j : Nat) (f : Job → Job) : (modJob s j f).mem = s.mem := by
  unfold modJob
  split <;> rfl

@[simp] theorem mem_chargeHolder (s : State) (gi : Nat) : (chargeHolder s gi).mem = s.mem := by
  unfold chargeHolder
  split
  · rfl
  · dsimp only
    split
    · rfl
    · exact mem_modJob ..

@[simp] theorem mem_schedPoint (s : State) (gi : Nat) : (schedPoint s gi).mem = s.mem := by
  unfold schedPoint
  dsimp only
  split <;> exact mem_chargeHolder s gi

@[simp] theorem mem_leaveGroup (s : State) (j : Nat) : (leaveGroup s j).mem = s.mem := by
  unfold leaveGroup
  dsimp only
  rw [foldl_leaves (g := State.mem) mem_schedPoint]

theorem gateOff_frame (s : State) (cups : List Nat) : ∃ gates, gateOff s cups = { s with gates := gates } :=
  foldl_keeps (P := fun t => ∃ gates, t = { s with gates := gates }) (fun t c _ ⟨g, h⟩ => by
    subst h
    split <;> exact ⟨_, rfl⟩) ⟨_, rfl⟩

/-- The spires that no job has any more are OFF. -/
theorem spiresOff_frame (s : State) (l : List Nat) : ∃ spires,
    l.foldl (fun s p => if spReserved s p then s else modSp s p fun y => { y with st := .off }) s = { s with spires := spires } :=
  foldl_keeps (P := fun t => ∃ spires, t = { s with spires := spires }) (fun t p _ ⟨x, h⟩ => by
    subst h
    split <;> exact ⟨_, rfl⟩) ⟨_, rfl⟩

@[simp] theorem tfind_tdel_self {α : Type} (t : Tbl α) (i : Nat) : tfind (tdel t i) i = none := by
  induction t with
  | nil => rfl
  | cons e t ih =>
    by_cases h : e.1 = i <;> simp [tdel, tfind, h] <;> exact ih

/-- What a release does once the vault pages of the job are zeroed. -/
def releaseEnd (s : State) (j : Nat) (x : Job) : State :=
  let s := x.frames.foldl zeroFrame s
  let s := zeroSems s x
  let s := x.far.foldl (farNewOwner bootKeySlot) s
  let s := x.ovf.foldl (fun s o => o.2.foldl (farNewOwner bootKeySlot) s) s
  let s := { s with pool := s.pool.filter fun u => !(u.2.kind = 1 && u.2.owner = j), farKeys := tdel s.farKeys j }
  let s := if x.lc then (jobModels x).foldl modelUnpin1 s
    else if x.running.isSome && !x.saved then (jobModels x).foldl modelUnuse s else s
  let s := { s with wins := s.wins.filter fun w => w.2.job != j }
  let s := partsOff (leaveGroup s j) (jobHandle s j)
  let s := { s with jobs := tdel s.jobs j, jobRegs := tdel s.jobRegs j }
  gateOff ((jobSpires x).foldl (fun s p => if spReserved s p then s else modSp s p fun y => { y with st := .off }) s) x.cups

theorem releaseJob_eq {s : State} {j : Nat} {x : Job} (hx : jobOf s j = some x) :
    ∃ u, releaseJob s j = releaseEnd (x.vpages.foldl (fun s n => zeroMem s (vaultPa n) (2 ^ 21)) u) j x := by
  rw [releaseJob, hx]
  exact ⟨_, rfl⟩

theorem mem_releaseEnd (s : State) (j : Nat) (x : Job) : (releaseEnd s j x).mem = (x.frames.foldl zeroFrame s).mem := by
  have hgates (s : State) : (gateOff s x.cups).mem = s.mem := by
    obtain ⟨_, h⟩ := gateOff_frame s x.cups
    rw [h]
  have hspires (s : State) (l : List Nat) :
      (l.foldl (fun s p => if spReserved s p then s else modSp s p fun y => { y with st := .off }) s).mem = s.mem := by
    obtain ⟨_, h⟩ := spiresOff_frame s l
    rw [h]
  have hmodels (s : State) : (if x.lc then (jobModels x).foldl modelUnpin1 s
      else if x.running.isSome && !x.saved then (jobModels x).foldl modelUnuse s else s).mem = s.mem := by
    split
    · exact foldl_leaves mem_modelUnpin1 s _
    · split
      · exact foldl_leaves mem_modelUnuse s _
      · rfl
  have hovf (s : State) : (x.ovf.foldl (fun s o => o.2.foldl (farNewOwner bootKeySlot) s) s).mem = s.mem := by
    refine foldl_leaves (fun s o => ?_) s x.ovf
    exact mem_foldl_farNewOwner s bootKeySlot o.2
  simp only [releaseEnd, partsOff, hgates, hspires, mem_leaveGroup, hmodels, hovf, mem_foldl_farNewOwner, mem_zeroSems]

theorem jobOf_releaseEnd (s : State) (j : Nat) (x : Job) : jobOf (releaseEnd s j x) j = none := by
  unfold releaseEnd
  extract_lets
  obtain ⟨_, hgates⟩ := gateOff_frame ((jobSpires x).foldl (fun s p => if spReserved s p then s else modSp s p fun y => { y with st := .off }) _)
      x.cups
  obtain ⟨_, hspires⟩ := spiresOff_frame (s := _) (jobSpires x)
  rw [hgates, hspires]
  exact tfind_tdel_self _ j

/-- Settles O35: the pages are zeroed in the release, and nothing after that writes other than zeros to memory. -/
theorem releasedVaultPagesReadZero : Obligations.ReleasedVaultPagesReadZero := by
  intro s j x hx
  obtain ⟨u, hrelease⟩ := releaseJob_eq hx
  rw [hrelease]
  refine ⟨fun n hn o ho => ?_, jobOf_releaseEnd _ j x⟩
  rw [mem_releaseEnd]
  exact zerosStay_foldl zerosStay_zeroFrame _ _ _ (zeroPages_zero hn ho)

end Sys2Proof.Machine
end

section
/-! What a function-level reset leaves (16 R375): the operations of a reset bring no job, model, image, window or mailbox entry, and leave the
allotments. `Shrinks s0 s` says so of a state `s` reached from `s0`; one rule for each operation. -/
namespace Sys2Proof.Machine

/-- Every job and model of `t` is one of `s` under its number and of its function, every window one of `s`; images, mailbox entries, the
functions' allotments and the power state are those of `s`; a job that is gone has left no window. -/
structure Shrinks (s t : State) : Prop where
  jobs : ∀ k ∈ t.jobs, ∃ k' ∈ s.jobs, k'.1 = k.1 ∧ k'.2.fn = k.2.fn
  models : ∀ m ∈ t.models, ∃ m' ∈ s.models, m'.1 = m.1 ∧ m'.2.fn = m.2.fn
  wins : ∀ w ∈ t.wins, w ∈ s.wins
  images : t.images = s.images
  fetched : t.fetched = s.fetched
  allot : ∀ f, (fnOf t f).allot = (fnOf s f).allot
  power : t.power = s.power
  lost : ∀ j, jobOf t j = none → jobOf s j = none ∨ ∀ w ∈ t.wins, w.2.job ≠ j

theorem mem_of_mem_tset {α : Type} {t : Tbl α} {i : Nat} {v : α} {e : Nat × α} (h : e ∈ tset t i v) : e = (i, v) ∨ e ∈ t := by
  induction t with
  | nil => exact .inl (List.mem_singleton.mp h)
  | cons a t ih =>
    rw [tset] at h
    split at h
    · rcases List.mem_cons.mp h with rfl | h
      · exact .inl rfl
      · exact .inr h
    · split at h
      · rcases List.mem_cons.mp h with rfl | h
        · exact .inl rfl
        · exact .inr (List.mem_cons_of_mem _ h)
      · rcases List.mem_cons.mp h with rfl | h
        · exact .inr List.mem_cons_self
        · exact (ih h).imp id (List.mem_cons_of_mem _)

section
variable {s0 s : State}

protected theorem Shrinks.refl : Shrinks s s :=
  ⟨fun k hk => ⟨k, hk, rfl, rfl⟩, fun m hm => ⟨m, hm, rfl, rfl⟩, fun _ hw => hw, rfl, rfl, fun _ => rfl, rfl, fun _ => .inl⟩

/-- A change of fields that none of these is kept in. -/
protected theorem Shrinks.frame (h : Shrinks s0 s)
    {now freeCtr ids imgSeq hotSeq poolSeq jobSeq etherType vlanId lastBank netMode : Nat} {fuse : Fuses} {boot : Boot} {glb : Glb} {msixOut :
        List MsixMsg} {fabOut : List OutFr} {pool : Tbl PUnit} {jobRegs farEpoch farKeys farTags csem dsPart flashCuts : Tbl Nat} {groups :
        Tbl CoGrp} {spires : Tbl Spire} {writes : List PWr} {sigs : List Sig} {slices : Tbl Slice} {vchans : Tbl VChan} {layers : Tbl Layer} {vaults :
        Tbl Vault} {wbulk : List WBulk} {fchans : Tbl FChan} {farFenced vlanEn : Bool} {arbs : Tbl Arb} {ports : Tbl Port} {landings :
        List Landing} {video : Video} {evr : Evr} {bar4Rd : List Nat} {bankA bankB calib : Option (List Nat)} {gates : Tbl Gate} {therms :
        Tbl Therm} {hmem flash : Memory} {mem far : Store} :
    Shrinks s0 { s with
      now := now, freeCtr := freeCtr, ids := ids, imgSeq := imgSeq, hotSeq := hotSeq, poolSeq := poolSeq, jobSeq := jobSeq, etherType :=
          etherType, vlanId := vlanId, lastBank := lastBank, fuse := fuse, boot := boot, glb := glb, msixOut := msixOut, fabOut := fabOut, pool :=
          pool, jobRegs := jobRegs, farEpoch := farEpoch, farKeys := farKeys, farTags := farTags, csem := csem, dsPart := dsPart, flashCuts :=
          flashCuts, groups := groups, spires := spires, writes := writes, sigs := sigs, slices := slices, vchans := vchans, layers :=
          layers, vaults := vaults, wbulk := wbulk, fchans := fchans, farFenced := farFenced, vlanEn := vlanEn, arbs := arbs, ports :=
          ports, landings := landings, video := video, evr := evr, bar4Rd := bar4Rd, bankA := bankA, bankB := bankB, calib := calib, gates :=
          gates, therms := therms, hmem := hmem, mem := mem, far := far, flash := flash, netMode := netMode } where
  jobs := h.jobs
  models := h.models
  wins := h.wins
  images := h.images
  fetched := h.fetched
  allot := h.allot
  power := h.power
  lost := h.lost

/-- A job is replaced by one of the same function. -/
protected theorem Shrinks.setJob {j : Nat} {x y : Job} (hx : jobOf s j = some x) (hfn : y.fn = x.fn) (h : Shrinks s0 s) :
    Shrinks s0 (setJob s j y) where
  jobs k hk := by
    rcases mem_of_mem_tset hk with rfl | hk
    · obtain ⟨k', hk', hkey, hfn'⟩ := h.jobs _ (mem_of_tfind hx)
      exact ⟨k', hk', hkey, hfn'.trans hfn.symm⟩
    · exact h.jobs k hk
  models := h.models
  wins := h.wins
  images := h.images
  fetched := h.fetched
  allot := h.allot
  power := h.power
  lost k hk := by
    by_cases hj : j = k
    · rw [hj, jobOf_setJob_self] at hk
      cases hk
    · exact h.lost k ((jobOf_setJob_ne hj).symm.trans hk)

protected theorem Shrinks.modJob {j : Nat} {f : Job → Job} (h : Shrinks s0 s) (hf : ∀ x, (f x).fn = x.fn := by intro; rfl) :
    Shrinks s0 (modJob s j f) := by
  unfold modJob
  split
  · exact .setJob (by assumption) (hf _) h
  · exact h

/-- A model is replaced by one of the same function. -/
protected theorem Shrinks.model {j seq : Nat} {m m' : Model} (hm : tfind s.models j = some m) (h : Shrinks s0 s) (hfn : m'.fn = m.fn := by rfl) :
    Shrinks s0 { s with models := tset s.models j m', hotSeq := seq } where
  jobs := h.jobs
  models e he := by
    rcases mem_of_mem_tset he with rfl | he
    · obtain ⟨e', he', hkey, hfn'⟩ := h.models _ (mem_of_tfind hm)
      exact ⟨e', he', hkey, hfn'.trans hfn.symm⟩
    · exact h.models e he
  wins := h.wins
  images := h.images
  fetched := h.fetched
  allot := h.allot
  power := h.power
  lost := h.lost

/-- A function is replaced by one of the same allotment. -/
protected theorem Shrinks.setFn {f : Nat} {x : Fn} (h : Shrinks s0 s) (hx : x.allot = (fnOf s f).allot := by rfl) : Shrinks s0 (setFn s f x) where
  jobs := h.jobs
  models := h.models
  wins := h.wins
  images := h.images
  fetched := h.fetched
  power := h.power
  lost := h.lost
  allot g := by
    by_cases hg : f = g
    · rw [← hg, fnOf_setFn_self, hx, h.allot]
    · rw [fnOf_setFn_ne hg, h.allot]

protected theorem Shrinks.modFn {f : Nat} {g : Fn → Fn} (h : Shrinks s0 s) (hg : ∀ x, (g x).allot = x.allot := by intro; rfl) :
    Shrinks s0 (modFn s f g) :=
  .setFn h (hg _)

protected theorem Shrinks.ite {c : Prop} [Decidable c] {a b : State} (ha : Shrinks s0 a) (hb : Shrinks s0 b) : Shrinks s0 (if c then a else b) := by
  split
  · exact ha
  · exact hb

protected theorem Shrinks.foldl {α : Type} {f : State → α → State} {l : List α} (hf : ∀ s x, Shrinks s0 s → Shrinks s0 (f s x)) (h : Shrinks s0 s) :
    Shrinks s0 (l.foldl f s) :=
  foldl_keeps (fun s x _ => hf s x) h

protected theorem Shrinks.modPort {p : Nat} {f : Port → Port} (h : Shrinks s0 s) : Shrinks s0 (modPort s p f) :=
  .frame h

protected theorem Shrinks.portEmit {pi : Nat} {f : OutFr} (h : Shrinks s0 s) : Shrinks s0 (portEmit s pi f) :=
  .frame (.modPort h)

protected theorem Shrinks.portDrain {n pi : Nat} (h : Shrinks s0 s) : Shrinks s0 (portDrain n s pi) := by
  induction n generalizing s with
  | zero => exact h
  | succ n ih =>
    unfold portDrain
    dsimp only
    split
    · exact ih (.portEmit (.modPort h))
    · exact .ite (.modPort h) (ih (.modPort h))

protected theorem Shrinks.portRun {pi : Nat} (h : Shrinks s0 s) : Shrinks s0 (portRun s pi) :=
  .portDrain h

protected theorem Shrinks.portSend {pi : Nat} {f : OutFr} (h : Shrinks s0 s) : Shrinks s0 (portSend s pi f) :=
  .ite (.portRun (.modPort h)) h

protected theorem Shrinks.claimSend {x : Job} {g kind req : Nat} (h : Shrinks s0 s) : Shrinks s0 (claimSend s x g kind req) :=
  .portSend h

protected theorem Shrinks.claimsEnd {j : Nat} (h : Shrinks s0 s) : Shrinks s0 (claimsEnd s j) := by
  unfold claimsEnd
  split
  · exact h
  · exact .foldl (fun _ _ h => .claimSend h) h

protected theorem Shrinks.hostPut {a : Nat} {bs : List Nat} (h : Shrinks s0 s) : Shrinks s0 (hostPut s a bs) :=
  .frame h

protected theorem Shrinks.gcmPut {j : Nat} {key : List Nat} {ctr base len k : Nat} {plain : List Nat} (h : Shrinks s0 s) :
    Shrinks s0 (gcmPut s j key ctr base len k plain) :=
  .hostPut (.hostPut h)

protected theorem Shrinks.gcmWrite {j base len off : Nat} {bs : List Nat} (h : Shrinks s0 s) :
    Shrinks s0 ((gcmWrite s j base len off bs).getD s) := by
  unfold gcmWrite
  split
  · exact h
  · dsimp only
    generalize (if bs.length = 4096 then some bs else _) = u
    cases u with
    | none => exact h
    | some p => exact .modJob (.gcmPut h)

protected theorem Shrinks.modVch {v c : Nat} {f : VChan → VChan} (h : Shrinks s0 s) : Shrinks s0 (modVch s v c f) :=
  .frame h

protected theorem Shrinks.queueLines {pa n : Nat} (h : Shrinks s0 s) : Shrinks s0 (queueLines s pa n) :=
  .foldl (fun _ _ h => .modVch h) h

protected theorem Shrinks.paPut {pa : Nat} {bs : List Nat} (h : Shrinks s0 s) : Shrinks s0 (paPut s pa bs) := by
  unfold paPut
  split
  · exact .queueLines (.frame h)
  · exact .frame h
  · exact .frame h
  · split
    · exact .ite (.gcmWrite h) (.hostPut h)
    · exact h
  · exact h

protected theorem Shrinks.applyWr {w : PWr} (h : Shrinks s0 s) : Shrinks s0 (applyWr s w) :=
  .ite (.modJob (.paPut (.frame h))) (.paPut (.frame h))

protected theorem Shrinks.evrAdd {code sev src : Nat} {ps : List Nat} (h : Shrinks s0 s) : Shrinks s0 (evrAdd s code sev src ps) :=
  .ite (.ite (.frame h) (.frame h)) (.frame h)

protected theorem Shrinks.reqErrRec {h' status pa : Nat} (h : Shrinks s0 s) : Shrinks s0 (reqErrRec s h' status pa) :=
  .evrAdd h

protected theorem Shrinks.performWr {w : PWr} (h : Shrinks s0 s) : Shrinks s0 (performWr s w) := by
  unfold performWr
  split
  · exact .reqErrRec (.modJob (.frame h))
  · exact .applyWr h

protected theorem Shrinks.foldDet {p : Nat} (h : Shrinks s0 s) : Shrinks s0 (foldDet s p) := by
  unfold foldDet
  dsimp only
  split
  · exact h
  · exact .modJob h fun y => foldl_keeps (P := fun z : Job => z.fn = y.fn) (fun _ _ _ hz => hz) rfl

protected theorem Shrinks.ctlSend {x : Job} {d kind a b : Nat} (h : Shrinks s0 s) : Shrinks s0 (ctlSend s x d kind a b) :=
  .portSend h

protected theorem Shrinks.ctlAll {x : Job} {kind a b : Nat} (h : Shrinks s0 s) : Shrinks s0 (ctlAll s x kind a b) :=
  .foldl (fun _ _ h => .ctlSend h) h

protected theorem Shrinks.msix {f v : Nat} (h : Shrinks s0 s) : Shrinks s0 (msix s f v) :=
  .ite (.frame h) (.setFn h)

protected theorem Shrinks.cqDrain {n f qi : Nat} (h : Shrinks s0 s) : Shrinks s0 (cqDrain n s f qi) := by
  induction n generalizing s with
  | zero => exact h
  | succ n ih =>
    unfold cqDrain
    split
    · exact h
    · split
      · exact h
      · exact .ite h (ih (.ite (.msix (.modFn (.hostPut h))) (.modFn (.hostPut h))))

protected theorem Shrinks.completeX {r : CmdRef} {flags status lateUs param result : Nat} (h : Shrinks s0 s) :
    Shrinks s0 (completeX s r flags status lateUs param result) := by
  unfold completeX
  dsimp only
  split
  · exact h
  · exact .ite h (.cqDrain (.modFn h))

protected theorem Shrinks.complete {r : CmdRef} {status param result : Nat} (h : Shrinks s0 s) : Shrinks s0 (complete s r status param result) :=
  .completeX h

protected theorem Shrinks.freeMem {pa n : Nat} (h : Shrinks s0 s) : Shrinks s0 (freeMem s pa n) := by
  unfold freeMem
  dsimp only
  split
  · exact .frame h
  · exact h
  · exact h
  · exact .frame h

protected theorem Shrinks.freeVa {j va len : Nat} (h : Shrinks s0 s) : Shrinks s0 (freeVa s j va len) := by
  unfold freeVa
  refine .foldl (fun _ _ h => ?_) ?_
  · split
    · split
      · exact .freeMem h
      · exact h
    · exact h
  · exact h

protected theorem Shrinks.frUndef {t : Stream} {f : VFrame} {buf : Option Nat} {ran : Bool} (h : Shrinks s0 s) : Shrinks s0 (frUndef s t f buf ran) :=
    by
  unfold frUndef
  dsimp only
  refine .ite ?_ ?_
  · refine .freeVa ?_
    split
    · exact .freeVa h
    · exact h
  · split
    · exact .freeVa h
    · exact h

protected theorem Shrinks.engUndef {e : Engine} (h : Shrinks s0 s) : Shrinks s0 (engUndef s e) := by
  unfold engUndef
  split
  · exact h
  · split
    · exact .frUndef h
    · exact h

protected theorem Shrinks.setVideo {f : Video → Video} (h : Shrinks s0 s) : Shrinks s0 (setVideo s f) :=
  .frame h

protected theorem Shrinks.applyRelease {f : VFrame} {b : Nat} (h : Shrinks s0 s) : Shrinks s0 (applyRelease s f b) := by
  unfold applyRelease
  dsimp only
  split
  · exact .complete h
  · exact .ite (.complete h) (.complete (.setVideo h))

protected theorem Shrinks.endStream {c : Nat} (h : Shrinks s0 s) : Shrinks s0 (endStream s c) :=
  .foldl (fun _ _ h => .complete h) (.setVideo h)

protected theorem Shrinks.vAdvance {n c : Nat} (h : Shrinks s0 s) : Shrinks s0 (vAdvance n s c) := by
  induction n generalizing s with
  | zero => exact h
  | succ n ih =>
    unfold vAdvance
    refine .ite h ?_
    split
    · exact h
    · dsimp only
      split
      · exact ih (.applyRelease (.setVideo h))
      · exact .endStream (.complete (.setVideo h))
      · exact h

protected theorem Shrinks.videoAbort {j : Nat} {close : Bool} (h : Shrinks s0 s) : Shrinks s0 (videoAbort s j close) :=
  .ite (.setVideo (.foldl (fun _ _ h => .vAdvance h) (.foldl (fun _ _ h => .complete h) (.frame (.foldl (fun _ _ h => .engUndef h) h))))) (.foldl
      (fun _ _ h => .vAdvance h) (.foldl (fun _ _ h => .complete h) (.frame (.foldl (fun _ _ h => .engUndef h) h))))

protected theorem Shrinks.setSp {p : Nat} {x : Spire} (h : Shrinks s0 s) : Shrinks s0 (setSp s p x) :=
  .frame h

protected theorem Shrinks.modSp {p : Nat} {f : Spire → Spire} (h : Shrinks s0 s) : Shrinks s0 (modSp s p f) :=
  .setSp h

protected theorem Shrinks.doClear {p : Nat} (h : Shrinks s0 s) : Shrinks s0 (doClear s p) :=
  .modSp (.foldDet h)

protected theorem Shrinks.arbForget {a r : Nat} (h : Shrinks s0 s) : Shrinks s0 (arbForget s a r) :=
  .ite h (.frame h)

protected theorem Shrinks.cachePin {h' : Nat} {up : Bool} (h : Shrinks s0 s) : Shrinks s0 (cachePin s h' up) := by
  unfold cachePin
  dsimp only
  split
  · exact h
  · exact .ite (.frame h) (.frame h)

protected theorem Shrinks.loadUnhold {h' : Nat} (h : Shrinks s0 s) : Shrinks s0 (loadUnhold s h') := by
  unfold loadUnhold
  split
  · exact h
  · exact .ite h (.ite (.cachePin h) (.ite (.frame h) h))

protected theorem Shrinks.zeroMem {pa n : Nat} (h : Shrinks s0 s) : Shrinks s0 (zeroMem s pa n) :=
  .frame h

protected theorem Shrinks.zeroFrame {q : Nat} (h : Shrinks s0 s) : Shrinks s0 (zeroFrame s q) := by
  unfold zeroFrame
  split
  · exact .foldl (fun _ _ h => .zeroMem h) h
  · exact h

protected theorem Shrinks.zeroFrames {l : List Nat} (h : Shrinks s0 s) : Shrinks s0 (zeroFrames s l) :=
  .foldl (fun _ _ h => .zeroFrame h) h

protected theorem Shrinks.zeroSems {x : Job} (h : Shrinks s0 s) : Shrinks s0 (zeroSems s x) :=
  .foldl (fun _ _ h => .foldl (fun _ _ h => .frame h) h) h

protected theorem Shrinks.farNewOwner {tag page : Nat} (h : Shrinks s0 s) : Shrinks s0 (farNewOwner tag s page) :=
  .frame h

protected theorem Shrinks.modelUnpin1 {h' : Nat} (h : Shrinks s0 s) : Shrinks s0 (modelUnpin1 s h') := by
  unfold modelUnpin1
  dsimp only
  split
  · exact h
  case h_2 m hm => exact .ite (.model hm h) (.model hm h)

protected theorem Shrinks.modelUnuse {h' : Nat} (h : Shrinks s0 s) : Shrinks s0 (modelUnuse s h') := by
  unfold modelUnuse
  dsimp only
  split
  · exact h
  case h_2 m hm => exact .ite (.model hm h) (.model hm h)

protected theorem Shrinks.chargeHolder {gi : Nat} (h : Shrinks s0 s) : Shrinks s0 (chargeHolder s gi) := by
  unfold chargeHolder
  dsimp only
  split
  · exact h
  · split
    · exact .frame h
    · exact .modJob (.frame h)

protected theorem Shrinks.schedPoint {gi : Nat} (h : Shrinks s0 s) : Shrinks s0 (schedPoint s gi) := by
  unfold schedPoint
  dsimp only
  split
  · exact .frame (.chargeHolder h)
  · exact .chargeHolder h

protected theorem Shrinks.leaveGroup {j : Nat} (h : Shrinks s0 s) : Shrinks s0 (leaveGroup s j) :=
  .foldl (fun _ _ h => .schedPoint h) (.frame h)

protected theorem Shrinks.partsOff {h' : Nat} (h : Shrinks s0 s) : Shrinks s0 (partsOff s h') :=
  .frame h

protected theorem Shrinks.gateWrite {n : Nat} {en : Bool} (h : Shrinks s0 s) : Shrinks s0 (gateWrite s n en) :=
  .frame h

protected theorem Shrinks.gateOff {cups : List Nat} (h : Shrinks s0 s) : Shrinks s0 (gateOff s cups) :=
  .foldl (fun _ _ h => .ite h (.gateWrite h)) h


/-! Releases. -/

/-- Windows are given back. -/
protected theorem Shrinks.dropWins {p : Nat × Win → Bool} (h : Shrinks s0 s) : Shrinks s0 { s with wins := s.wins.filter p } :=
  { h with
    wins := fun w hw => h.wins w (List.mem_filter.mp hw).1
    lost := fun j hj => (h.lost j hj).imp id fun hw w hmem => hw w (List.mem_filter.mp hmem).1 }

theorem tfind_tdel_ne {α : Type} {t : Tbl α} {i j : Nat} (h : i ≠ j) : tfind (tdel t i) j = tfind t j := by
  induction t with
  | nil => rfl
  | cons e t ih =>
    by_cases hi : e.1 = i
    · have hj : e.1 ≠ j := fun hj => h (hi.symm.trans hj)
      rw [tfind, if_neg hj, ← ih]
      simp [tdel, hi]
    · have htail : tdel (e :: t) i = e :: tdel t i := by simp [tdel, hi]
      rw [htail, tfind, tfind, ih]

/-- A job without windows is gone. -/
protected theorem Shrinks.dropJob {j : Nat} {regs : Tbl Nat} (hw : ∀ w ∈ s.wins, w.2.job ≠ j) (h : Shrinks s0 s) :
    Shrinks s0 { s with jobs := tdel s.jobs j, jobRegs := regs } :=
  { h with
    jobs := fun k hk => h.jobs k (List.mem_filter.mp hk).1
    lost := fun k hk => by
      by_cases hj : k = j
      · exact .inr fun w hmem => hj ▸ hw w hmem
      · exact h.lost k ((tfind_tdel_ne (Ne.symm hj)).symm.trans hk) }

/-- A model is gone. -/
protected theorem Shrinks.dropEntry {j : Nat} (h : Shrinks s0 s) : Shrinks s0 { s with models := tdel s.models j } :=
  { h with models := fun m hm => h.models m (List.mem_filter.mp hm).1 }

/-- The spires of a job are cleared and left by it. -/
protected theorem Shrinks.leaveSpires {j : Nat} {l : List Nat} (h : Shrinks s0 s) : Shrinks s0
    (l.foldl (fun s p => if (spOf s p).job = some j then modSp (doClear s p) p fun y => { y with job := none } else s) s) :=
  .foldl (fun _ _ h => .ite (.modSp (.doClear h)) h) h

theorem wins_of_left {s : State} {j : Nat} : ∀ w ∈ (leaveGroup s j).wins, w ∈ s.wins := (Shrinks.leaveGroup .refl).wins

/-- The windows of a job are given back before it leaves its group. -/
theorem wins_left {s : State} {j : Nat} : ∀ w ∈ (leaveGroup { s with wins := s.wins.filter fun w => w.2.job != j } j).wins, w.2.job ≠ j :=
  fun w hw => by simpa using (List.mem_filter.mp (wins_of_left w hw)).2

protected theorem Shrinks.releaseEnd {j : Nat} {x : Job} (h : Shrinks s0 s) : Shrinks s0 (releaseEnd s j x) := by
  have hzeroed : Shrinks s0 (zeroSems (x.frames.foldl zeroFrame s) x) := .zeroSems (.foldl (fun _ _ h => .zeroFrame h) h)
  have hfar := Shrinks.foldl (l := x.ovf) (fun _ o h => .foldl (f := farNewOwner bootKeySlot) (l := o.2) (fun _ _ h => .farNewOwner h) h)
    (Shrinks.foldl (f := farNewOwner bootKeySlot) (l := x.far) (fun _ _ h => .farNewOwner h) hzeroed)
  refine .gateOff (.foldl (fun _ _ h => .ite h (.modSp h)) (.dropJob wins_left (.partsOff (.leaveGroup (.dropWins ?_)))))
  exact .ite (.foldl (fun _ _ h => .modelUnpin1 h) (.frame hfar)) (.ite (.foldl (fun _ _ h => .modelUnuse h) (.frame hfar)) (.frame hfar))

protected theorem Shrinks.releaseJob {j : Nat} (h : Shrinks s0 s) : Shrinks s0 (releaseJob s j) := by
  unfold releaseJob
  split
  · exact h
  case h_2 x hx =>
    have hwrites := Shrinks.foldl (f := performWr) (l := (claimsEnd (videoAbort s j true) j).writes.filter fun w => w.job == j && w.host)
      (fun _ _ h => .performWr h) (.claimsEnd (j := j) (.videoAbort (j := j) (close := true) h))
    exact .releaseEnd (.foldl (fun _ _ h => .zeroMem h) (.foldl (fun _ _ h => .zeroMem h) (.leaveSpires (.frame hwrites))))

protected theorem Shrinks.resetJob {j : Nat} (h : Shrinks s0 s) : Shrinks s0 (resetJob s j) := by
  unfold resetJob
  split
  · exact .releaseJob (.ite h (.ctlAll h))
  · exact h

protected theorem Shrinks.dropModel {h' : Nat} (h : Shrinks s0 s) : Shrinks s0 (dropModel s h') := by
  unfold dropModel
  dsimp only
  split
  · exact .zeroFrames (.dropEntry (.loadUnhold h))
  · exact .loadUnhold h
end

theorem tfind_eq_none_iff {α : Type} {t : Tbl α} {i : Nat} : tfind t i = none ↔ ∀ e ∈ t, e.1 ≠ i := by
  induction t with
  | nil => simp [tfind]
  | cons e t ih =>
    rw [tfind]
    split
    case isTrue h => simp [h]
    case isFalse h => simp [ih, h]

/-- After the release of a job none stands in its slot. -/
theorem releaseEnd_gone (s : State) (j : Nat) (x : Job) : ∀ k ∈ (releaseEnd s j x).jobs, k.1 ≠ j :=
  tfind_eq_none_iff.mp (jobOf_releaseEnd s j x)

/-! What a port sends changes the ports alone. -/

/-- `t` is `s` but for its ports and the frames that it has sent. -/
def SameButPorts (s t : State) : Prop := ∃ ports fabOut, t = { s with ports := ports, fabOut := fabOut }

theorem SameButPorts.refl (s : State) : SameButPorts s s := ⟨_, _, rfl⟩

theorem SameButPorts.trans {s t u : State} : SameButPorts s t → SameButPorts t u → SameButPorts s u := by
  rintro ⟨_, _, rfl⟩ ⟨_, _, rfl⟩
  exact ⟨_, _, rfl⟩

theorem sameButPorts_modPort (s : State) (pi : Nat) (f : Port → Port) : SameButPorts s (modPort s pi f) := ⟨_, _, rfl⟩

theorem sameButPorts_portEmit (s : State) (pi : Nat) (f : OutFr) : SameButPorts s (portEmit s pi f) := ⟨_, _, rfl⟩

theorem sameButPorts_portDrain (n : Nat) (s : State) (pi : Nat) : SameButPorts s (portDrain n s pi) := by
  induction n generalizing s with
  | zero => exact .refl s
  | succ n ih =>
    unfold portDrain
    dsimp only
    split
    · exact ((sameButPorts_modPort ..).trans (sameButPorts_portEmit ..)).trans (ih _)
    · split
      · exact sameButPorts_modPort ..
      · exact (sameButPorts_modPort ..).trans (ih _)

theorem sameButPorts_portSend (s : State) (pi : Nat) (f : OutFr) : SameButPorts s (portSend s pi f) := by
  unfold portSend
  split
  · exact (sameButPorts_modPort ..).trans (sameButPorts_portDrain ..)
  · exact .refl s

theorem sameButPorts_ctlAll (s : State) (x : Job) (kind a b : Nat) : SameButPorts s (ctlAll s x kind a b) :=
  foldl_keeps (P := SameButPorts s) (fun _ _ _ ht => ht.trans (sameButPorts_portSend ..)) (.refl s)

theorem jobOf_ctlAll (s : State) (x : Job) (kind a b j : Nat) : jobOf (ctlAll s x kind a b) j = jobOf s j := by
  obtain ⟨_, _, h⟩ := sameButPorts_ctlAll s x kind a b
  rw [h]
  rfl

theorem resetJob_gone (s : State) (j : Nat) : ∀ k ∈ (resetJob s j).jobs, k.1 ≠ j := by
  unfold resetJob
  split
  case h_1 x hx =>
    have hx' : jobOf (if x.m ≤ 1 then s else ctlAll s x 5 0x050E x.l) j = some x := by
      split
      · exact hx
      · rw [jobOf_ctlAll, hx]
    obtain ⟨u, hrelease⟩ := releaseJob_eq hx'
    rw [hrelease]
    exact releaseEnd_gone _ j x
  case h_2 hx => exact tfind_eq_none_iff.mp hx

/-- Once the jobs of a list of slots are reset none of them is there. -/
theorem foldl_resetJob_gone (s : State) (l : List Nat) : ∀ k ∈ (l.foldl resetJob s).jobs, k.1 ∉ l := by
  induction l generalizing s with
  | nil => exact fun _ _ => List.not_mem_nil
  | cons i l ih =>
    intro k hk hmem
    rcases List.mem_cons.mp hmem with hi | hl
    · obtain ⟨k', hk', hkey, -⟩ := (Shrinks.foldl (f := resetJob) (l := l) (fun _ _ h => .resetJob h) .refl).jobs k hk
      exact resetJob_gone s i k' hk' (hkey.trans hi)
    · exact ih (resetJob s i) k hk hl

theorem dropModel_gone (s : State) (h : Nat) : ∀ m ∈ (dropModel s h).models, m.1 ≠ h := by
  unfold dropModel
  dsimp only
  split
  case h_1 m hm =>
    intro e he
    obtain ⟨e', he', hkey, -⟩ := (Shrinks.zeroFrames (l := m.frames) .refl).models e he
    rw [← hkey]
    simpa using (List.mem_filter.mp he').2
  case h_2 hm => exact tfind_eq_none_iff.mp hm

/-- Once the models of a list are dropped none of them is there. -/
theorem foldl_dropModel_gone (s : State) (l : List Nat) : ∀ m ∈ (l.foldl dropModel s).models, m.1 ∉ l := by
  induction l generalizing s with
  | nil => exact fun _ _ => List.not_mem_nil
  | cons i l ih =>
    intro m hm hmem
    rcases List.mem_cons.mp hmem with hi | hl
    · obtain ⟨m', hm', hkey, -⟩ := (Shrinks.foldl (f := dropModel) (l := l) (fun _ _ h => .dropModel h) .refl).models m hm
      exact dropModel_gone s i m' hm' (hkey.trans hi)
    · exact ih (dropModel s i) m hm hl

/-- The state of a reset once the function's queue pairs and mailbox entries are gone. -/
def resetQueues (s : State) (f : Nat) : State :=
  let s := modFn s f fun x => { x with qps := [], asyncOut := [], asyncWait := [] }
  { s with fetched := s.fetched.filter (·.fn != f) }

/-- The state once its jobs have ended. -/
def resetJobs (s : State) (f : Nat) : State :=
  let s := arbForget s reqMailbox f
  ((s.jobs.filter fun k => k.2.fn == f).map (·.1)).foldl resetJob s

theorem allot_resetQueues (s : State) (f : Nat) : (fnOf (resetQueues s f) f).allot = (fnOf s f).allot := by
  have h := fnOf_modFn_self s f fun x => { x with qps := [], asyncOut := [], asyncWait := [] }
  exact (congrArg Fn.allot h :)

/-- The handles of the function's models. -/
def modelsOf (s : State) (f : Nat) : List Nat := (s.models.filter fun m => m.2.fn == f).map (·.1)

/-- The state without the function's images. -/
def dropImages (s : State) (f : Nat) : State := { s with images := s.images.filter fun i => i.2.fn != f }

/-- The state once its images and its models are dropped as well. -/
def resetModels (s : State) (f : Nat) : State := (modelsOf s f).foldl dropModel (dropImages s f)

theorem modelsOf_mem {s : State} {f : Nat} {m : Nat × Model} (hm : m ∈ s.models) (hfn : m.2.fn = f) : m.1 ∈ modelsOf s f :=
  List.mem_map.mpr ⟨m, List.mem_filter.mpr ⟨hm, by simpa using hfn⟩, rfl⟩

/-- The state once the function's streams are gone and it is itself reset. -/
def resetFn (s : State) (f : Nat) : State :=
  let s := { s with video := { s.video with streams := s.video.streams.filter fun t => t.2.fn != f } }
  let x := fnOf s f
  setFn s f { fnReset f with enabled := x.enabled, allot := if f = 0 then 1024 else x.allot }

/-- A margin measurement of the function ends. -/
def resetMargin (s : State) (f : Nat) : State :=
  if s.glb.margin.any fun m => m.ref.fn == f then
    { s with glb := { s.glb with margin := none }, netMode := if s.boot.admitReady then 0 else 1 } else s

theorem fnReset1_eq (s : State) (f : Nat) : fnReset1 s f = resetMargin (resetFn (resetModels (resetJobs (resetQueues s f) f) f) f) f := rfl

theorem resetMargin_frame (s : State) (f : Nat) : ∃ glb mode, resetMargin s f = { s with glb := glb, netMode := mode } := by
  unfold resetMargin
  split <;> exact ⟨_, _, rfl⟩

theorem shrinks_resetJobs (s : State) (f : Nat) : Shrinks s (resetJobs s f) :=
  .foldl (f := resetJob) (fun _ _ h => .resetJob h) (.arbForget .refl)

theorem shrinks_resetModels (s : State) (f : Nat) :
    Shrinks (dropImages s f) (resetModels s f) :=
  .foldl (f := dropModel) (fun _ _ h => .dropModel h) .refl

/-- The slot of a job of the function is empty. -/
theorem resetJobs_empties {s : State} {f : Nat} {k : Nat × Job} (hk : k ∈ s.jobs) (hfn : k.2.fn = f) :
    ∀ k' ∈ (resetJobs s f).jobs, k'.1 ≠ k.1 := by
  intro k' hk' hkey
  have hjobs : (arbForget s reqMailbox f).jobs = s.jobs := by
    unfold arbForget
    dsimp only
    split <;> rfl
  refine foldl_resetJob_gone (arbForget s reqMailbox f) _ k' hk' (List.mem_map.mpr ⟨k, List.mem_filter.mpr ⟨?_, ?_⟩, hkey.symm⟩)
  · rw [hjobs]
    exact hk
  · simpa using hfn

/-- No job of the function is left. -/
theorem resetJobs_gone (s : State) (f : Nat) : ∀ k ∈ (resetJobs s f).jobs, k.2.fn ≠ f := by
  intro k hk hfn
  obtain ⟨k', hk', hkey, hfn'⟩ := (shrinks_resetJobs s f).jobs k hk
  exact resetJobs_empties hk' (hfn'.trans hfn) k hk hkey.symm

/-- No model of the function is left. -/
theorem resetModels_gone (s : State) (f : Nat) : ∀ m ∈ (resetModels s f).models, m.2.fn ≠ f := by
  intro m hm hfn
  obtain ⟨m', hm', hkey, hfn'⟩ := (shrinks_resetModels s f).models m hm
  have hof : m'.1 ∈ modelsOf s f := modelsOf_mem hm' (hfn'.trans hfn)
  rw [hkey] at hof
  unfold resetModels at hm
  exact foldl_dropModel_gone (dropImages s f) (modelsOf s f) m hm hof

/-- Settles O44: the jobs and models of the function are taken out one by one, and no operation of the reset brings any back. -/
theorem functionResetLeavesNothing : Obligations.FunctionResetLeavesNothing := by
  intro s f hlo hhi t
  have hzero : f ≠ 0 := by omega
  have hj := shrinks_resetJobs (resetQueues s f) f
  have hm := shrinks_resetModels (resetJobs (resetQueues s f) f) f
  have hmodels := resetModels_gone (resetJobs (resetQueues s f) f) f
  generalize hu : resetModels (resetJobs (resetQueues s f) f) f = u at hm hmodels
  obtain ⟨glb, mode, ht⟩ : ∃ glb mode, t = { resetFn u f with glb := glb, netMode := mode } := by
    have ht : t = resetMargin (resetFn u f) f := by rw [← hu]; exact fnReset1_eq s f
    rw [ht]
    exact resetMargin_frame (resetFn u f) f
  have hallot : (fnOf u f).allot = (fnOf s f).allot := ((hm.allot f).trans (hj.allot f)).trans (allot_resetQueues s f)
  have hfn : fnOf t f = { fnReset f with enabled := (fnOf u f).enabled, allot := (fnOf s f).allot } := by
    rw [ht, ← hallot]
    exact (fnOf_setFn_self ..).trans (by rw [if_neg hzero]; rfl)
  have hdefault : fnReset f = { openv := List.range 64 } := if_neg hzero
  have hjobs : ∀ k ∈ t.jobs, k.2.fn ≠ f := by
    rw [ht]
    intro k hk
    obtain ⟨k', hk', -, hfn⟩ := hm.jobs k hk
    rw [← hfn]
    exact resetJobs_gone _ f k' hk'
  rw [hfn, hdefault]
  refine ⟨rfl, rfl, rfl, rfl, hjobs, ?models, ?images, fun j x hx hown => ?wins, fun w hw => ?subset, ?streams, ?fetched⟩
  case models =>
    rw [ht]
    exact hmodels
  case images =>
    rw [ht]
    intro i hi
    have hi : i ∈ u.images := hi
    rw [hm.images] at hi
    simpa using (List.mem_filter.mp hi).2
  case subset =>
    rw [ht] at hw
    exact hj.wins w (hm.wins w hw)
  case wins =>
    have hx : jobOf (resetQueues s f) j = some x := hx
    have hnone : jobOf (resetJobs (resetQueues s f) f) j = none := tfind_eq_none_iff.mpr (resetJobs_empties (mem_of_tfind hx) hown)
    have hlost := (hj.lost j hnone).resolve_left (by rw [hx]; nofun)
    rw [ht]
    exact fun w hw => hlost w (hm.wins w hw)
  case streams =>
    rw [ht]
    intro z hz
    simpa using (List.mem_filter.mp hz).2
  case fetched =>
    rw [ht]
    intro z hz
    have hz : z ∈ u.fetched := hz
    rw [hm.fetched] at hz
    have hz : z ∈ (resetJobs (resetQueues s f) f).fetched := hz
    rw [hj.fetched] at hz
    simpa using (List.mem_filter.mp hz).2

end Sys2Proof.Machine
end

section
/-! Resets (19 R415 to R417, R432), gates, levels and clamp (19 R419 to R425). -/
namespace Sys2Proof.Machine

/-- A command within its ranges whose condition holds is performed. -/
theorem guarded_next {bad c : Prop} [Decidable bad] [Decidable c] {r r' : Refusal} {t : State} (hbad : ¬ bad) (hc : c) :
    (if bad then .refused r else guardNext c r' t) = .next t := by
  rw [if_neg hbad, decide_eq_true hc, guardNext_true]

theorem guardNext_of {c : Bool} {r : Refusal} {t : State} (hc : c = true) : guardNext c r t = .next t := by rw [hc, guardNext_true]

theorem ite_and {α : Type} {p q : Prop} [Decidable p] [Decidable q] {a b : α} :
    (if (decide p && decide q) = true then a else b) = if p ∧ q then a else b := by simp only [Bool.and_eq_true, decide_eq_true_eq]

theorem fwUp_iff {s : State} : fwUp s = true ↔ s.boot.stage = .firmware := by simp [fwUp]

/-- A reset leaves no spire a context. -/
theorem spires_resetState {s : State} {warm : Bool} {p : Nat} {x : Spire} (h : tfind (resetState s warm).spires p = some x) :
    x.st = .off ∧ x.run = none ∧ x.job = none ∧ x.infl = [] := by
  cases warm with
  | false => exact (nomatch h)
  | true =>
    have h : tfind (s.spires.map fun e => (e.1, spCounts e.2)) p = some x := h
    rw [tfind_map] at h
    obtain ⟨y, -, rfl⟩ := Option.map_eq_some_iff.mp h
    exact ⟨rfl, rfl, rfl, rfl⟩

theorem exec_coldReset {s : State} {strap : Nat} {fails : Met (List (Nat × Nat))} (hstrap : strap < 4) (hfails : failsOk fails = true)
    (hoff : s.boot.pwrgd = false) : exec (.coldReset strap fails) s = .next
      (romRun (resetState { s with boot := { s.boot with pwrgd := true, strap := strap, faultN := true }
                                   power := { s.power with vddMv := 750 } } false) fails) := by
  have hbad : ¬ (decide (4 ≤ strap) || !failsOk fails) = true := by simp [hfails, hstrap]
  exact (if_neg hbad).trans (guardNext_of (by simp [hoff]))

theorem exec_warmReset {s : State} {strap : Nat} {fails : Met (List (Nat × Nat))} (hstrap : strap < 4) (hfails : failsOk fails = true)
    (hon : s.boot.pwrgd = true) (hperst : s.boot.perstN = true) (hstage : s.boot.stage ≠ .stopped) :
    exec (.warmReset strap fails) s = .next
      (romRun (resetState { s with boot := { s.boot with perstN := false, strap := strap } } true) fails) := by
  have hbad : ¬ (decide (4 ≤ strap) || !failsOk fails) = true := by simp [hfails, hstrap]
  exact (if_neg hbad).trans (guardNext_of (by simp [hon, hperst, hstage]))

/-- A recovery boot in recovery mode. -/
theorem recoveryBoot_eq {s : State} {len : Nat} {fails : Met (List (Nat × Nat))} (hstage : s.boot.stage = .recovery) :
    let rd := fun i => if i < len then ((cellAt s.boot.recImg i).getD 0).toNat else 0xFF
    let i := slotAt s.fuse rd
    let t := fwStart s 2 i id fails
    recoveryBoot s len fails = if i.res = 0 ∧ 0x8000 + rdLe rd 0xC 4 ≤ len
      then { t with boot := { t.boot with mgmt := [0] } } else { s with boot := { s.boot with mgmt := [3] } } := by
  have hcond : ¬ (s.boot.stage != .recovery) = true := by simp [hstage]
  exact (if_neg hcond).trans ite_and

/-- Settles O55. -/
theorem resetCommandsComplete : Obligations.ResetCommandsComplete := by
  refine ⟨fun s strap fails hstrap hfails => ⟨exec_coldReset hstrap hfails, exec_warmReset hstrap hfails⟩, fun s hon => ?fall,
    fun s hon hperst hstage => ?rise, fun s hfw => guardNext_of hfw, fun s len fails hlen hfails hon hstage => ?recovery, fun s warm => ?keeps⟩
  case fall => exact guardNext_of hon
  case rise => exact guardNext_of (by simp [hon, hperst, hstage])
  case recovery =>
    intro rd i t
    have hbad : ¬ (decide (2 ^ 32 ≤ len) || !failsOk fails) = true := by simpa [hfails] using hlen
    have hexec : exec (.mgmtRecoveryBoot len fails) s = .next (recoveryBoot s len fails) :=
      (if_neg hbad).trans (guardNext_of (by simp [hon, hstage]))
    rw [hexec, recoveryBoot_eq hstage]
  case keeps =>
    intro t
    have hspires := fun p x => spires_resetState (s := s) (warm := warm) (p := p) (x := x)
    cases warm <;> exact ⟨rfl, rfl, rfl, rfl, rfl, rfl, rfl, rfl, rfl, rfl, rfl, rfl, rfl, rfl, rfl, rfl, rfl, rfl, rfl, rfl, rfl, hspires⟩

/-! Power. -/

/-- Settles O56. -/
theorem powerCommandsComplete : Obligations.PowerCommandsComplete := by
  refine ⟨fun s n en hn hfw hmay => ?enable, fun s n hn hfw hst => ?transition, fun s temps video hlen hfw => ?thermal,
    fun s watts hwatts hfw => ?estimate, fun s hfw hests => ?level, fun s amps hfw => ⟨fun hle => ?unclamped, fun hlt => ?clamped⟩,
    fun s c l hc hfw hpend => ?change⟩
  case enable =>
    have hbad : ¬ 104 ≤ n := by omega
    exact (if_neg hbad).trans (guardNext_of (by simp [hfw, hmay]))
  case transition =>
    have hbad : ¬ 104 ≤ n := by omega
    exact (if_neg hbad).trans (guardNext_of (by simpa [hfw] using hst))
  case thermal =>
    have hbad : ¬ (temps.length != 96) = true := by simp [hlen]
    exact (if_neg hbad).trans (guardNext_of hfw)
  case estimate =>
    have hbad : ¬ 2 ^ 16 ≤ watts := by omega
    exact (if_neg hbad).trans (guardNext_of hfw)
  case level => exact guardNext_of (by simp [hfw, hests])
  case unclamped =>
    have hover : decide (2400 < amps) = false := by simpa using hle
    have hexec : exec (.coreCurrentEstimate amps) s = execCoreCurrentEstimate amps s := rfl
    rw [hexec, execCoreCurrentEstimate, hover]
    exact guardNext_of hfw
  case clamped =>
    have hover : decide (2400 < amps) = true := by simpa using hlt
    have hexec : exec (.coreCurrentEstimate amps) s = execCoreCurrentEstimate amps s := rfl
    rw [hexec, execCoreCurrentEstimate, hover]
    exact guardNext_of hfw
  case change =>
    have hexec : exec (.levelChangeDone c) s = execLevelChangeDone c s := rfl
    intro x'
    rw [hexec, execLevelChangeDone, hpend]
    exact guardNext_of (by simp [hfw, hc])

end Sys2Proof.Machine
end

section
/-! The registers (20 R437 to R441) and the management pair (21 R449). -/
namespace Sys2Proof.Machine

theorem fwUp_of_hostUp {s : State} (h : hostUp s = true) : fwUp s = true := (Bool.and_eq_true_iff.mp h).1

/-- An access of a function reaches the register map. -/
theorem mayAccess {s : State} {f : Nat} (hf : f < 17) (hup : hostUp s = true) (hen : (fnOf s f).enabled = true) :
    (hostUp s && fnUp s f) = true := by simp [hup, fnUp, hf, hen]

/-- An aligned write of 8 bytes by a function that reaches the map. -/
theorem exec_registerWrite {s : State} {f off v : Nat} (hf : f < 18) (halign : off % 8 = 0) (hoff : off < bar0Size f) (hv : v < 2 ^ 64)
    (hfw : fwUp s = true) (hup : f = 17 ∨ (hostUp s && fnUp s f) = true) : exec (.registerWrite f off 8 v) s =
      .next (if f = 17 then lanternRegWrite s off v
        else if f = 0 then (if 0x1000 ≤ off ∧ off < 0x1040 then hostRegWrite s 0 (off - 0x1000) v else pfRegWrite s off v true true)
        else if off < 0x40 then hostRegWrite s f off v else s) := by
  have hbad : ¬ (decide (18 ≤ f) || !accessOk off 8 || decide (2 ^ (8 * 8) ≤ v) || decide (bar0Size f ≤ off)) = true := by
    simpa [accessOk, halign, hf, hoff] using hv
  have hup : (fwUp s && (decide (f = 17) || (hostUp s && fnUp s f))) = true := by
    rw [hfw, Bool.true_and, Bool.or_eq_true, decide_eq_true_eq]
    exact hup
  have hexec : exec (.registerWrite f off 8 v) s = .next (regWrite s f off 8 v) := (if_neg hbad).trans (guardNext_of hup)
  have haligned : off / 8 * 8 = off := by omega
  rw [hexec, regWrite, haligned]
  simp

/-- The lantern writes a register. -/
theorem exec_registerWrite_lantern {s : State} {off v : Nat} (halign : off % 8 = 0) (hoff : off < 0x2000000) (hv : v < 2 ^ 64)
    (hfw : fwUp s = true) : exec (.registerWrite 17 off 8 v) s = .next (lanternRegWrite s off v) :=
  exec_registerWrite (by decide) halign hoff hv hfw (.inl rfl)

/-- The physical function writes a register of its host block. -/
theorem exec_registerWrite_host {s : State} {off v : Nat} (halign : off % 8 = 0) (hoff : off < 0x40) (hv : v < 2 ^ 64)
    (hup : hostUp s = true) (hen : (fnOf s 0).enabled = true) :
    exec (.registerWrite 0 (0x1000 + off) 8 v) s = .next (hostRegWrite s 0 off v) := by
  have hsize : 0x1000 + off < bar0Size 0 := Nat.lt_of_lt_of_le (Nat.add_lt_add_left hoff _) (by decide)
  rw [exec_registerWrite (by decide) (by omega) hsize hv (fwUp_of_hostUp hup) (.inr (mayAccess (by decide) hup hen)), if_neg (by decide),
    if_pos rfl, if_pos (by omega), Nat.add_sub_cancel_left]

/-- The physical function writes another register. -/
theorem exec_registerWrite_pf {s : State} {off v : Nat} (halign : off % 8 = 0) (hoff : off < 0x1000) (hv : v < 2 ^ 64) (hup : hostUp s = true)
    (hen : (fnOf s 0).enabled = true) : exec (.registerWrite 0 off 8 v) s = .next (pfRegWrite s off v true true) := by
  have hsize : off < bar0Size 0 := Nat.lt_of_lt_of_le hoff (by decide)
  rw [exec_registerWrite (by decide) halign hsize hv (fwUp_of_hostUp hup) (.inr (mayAccess (by decide) hup hen)), if_neg (by decide),
    if_pos rfl, if_neg (by omega)]

/-- Below SCRATCH the physical function's registers are read-only. -/
theorem pfRegWrite_readOnly {s : State} {off v : Nat} {lo hi : Bool} (h : off < 0x70) : pfRegWrite s off v lo hi = s := by
  have hmsix : ¬ (decide (0x10000 ≤ off) && decide (off < 0x14000)) = true := by simp; omega
  rw [pfRegWrite, if_neg (by omega), if_neg (by omega), if_neg (by omega), if_neg (by omega), if_neg hmsix]

/-- Settles O60. -/
theorem registerWritesComplete : Obligations.RegisterWritesComplete := by
  refine ⟨fun s f off size w hf hup hen hsize hok hoff => ?badAccess, fun s v hv hup hen => ?scratch,
    fun s v hv hfw => ⟨?quantum, ?mode, ?fence, fun hbit => ?limit⟩,
    fun s f off v hlo hhi hup hen hbeyond hoff halign hv => ?virtual, fun s off v hup hen hoff halign hv => ?readOnly,
    fun s v hup hen hdisabled hv => ?asq⟩
  case badAccess =>
    have hbad : ¬ (decide (17 ≤ f) || accessOk off size || decide (size = 0) || decide (bar0Size f ≤ off)) = true := by simp [hf, hok, hsize, hoff]
    exact (if_neg hbad).trans (guardNext_of (mayAccess hf hup hen))
  case scratch => exact exec_registerWrite_pf (by decide) (by decide) hv hup hen
  case quantum => exact exec_registerWrite_lantern (by decide) (by decide) hv hfw
  case mode => exact exec_registerWrite_lantern (by decide) (by decide) hv hfw
  case fence => exact exec_registerWrite_lantern (by decide) (by decide) hv hfw
  case limit =>
    have hpower : lanternRegWrite s 0x5000 v = powerRegWrite s 0 v := rfl
    rw [exec_registerWrite_lantern (by decide) (by decide) hv hfw, hpower, powerRegWrite, if_pos rfl]
    exact congrArg Host.Outcome.next (if_neg (by simp [hbit]))
  case virtual =>
    have hsize : off < bar0Size f := by rw [bar0Size, if_neg (by simp; omega)]; exact hoff
    rw [exec_registerWrite (by omega) halign hsize hv (fwUp_of_hostUp hup) (.inr (mayAccess hhi hup hen)), if_neg (by omega), if_neg (by omega),
      if_neg (by omega)]
  case readOnly => rw [exec_registerWrite_pf halign (by omega) hv hup hen, pfRegWrite_readOnly hoff]
  case asq =>
    have hexec := exec_registerWrite_host (off := 0) (by decide) (by decide) hv hup hen
    rw [hexec]
    exact congrArg Host.Outcome.next (if_neg (by simp [hdisabled]))

end Sys2Proof.Machine
end

section
/-! The management pair and the JTAG port (17 R393; 18 R395, R404; 19 R417; 21 R445, R449). -/
namespace Sys2Proof.Machine

/-- A reply that waits for an operation begun with it. -/
theorem flashReply_flashBegin (s : State) (w : FlashWork) (bs : List Nat) : ∃ till, flashReply (flashBegin s w) bs =
    { s with flashOps := s.flashOps ++ [{ till := till, work := w, ends := [.reply bs] }], boot := { s.boot with mgmt := [1] } } := by
  let till := max s.now (s.flashOps.foldl (fun m o => max m o.till) 0) + flashDur w
  have hbusy : ¬ (flashBegin s w).flashOps.isEmpty = true := by simp [flashBegin]
  have hlast : (mgmtReply (flashBegin s w) [1]).flashOps = s.flashOps ++ [{ till := till, work := w }] := rfl
  refine ⟨till, ?_⟩
  rw [flashReply, if_neg hbusy, flashThen, hlast, List.getLast?_concat, List.dropLast_concat]
  rfl

/-- Once it has ended the pair reads its reply. -/
theorem mgmt_flashTick_reply (s : State) (till : Nat) (w : FlashWork) (bs : List Nat) :
    (flashTick true { s with flashOps := [{ till := till, work := w, ends := [.reply bs] }], boot := { s.boot with mgmt := [1] } }).boot.mgmt = bs :=
  rfl

/-- A byte of a present flash. -/
theorem flashByte_of_present {s : State} {a : Nat} (h : s.evr.absent = false) : flashByte s a = ((cellAt s.flash a).getD 0xFF).toNat :=
  if_neg (by simp [h])

theorem flashByte_lt (s : State) (a : Nat) : flashByte s a < 256 := by
  unfold flashByte
  split
  · decide
  · exact BitVec.isLt _

/-- A byte of the part that was erased. -/
theorem flashByte_drop_in {s t : State} {a n x : Nat} (hflash : t.flash = Memory.drop s.flash a n) (hevr : t.evr = s.evr)
    (hpresent : s.evr.absent = false) (hlo : a ≤ x) (hhi : x < a + n) : flashByte t x = 255 := by
  rw [flashByte_of_present (by rw [hevr, hpresent]), hflash, cellAt_drop, if_neg (by omega)]
  rfl

/-- A byte outside of it. -/
theorem flashByte_drop_out {s t : State} {a n x : Nat} (hflash : t.flash = Memory.drop s.flash a n) (hevr : t.evr = s.evr)
    (hpresent : s.evr.absent = false) (hout : x < a ∨ a + n ≤ x) : flashByte t x = flashByte s x := by
  rw [flashByte_of_present (by rw [hevr, hpresent]), flashByte_of_present hpresent, hflash, cellAt_drop, if_pos hout]

/-- A byte that is put into the flash. -/
theorem flashByte_put_in {s t : State} {a k : Nat} {bs : List Nat} (hflash : t.flash = Memory.put (fun _ => some 255) s.flash a bs)
    (hevr : t.evr = s.evr) (hpresent : s.evr.absent = false) (hk : k < bs.length) (hbyte : bs.getD k 0 < 256) :
    flashByte t (a + k) = bs.getD k 0 := by
  have hread : Memory.read (fun _ => some 255) t.flash (a + k) = some (BitVec.ofNat 8 (bs.getD k 0)) := by rw [hflash, read_put_in hk]
  have hcell : (cellAt t.flash (a + k)).getD 0xFF = BitVec.ofNat 8 (bs.getD k 0) := by
    unfold Memory.read at hread
    cases h : cellAt t.flash (a + k) <;> simp_all
  rw [flashByte_of_present (by rw [hevr, hpresent]), hcell, BitVec.toNat_ofNat, Nat.mod_eq_of_lt hbyte]

/-- A byte outside of them. -/
theorem flashByte_put_out {s t : State} {a x : Nat} {bs : List Nat} (hflash : t.flash = Memory.put (fun _ => some 255) s.flash a bs)
    (hevr : t.evr = s.evr) (hpresent : s.evr.absent = false) (hout : x < a ∨ a + bs.length ≤ x) : flashByte t x = flashByte s x := by
  rw [flashByte_of_present (by rw [hevr, hpresent]), flashByte_of_present hpresent, hflash, cellAt_put_out hout]

/-- A flash command of the pair while firmware runs. -/
theorem flashCmd_runs {s : State} {ok : Bool} {c : FlashCmd} (hfw : fwUp s = true) (hok : ok = true) : flashCmd s ok c =
    if s.boot.perstN then flashDo s c else { s with boot := { s.boot with mgmtQ := s.boot.mgmtQ ++ [c], mgmt := [1] } } := by
  have hruns : ¬ (!fwRuns s || !ok) = true := by simp [fwRuns, hfw, hok]
  exact if_neg hruns

theorem exec_flashRead {s : State} {addr len : Nat} (haddr : addr < 2 ^ 32) (hup : mgmtUp s = true) (hfw : fwUp s = true) (hlo : 1 ≤ len)
    (hhi : len ≤ 256) (hrange : addr + len ≤ 0x1000000) : exec (.flashRead addr len) s = .next (if s.boot.perstN then
      flashReply s (0 :: (List.range len).map fun i => flashByte s (addr + i))
      else { s with boot := { s.boot with mgmtQ := s.boot.mgmtQ ++ [.read addr len], mgmt := [1] } }) := by
  have hbad : ¬ (decide (2 ^ 32 ≤ addr) || decide (2 ^ 16 ≤ len)) = true := by
    rw [Bool.or_eq_true, decide_eq_true_eq, decide_eq_true_eq]
    omega
  have hexec : exec (.flashRead addr len) s = .next (flashCmd s (decide (1 ≤ len) && decide (len ≤ 256) && slotRange addr len) (.read addr len)) :=
    (if_neg hbad).trans (guardNext_of hup)
  rw [hexec, flashCmd_runs hfw (by simp [hlo, hhi, slotRange, hrange])]
  rfl

theorem exec_flashErase {s : State} {addr : Nat} (hup : mgmtUp s = true) (hfw : fwUp s = true) (hperst : s.boot.perstN = true)
    (halign : addr % 65536 = 0) (hrange : addr + 65536 ≤ 0x1000000) : exec (.flashErase addr true) s = .next (flashErased s addr true) := by
  have hexec : exec (.flashErase addr true) s = .next (flashCmd s (decide (addr % 65536 = 0) && slotRange addr 65536) (.erase addr true)) :=
    (if_neg (by omega)).trans (guardNext_of hup)
  rw [hexec, flashCmd_runs hfw (by simp [halign, slotRange, hrange]), if_pos hperst]
  rfl

theorem exec_flashProgram {s : State} {addr : Nat} {bytes : List Byte} (hup : mgmtUp s = true) (hfw : fwUp s = true)
    (hperst : s.boot.perstN = true) (hne : bytes ≠ []) (hlen : bytes.length ≤ 256) (hrange : addr + bytes.length ≤ 0x1000000) :
    exec (.flashProgram addr bytes true) s = .next (flashProgrammed s addr (bytes.map BitVec.toNat) true) := by
  have hbad : ¬ (decide (2 ^ 32 ≤ addr) || decide (256 < bytes.length)) = true := by
    rw [Bool.or_eq_true, decide_eq_true_eq, decide_eq_true_eq]
    omega
  have hexec : exec (.flashProgram addr bytes true) s =
      .next (flashCmd s (!bytes.isEmpty && slotRange addr bytes.length) (.program addr (bytes.map BitVec.toNat) true)) :=
    (if_neg hbad).trans (guardNext_of hup)
  rw [hexec, flashCmd_runs hfw (by simp [hne, slotRange, hrange]), if_pos hperst]
  rfl

/-- A present flash whose sector is not worn takes the operation. -/
theorem flashFails_done {s : State} {addr op : Nat} (habsent : s.evr.absent = false) (hworn : tfind s.fuse.worn (addr / 65536) ≠ some op) :
    flashFails s addr op .done = false := by
  have hres : (FlashRes.done == if op = 0 then .erase else .program) = false := by split <;> rfl
  simp [flashFails, habsent, hworn, hres]

/-- Settles O59. -/
theorem managementCommandsComplete : Obligations.ManagementCommandsComplete := by
  refine ⟨fun s hup => ⟨guardNext_of hup, guardNext_of hup⟩, fun s addr len haddr hup hfw hperst hlo hhi hrange => ?read,
    fun s addr len haddr hup hfw hperst hlo hhi hrange => ?readLater, fun s addr hup hfw hperst halign hrange habsent hworn => ?erase,
    fun s addr bytes hup hfw hperst hne hlen hrange habsent hworn => ?program, fun s off bytes hoff hne hlen hup hstage => ?recovery,
    fun s ir dr hon => ?jtag⟩
  case read =>
    intro reply
    rw [exec_flashRead haddr hup hfw hlo hhi hrange, if_pos hperst]
    exact ⟨fun hidle => by rw [flashReply, if_pos (by simp [hidle])]; rfl, fun hbusy => by rw [flashReply, if_neg (by simp [hbusy])]; rfl⟩
  case readLater => rw [exec_flashRead haddr hup hfw hlo hhi hrange, if_neg (by simp [hperst])]
  case erase =>
    have hexec := exec_flashErase hup hfw hperst halign hrange
    have hgood : (true && !flashFails s addr 0 .done) = true := by rw [flashFails_done habsent hworn]; rfl
    rw [flashErased, if_pos hgood] at hexec
    obtain ⟨till, ht⟩ := flashReply_flashBegin { s with
      flash := Memory.drop s.flash addr 65536, flashCuts := s.flashCuts.filter fun c => c.1 < addr || addr + 65536 ≤ c.1 }
      (.slots addr 65536 false s.flash s.flashCuts) [0]
    rw [ht] at hexec
    refine ⟨_, hexec, fun hidle => ?_, fun a hlo hhi => flashByte_drop_in rfl rfl habsent hlo hhi,
      fun a hout => flashByte_drop_out rfl rfl habsent hout, rfl⟩
    rw [hidle]
    exact mgmt_flashTick_reply ..
  case program =>
    have hexec := exec_flashProgram hup hfw hperst hne hlen hrange
    have hgood : (true && !flashFails s addr 1 .done) = true := by rw [flashFails_done habsent hworn]; rfl
    rw [flashProgrammed, if_pos hgood] at hexec
    let bs := (bytes.map BitVec.toNat).mapIdx fun i b => flashByte s (addr + i) &&& b
    have hbs : bs.length = bytes.length := by simp [bs]
    have hget : ∀ k, k < bytes.length → bs.getD k 0 = flashByte s (addr + k) &&& (bytes.getD k 0).toNat := fun k hk => by
      simp [bs, List.getD_eq_getElem?_getD, List.getElem?_eq_getElem hk]
    obtain ⟨till, ht⟩ := flashReply_flashBegin { s with flash := Memory.put (fun _ => some 255) s.flash addr bs }
      (.slots addr (bytes.map BitVec.toNat).length true s.flash s.flashCuts) [0]
    rw [ht] at hexec
    refine ⟨_, hexec, fun hidle => ?_, fun k hk => ?_, fun a hout => ?_, rfl⟩
    · rw [hidle]
      exact mgmt_flashTick_reply ..
    · rw [← hget k hk]
      exact flashByte_put_in rfl rfl habsent (hbs ▸ hk) (by rw [hget k hk]; exact Nat.lt_of_le_of_lt Nat.and_le_left (flashByte_lt ..))
    · exact flashByte_put_out rfl rfl habsent (hbs ▸ hout)
  case recovery =>
    have hbad : ¬ (decide (2 ^ 32 ≤ off) || decide (256 < bytes.length)) = true := by
      rw [Bool.or_eq_true, decide_eq_true_eq, decide_eq_true_eq]
      omega
    have hmode : (decide (s.boot.stage = .recovery) && !bytes.isEmpty) = true := by simp [hstage, hne]
    exact (if_neg hbad).trans ((guardNext_of hup).trans (congrArg Host.Outcome.next (if_pos hmode)))
  case jtag => exact guardNext_of hon

end Sys2Proof.Machine
end

section
/-! Ports and messages between members (14 R307 to R318, R330; 07 R181; 13 R299). -/
namespace Sys2Proof.Machine

theorem modPort_congr {s : State} {pi : Nat} {f g : Port → Port} (h : f (portOf s pi) = g (portOf s pi)) : modPort s pi f = modPort s pi g := by
  rw [modPort, modPort, h]

theorem modPort_modPort (s : State) (pi : Nat) (f g : Port → Port) : modPort (modPort s pi f) pi g = modPort s pi (fun p => g (f p)) := by
  rw [modPort, portOf_modPort_self]
  exact congrArg (fun t => { s with ports := t }) (tset_tset ..)

/-- Training with working lanes. -/
theorem portTrain_eq {s : State} {pi lanes : Nat} (hmedia : (portOf s pi).media ≠ 3) (hwidth : trainWidth (portOf s pi).noDegrade lanes ≠ 0) :
    portTrain s pi lanes = modPort s pi fun p => { newRound (portFresh p) with
      st := .link, width := trainWidth p.noDegrade lanes, ether := s.etherType, vlan := if s.vlanEn then some s.vlanId else none } := by
  refine modPort_congr ?_
  dsimp only
  rw [if_neg hmedia, if_neg hwidth]

/-- A port that is not in MISMATCH takes its place from a ROSTER. -/
theorem rosterIn_eq {s : State} {pi tower pos gen mib : Nat} {present : List (Nat × Nat)} (h : (portOf s pi).st ≠ .mismatch) :
    rosterIn s pi tower pos gen mib present = lostMembers (portsAgree (modPort s pi fun p =>
        { p with tower := tower, pos := pos, gen := gen, mib := mib, present := present, fa := tower * 64 + pos, st := .ready })) pi := by
  have hst : ∀ u : Port, u.st = (portOf s pi).st → ¬ (decide (u.st = .mismatch) && !rosterFits (modPort s pi fun p =>
      { p with tower := tower, pos := pos, gen := gen, mib := mib, present := present, fa := tower * 64 + pos }) u) = true :=
    fun u hu => by simp [hu, h]
  unfold rosterIn
  dsimp only
  rw [if_neg (hst _ (by rw [portOf_modPort_self])), modPort_modPort]

/-- Settles O50. -/
theorem portCommandsComplete : Obligations.PortCommandsComplete := by
  refine ⟨fun s pi lanes hpi hlanes htrain hmedia hwidth => ?train, fun s pi hpi hfw hup => ⟨?down, fun hdue howe hsent => ?ack,
    fun hun hat => ?replay, ?hello⟩, fun s f tower pos gen mib present h htower hpos hgen hpresent => ?roster,
    fun s f gen map h hgen hmap => ?towers⟩
  case train =>
    have hbad : ¬ (decide (4 ≤ pi) || decide (256 ≤ lanes)) = true := by simp; omega
    intro t
    have ht : t = portTrain s pi lanes := (portTrain_eq hmedia hwidth).symm
    rw [ht]
    exact ⟨(if_neg hbad).trans (guardNext_of htrain), (if_neg hbad).trans (guardNext_of htrain)⟩
  case down => exact (if_neg (by omega)).trans ((guardNext_of (by simp [hfw, hup])).trans (congrArg Host.Outcome.next (if_pos hup)))
  case ack =>
    have hexec : exec (.ackTimer pi) s = execAckTimer pi s := rfl
    rw [hexec, execAckTimer, guardNext_of (by simp [hpi, hfw, hup, hdue]), foldl_fixed_of fun _ _ => if_neg (by simp [hsent])]
  case replay => exact guardNext_of (by simp [hpi, hfw, hup, hun, hat])
  case hello => exact guardNext_of (by simp [hpi, hfw, hup])
  case roster =>
    have hgood : present.all (fun e => decide (e.1 < 64) && decide (e.2 < 2 ^ 64)) = true := by simpa using hpresent
    have hbad : ¬ (decide (128 ≤ tower) || decide (64 ≤ pos) || decide (2 ^ 32 ≤ gen)
        || !present.all fun e => decide (e.1 < 64) && decide (e.2 < 2 ^ 64)) = true := by
      rw [hgood]
      simp only [Bool.or_eq_true, decide_eq_true_eq, Bool.not_true, Bool.false_eq_true, or_false]
      omega
    have hexec : exec (.roster f tower pos gen mib present) s =
        .next (rosterIn (linked s f (rosterBytes present)) f.port tower pos gen mib present) := (if_neg hbad).trans (rx_accepted _ h)
    exact ⟨hexec, fun hst => by rw [hexec, rosterIn_eq hst]⟩
  case towers =>
    have hgood : map.all (fun t => decide (t < 128)) = true := by simpa using hmap
    have hbad : ¬ (decide (2 ^ 32 ≤ gen) || !map.all fun t => decide (t < 128)) = true := by
      rw [hgood]
      simp only [Bool.or_eq_true, decide_eq_true_eq, Bool.not_true, Bool.false_eq_true, or_false]
      omega
    exact (if_neg hbad).trans (rx_accepted _ h)

/-- Settles O51. -/
theorem memberMessagesComplete : Obligations.MemberMessagesComplete := by
  refine ⟨fun s f l j x h hj => ?message, fun s j x hj hfw hm => ⟨fun hwin => ?beatTimer, fun hmiss => ?beatTimeout⟩,
    fun s f g granted j x h hg hjob => ?verdict⟩
  case message =>
    have hmod : ∀ g : Job → Job, modJob (linked s f 0) j g = setJob (linked s f 0) j (g x) := fun g => modJob_of_job g hj
    intro t
    refine ⟨fun req hl => ?ready, fun req v hl hv => ?go, ?pause, ?resume, fun req st hst => ?reqEnd, fun cause hcause => ?jobFault, fun hl => ?beat⟩
    case ready => exact (rx_fromMember _ h).trans (congrArg Host.Outcome.next (if_pos hl))
    case go =>
      subst hl
      exact (if_neg (by omega)).trans ((rx_fromMember _ h).trans (congrArg Host.Outcome.next (hmod _)))
    case pause => exact (rx_fromMember _ h).trans (congrArg Host.Outcome.next (hmod _))
    case resume => exact (rx_fromMember _ h).trans (congrArg Host.Outcome.next (hmod _))
    case reqEnd => exact (if_neg (by omega)).trans (rx_fromMember _ h)
    case jobFault => exact (if_neg (by omega)).trans (rx_fromMember _ h)
    case beat => exact (rx_fromMember _ h).trans (congrArg Host.Outcome.next ((if_pos hl).trans (hmod _)))
  case beatTimer =>
    have hexec : exec (.beatTimer j) s = execBeatTimer j s := rfl
    rw [hexec, execBeatTimer, hj]
    exact guardNext_of (by simp [hfw, hm, hwin])
  case beatTimeout =>
    have hexec : exec (.beatTimeout j) s = execBeatTimeout j s := rfl
    rw [hexec, execBeatTimeout, hj]
    exact guardNext_of (by simp [hfw, hm, hmiss])
  case verdict =>
    refine (if_neg (by omega)).trans ((rx_accepted _ h).trans ?_)
    rw [hjob]

end Sys2Proof.Machine
end

section
/-! Arbiters (11 R264 to R272), and the refresh band of far memory. -/
namespace Sys2Proof.Machine

/-! Requesters that wait at a full queue. -/

/-- A request waits at its requester where its queue is full (R266). -/
theorem mem_held_arbPark {x : Arb} {r q : Nat} : q ∈ (arbPark x r).held ↔ q ∈ x.held ∨ q = r ∧ 8 ≤ tget 0 x.parked r := by
  unfold arbPark
  split
  case isTrue hroom => simp; omega
  case isFalse hfull =>
    rw [List.mem_append, List.mem_singleton, and_iff_left (by omega)]

/-- Those of a cycle wait whose queues do not take all their requests. -/
theorem mem_held_foldl_arbPark (x : Arb) (reqs : List Nat) (q : Nat) :
    q ∈ (reqs.foldl arbPark x).held ↔ q ∈ x.held ∨ q ∈ reqs ∧ 8 < tget 0 x.parked q + reqs.count q := by
  induction reqs generalizing x with
  | nil => simp
  | cons r reqs ih =>
    rw [List.foldl_cons, ih, mem_held_arbPark, tget_parked_arbPark, List.count_cons, List.mem_cons]
    obtain rfl | hrq := eq_or_ne r q
    · have hmem : r ∈ reqs ↔ 0 < reqs.count r := List.count_pos_iff.symm
      rw [hmem]
      simp only [if_true, beq_self_eq_true, true_and, true_or]
      by_cases hheld : r ∈ x.held
      · simp [hheld]
      · simp only [hheld, false_or]
        omega
    · have hqr : q ≠ r := hrq.symm
      simp [hrq, hqr]

/-! Waiting cycles. -/

/-- A waiting cycle of one requester. -/
def arbWait1 (waiting : Nat → Bool) (x : Arb) (r : Nat) : Arb :=
  if waiting r then
    let c := tget 0 x.wait r + 1
    let x := { x with wait := tset x.wait r c }
    if arbThr x < c then arbFlag x r else x
  else x

theorem arbWait_eq (x : Arb) (n : Nat) (waiting : Nat → Bool) : arbWait 1 x n waiting = (List.range n).foldl (arbWait1 waiting) x := by
  refine congrArg (fun f => (List.range n).foldl f x) (funext₂ fun y r => ?_)
  unfold arbWait1
  cases waiting r <;> rfl

theorem bitOf_or_two_pow (w r q : Nat) : bitOf (w ||| 2 ^ r) q = (bitOf w q || decide (r = q)) := by
  rw [bitOf_eq_testBit, bitOf_eq_testBit, Nat.testBit_or, Nat.testBit_two_pow]

theorem bitOf_arbFlag (x : Arb) (r q : Nat) : bitOf (arbFlag x r).flags q = (bitOf x.flags q || decide (r = q))
    ∧ bitOf (arbFlag x r).cur q = (bitOf x.cur q || decide (r = q)) := by
  unfold arbFlag
  dsimp only
  split <;> exact ⟨bitOf_or_two_pow .., bitOf_or_two_pow ..⟩

/-- What the waiting cycles of the requesters before `n` have done to requester `q` (R270). -/
structure WaitedTo (n : Nat) (waiting : Nat → Bool) (q : Nat) (x y : Arb) : Prop where
  thr : arbThr y = arbThr x
  wait : tget 0 y.wait q = tget 0 x.wait q + if q < n ∧ waiting q = true then 1 else 0
  flags : q < n → waiting q = true → arbThr x < tget 0 x.wait q + 1 → bitOf y.flags q = true ∧ bitOf y.cur q = true

theorem arbThr_arbFlag (x : Arb) (r : Nat) : arbThr (arbFlag x r) = arbThr x := by
  rw [arbFlag_frame]
  rfl

theorem wait_arbFlag (x : Arb) (r : Nat) : (arbFlag x r).wait = x.wait := by rw [arbFlag_frame]

/-- A requester that waits has its cycle counted; one past the threshold is flagged, and no bit is cleared. -/
theorem arbWait1_waits {waiting : Nat → Bool} {y : Arb} {r : Nat} (hwaits : waiting r = true) :
    arbThr (arbWait1 waiting y r) = arbThr y ∧ (arbWait1 waiting y r).wait = tset y.wait r (tget 0 y.wait r + 1)
      ∧ (arbThr y < tget 0 y.wait r + 1 → bitOf (arbWait1 waiting y r).flags r = true ∧ bitOf (arbWait1 waiting y r).cur r = true)
      ∧ ∀ q, bitOf y.flags q = true ∧ bitOf y.cur q = true →
        bitOf (arbWait1 waiting y r).flags q = true ∧ bitOf (arbWait1 waiting y r).cur q = true := by
  let z := { y with wait := tset y.wait r (tget 0 y.wait r + 1) }
  have hstep : arbWait1 waiting y r = if arbThr y < tget 0 y.wait r + 1 then arbFlag z r else z := if_pos hwaits
  rw [hstep]
  split
  case isTrue hpast =>
    refine ⟨arbThr_arbFlag z r, wait_arbFlag z r, fun _ => ?_, fun q ⟨hflags, hcur⟩ => ?_⟩
    · rw [(bitOf_arbFlag z r r).1, (bitOf_arbFlag z r r).2]
      simp
    · rw [(bitOf_arbFlag z r q).1, (bitOf_arbFlag z r q).2]
      exact ⟨by simp [z, hflags], by simp [z, hcur]⟩
  case isFalse hwithin => exact ⟨rfl, rfl, fun hpast => absurd hpast hwithin, fun _ hq => hq⟩

theorem waitedTo_arbWait1 {n q : Nat} {waiting : Nat → Bool} {x y : Arb} (h : WaitedTo n waiting q x y) :
    WaitedTo (n + 1) waiting q x (arbWait1 waiting y n) := by
  by_cases hwaits : waiting n = true
  case neg =>
    have hsame : arbWait1 waiting y n = y := if_neg hwaits
    rw [hsame]
    have hlt : waiting q = true → (q < n + 1 ↔ q < n) := fun hq => by
      have hne : q ≠ n := fun hqn => hwaits (hqn ▸ hq)
      omega
    refine ⟨h.thr, ?_, fun hq hw => h.flags ((hlt hw).mp hq) hw⟩
    rw [h.wait]
    exact congrArg _ (if_congr (and_congr_left hlt).symm rfl rfl)
  case pos =>
    obtain ⟨hthr, hwait, hpast, hkept⟩ := arbWait1_waits (y := y) hwaits
    refine ⟨hthr.trans h.thr, ?_, fun hq hw hover => ?_⟩
    · rw [hwait]
      obtain rfl | hne := eq_or_ne n q
      · rw [tget_tset_self, h.wait]
        simp [hwaits]
      · have hlt : q < n + 1 ↔ q < n := by omega
        rw [tget_tset_ne hne, h.wait]
        exact congrArg _ (if_congr (and_congr_left' hlt.symm) rfl rfl)
    · obtain rfl | hne := eq_or_ne n q
      · refine hpast ?_
        rw [h.thr, h.wait]
        simpa using hover
      · exact hkept q (h.flags (by omega) hw hover)

theorem waitedTo_arbWait (x : Arb) (n : Nat) (waiting : Nat → Bool) (q : Nat) : WaitedTo n waiting q x (arbWait 1 x n waiting) := by
  rw [arbWait_eq]
  induction n with
  | zero => exact ⟨rfl, by simp, fun h => absurd h (Nat.not_lt_zero _)⟩
  | succ n ih =>
    rw [List.range_succ, List.foldl_append]
    exact waitedTo_arbWait1 ih

/-! A withdrawal of the granted request. -/

/-- The arbiter in the dead cycle of a withdrawal, before its waits are counted. -/
def arbDropped (x : Arb) (r : Nat) (live : List Nat) : Arb :=
  let y := (arbLiveIn x live).foldl arbPark { x with held := [] }
  { y with owner := none, units := 0, mid := false, drop := false, ptr := r, dead := satAdd 16 y.dead 1 }

theorem arbDead_eq {n r o : Nat} {x : Arb} {live : List Nat} (howner : x.owner = some o) :
    arbDead n x r live = arbCount n (arbDropped x r live) := by
  rw [arbDead, arbTake_of_owner howner]
  rfl

/-- What the count of a cycle leaves and adds, beside the waits. -/
theorem arbCount_eq (n : Nat) (x : Arb) : ∃ wait flags cur signalled sigs, arbCount n x = { x with
    wait := wait, flags := flags, cur := cur, signalled := signalled, sigs := sigs
    pqFull := satAdd 16 x.pqFull x.held.length, cyc := x.cyc + 1, sub := x.sub + 1 } := by
  have hframe := arbWait_frame 1 { arbFullWait 1 x with cyc := x.cyc + 1, sub := x.sub + 1 } n (arbWaits x)
  rw [← arbCount, arbFullWait, Nat.one_mul] at hframe
  exact ⟨_, _, _, _, _, hframe⟩

/-- Parking leaves the waits and the settings. -/
theorem arbDropped_frame (x : Arb) (r : Nat) (live : List Nat) : arbDropped x r live = { x with
    parked := (arbDropped x r live).parked, held := (arbDropped x r live).held, owner := none, units := 0, mid := false, drop := false
    ptr := r, dead := satAdd 16 x.dead 1 } := by
  rw [arbDropped, foldl_arbPark_frame]

theorem arbDropped_fields (x : Arb) (r : Nat) (live : List Nat) : (arbDropped x r live).owner = none
    ∧ (arbDropped x r live).dead = satAdd 16 x.dead 1 ∧ (arbDropped x r live).cyc = x.cyc ∧ (arbDropped x r live).pqFull = x.pqFull
    ∧ (arbDropped x r live).wait = x.wait ∧ arbThr (arbDropped x r live) = arbThr x := by
  rw [arbDropped_frame]
  exact ⟨rfl, rfl, rfl, rfl, rfl, rfl⟩

theorem waitedTo_arbCount (n : Nat) (x : Arb) (q : Nat) : WaitedTo n (arbWaits x) q x (arbCount n x) := by
  obtain ⟨hthr, hwait, hflags⟩ := waitedTo_arbWait { arbFullWait 1 x with cyc := x.cyc + 1, sub := x.sub + 1 } n (arbWaits x) q
  exact ⟨hthr, hwait, hflags⟩

/-- A command to a present arbiter in its window. -/
theorem exec_arbWithdraw {s : State} {a : Nat} {q : ArbReq} (hpresent : arbPresent a = true) (hr : arbReqOf a q < arbReqs a)
    (hok : (arbLive a q).all (arbReqOk a) = true) (hdistinct : (arbLive a q).eraseDups = arbLive a q) (hclocks : clocksOn s = true)
    (hwindow : (arbOf s a).cyc < 2 ^ (arbOf s a).winLog) (hholds : arbHolds a (arbReqs a) (arbOf s a) q = true) :
    exec (.arbWithdraw a q) s = .next { s with arbs := tset s.arbs a (arbDrop a (arbReqs a) (arbOf s a) q) } := by
  have hexec : exec (.arbWithdraw a q) s = execArbWithdraw a q s := rfl
  have hr : ¬ arbReqs a ≤ arbReqOf a q := by omega
  simp [hexec, execArbWithdraw, arbMod, hpresent, hok, hdistinct, hclocks, arbRoll_of_lt hwindow, hholds, hr]

/-- Settles O53. -/
theorem arbiterCommandsComplete : Obligations.ArbiterCommandsComplete := by
  refine ⟨fun s a r live hpresent hr hok hdistinct hclocks hwindow howner hmid => ?granted,
    fun s a r hpresent hr hclocks hwindow hparked => ?parked, fun s a hpresent hclocks hfull hnext => ?windowEnd,
    fun s a r rest hpresent hr hfw hsigs => ?flag, fun s mode hmode hfw => (if_neg (by omega)).trans (guardNext_of hfw)⟩
  case granted =>
    intro x l
    let y := arbDropped x (arbIdx a r) (live.map (arbIdx a))
    let z := arbCount (arbReqs a) y
    have hexec : exec (.arbWithdraw a (.granted r live)) s = .next { s with arbs := tset s.arbs a z } := by
      rw [exec_arbWithdraw (q := .granted r live) hpresent hr hok hdistinct hclocks hwindow (by simp [arbHolds, howner, hmid])]
      exact congrArg (fun u => Host.Outcome.next { s with arbs := tset s.arbs a u }) (arbDead_eq howner)
    have hz : arbOf { s with arbs := tset s.arbs a z } a = z := by simp [arbOf_put]
    have hparked : ∀ q, tget 0 z.parked q = max (tget 0 x.parked q) (min 8 (tget 0 x.parked q + l.count q)) := fun q => by
      rw [arbCount_parked]
      exact tget_parked_foldl_arbPark { x with held := [] } l q
    obtain ⟨wait, flags, cur, signalled, sigs, hcount⟩ := arbCount_eq (arbReqs a) y
    obtain ⟨hnone, hdead, hcyc, hfull, hywait, hythr⟩ := arbDropped_fields x (arbIdx a r) (live.map (arbIdx a))
    have hheld : z.held = (l.foldl arbPark { x with held := [] }).held := by
      show (arbCount (arbReqs a) y).held = _
      rw [hcount]
      rfl
    refine ⟨_, hexec, rfl, fun b hb => by simp [arbOf_put, Ne.symm hb], ?_⟩
    rw [hz]
    refine ⟨arbCount_owner .., arbCount_ptr .., ?dead, ?cyc, hparked, fun q => ?held, ?full, fun q hq => ?waits⟩
    case dead =>
      show (arbCount (arbReqs a) y).dead = _
      rw [hcount]
      exact hdead
    case cyc =>
      show (arbCount (arbReqs a) y).cyc = _
      rw [hcount]
      exact congrArg (· + 1) hcyc
    case held =>
      rw [hheld, mem_held_foldl_arbPark]
      simp
    case full =>
      show (arbCount (arbReqs a) y).pqFull = satAdd 16 x.pqFull (arbCount (arbReqs a) y).held.length
      rw [hcount]
      exact congrArg (satAdd 16 · y.held.length) hfull
    case waits =>
      obtain ⟨hthr, hwait, hflags⟩ := waitedTo_arbCount (arbReqs a) y q
      have hwaits : arbWaits y q = true ↔ 0 < tget 0 z.parked q := by
        rw [arbCount_parked]
        have hnone : y.owner = none := hnone
        simp [arbWaits, hnone]
      have hywait : y.wait = x.wait := hywait
      have hythr : arbThr y = arbThr x := hythr
      rw [hywait] at hwait hflags
      rw [hythr] at hflags
      refine ⟨?_, fun hpresented hover => hflags hq (hwaits.mpr hpresented) hover⟩
      rw [hwait]
      exact congrArg _ (if_congr (by rw [hwaits, and_iff_right hq]) rfl rfl)
  case parked =>
    exact exec_arbWithdraw (q := .parked r) hpresent hr rfl rfl hclocks hwindow (by simpa [arbHolds] using hparked)
  case windowEnd =>
    have hwin : arbWindow (arbOf s a) = { arbOf s a with wait := [], cur := 0, signalled := false, cyc := 0 } := by rw [arbWindow, hnext]
    have hexec : exec (.arbWindowEnd a) s = .next { s with arbs := tset s.arbs a (arbWindow (arbOf s a)) } :=
      (if_neg (by simp [hpresent])).trans (guardNext_of (by simp [hclocks, hfull]))
    intro x'
    rw [hexec, hwin]
  case flag =>
    have hbad : ¬ (!arbPresent a || decide (arbReqs a ≤ r)) = true := by simp [hpresent, hr]
    have hexec : exec (.arbStarveFlag a r) s = .next (arbSignal s a) := (if_neg hbad).trans (guardNext_of (by simp [hfw, hsigs]))
    have hdrop : (arbOf s a).sigs.drop 1 = rest := by rw [hsigs]; rfl
    intro x
    rw [hexec, arbSignal, hdrop]
    exact ⟨fun hrec => congrArg Host.Outcome.next (if_pos hrec), fun hrec => congrArg Host.Outcome.next (if_neg hrec)⟩

/-! The refresh indication of far memory (10 R242). -/

/-- Firmware has stopped for a device fault, after it trained the far memory. -/
def faultedState : State :=
  { State.reset with boot := { State.reset.boot with stage := .fault, admitReady := true }, fchans := [(0, { st := 2 })] }

/-- Refutes O52: the refresh indication of an operational package is refused once firmware has stopped, which the statement does not ask for. -/
theorem not_vaultFarAndWindowEventsComplete : ¬ Obligations.VaultFarAndWindowEventsComplete := by
  rintro ⟨-, -, hrefresh, -⟩
  obtain ⟨t, hexec, -⟩ := hrefresh faultedState 0 true (by decide) rfl (by decide)
  have hrefused : exec (.farRefreshRead 0 true) faultedState = .refused .notEnabled := rfl
  rw [hrefused] at hexec
  cases hexec

end Sys2Proof.Machine
end

section
/-! Functions and the mailbox (16 R357 to R377; 17 R384 to R389), switches and watchdogs (13 R293 to R300). -/
namespace Sys2Proof.Machine

/-! Functions. -/

theorem fnReset_vf {f : Nat} (h : f ≠ 0) : fnReset f = { openv := List.range 64 } := if_neg h

/-- Settles O43. -/
theorem functionCommandsComplete : Obligations.FunctionCommandsComplete := by
  refine ⟨fun s f hf hup hen => ?level, fun s hup => guardNext_of hup, fun s f hf hup hen => ?sleep, fun s n hlo hhi hup hvfs => ?enable,
    fun s off bytes j va g pa j2 va2 g2 pa2 hne hlen hsize hup hfirst hlast hheld hfenced => ?bar4⟩
  case level => exact (if_neg (by omega)).trans (guardNext_of (mayAccess hf hup hen))
  case sleep => exact (if_neg (by omega)).trans (guardNext_of (mayAccess hf hup hen))
  case enable =>
    have hbad : ¬ (decide (n = 0) || decide (16 < n)) = true := by simp; omega
    refine (if_neg hbad).trans ((guardNext_of (by simp [hup, hvfs])).trans ?_)
    exact congrArg (fun g => Host.Outcome.next ((List.range n).foldl g s)) (funext₂ fun s i => by rw [fnReset_vf (Nat.succ_ne_zero i)])
  case bar4 =>
    have hbad : ¬ (decide (bytes.length = 0) || decide (4096 < bytes.length) || decide (bar4Size s < off + bytes.length)) = true := by
      simp [hne]; omega
    have hmeets : ¬ (hostUp s && (bar4Held s off bytes.length || !([] : List AccEv).all (bar4Meets s true off bytes.length))) = true := by
      simp [hheld]
    have hexec : ∀ write, exec (.bar4Access write off ⟨bytes, []⟩) s = .next (bar4Do s write off (bytes.map BitVec.toNat) []) := fun write =>
      (if_neg hbad).trans ((if_neg hmeets).trans (guardNext_of hup))
    have hn : (bytes.map BitVec.toNat).length = bytes.length := List.length_map ..
    refine ⟨fun hwp hwp2 => ?write, fun x hx => ?read⟩
    case write =>
      rw [hexec, bar4Do, hn, hfirst, hlast]
      simp [hwp, hwp2, dmaEvs, hfenced]
    case read =>
      rw [hexec, bar4Do, hn, hfirst, hlast]
      simp [dmaEvs, hfenced, hx, bar4Answer]

/-! The mailbox. -/

/-- Settles O45. -/
theorem mailboxCommandsComplete : Obligations.MailboxCommandsComplete := by
  intro s f hf hup hen obj o
  have hready : doeReady s f = true := mayAccess hf hup hen
  refine ⟨fun hproto hlen => ?discovery, ?abort, fun hknown => ?unknown, fun hatt hlen => ?certs, fun hatt hjob hlen => ?report,
    fun j x hatt hjob hx hkt hlen => ?key⟩
  case discovery =>
    have hbad : ¬ (decide (17 ≤ f) || doeProto o != (1, 0) || o.length != 12) = true := by simp [hproto, hf, o, hlen]
    exact (if_neg hbad).trans (guardNext_of hready)
  case abort => exact (if_neg (by omega)).trans (guardNext_of hready)
  case unknown =>
    have hbad : ¬ (decide (17 ≤ f) || doeKnown o) = true := by simp [hknown, hf]
    exact (if_neg hbad).trans (guardNext_of hready)
  case certs =>
    have hbad : ¬ (decide (17 ≤ f) || !isAtt o 1) = true := by simp [hatt, hf]
    have hexec : exec (.getCerts f obj) s = .next (getCerts s f o) := (if_neg hbad).trans (guardNext_of hready)
    have hpayload : ¬ ((attMsg o).2.2.2.length != 0) = true := by simp [attMsg, hlen]
    rw [hexec]
    exact congrArg Host.Outcome.next (if_neg hpayload)
  case report =>
    have hbad : ¬ (decide (17 ≤ f) || !isAtt o 2) = true := by simp [hatt, hf]
    have hexec : exec (.getReport f obj) s = .next (getReport s f o) := (if_neg hbad).trans (guardNext_of hready)
    have hnone : attJob s f (attMsg o).2.1 = none := by
      have hzero : (attMsg o).2.1 = 0 := hjob
      rw [hzero]
      rfl
    have hdevice : ¬ ((attMsg o).2.1 != 0 && (attJob s f (attMsg o).2.1).isNone) = true := by simp [attMsg, hjob]
    have hpayload : ¬ ((attMsg o).2.2.2.length != 32) = true := by simp [attMsg, hlen]
    have hreport : getReport s f o = attAnswer s f o 0 (report s (attMsg o).2.2.2 (attJob s f (attMsg o).2.1)) :=
      (if_neg hdevice).trans (if_neg hpayload)
    rw [hexec, hreport, hnone]
    rfl
  case key =>
    have hbad : ¬ (decide (17 ≤ f) || !isAtt o 3) = true := by simp [hatt, hf]
    have hexec : exec (.keyDeliver f obj) s = .next (keyDeliver s f o) := (if_neg hbad).trans (guardNext_of hready)
    have hjob : attJob s f (attMsg o).2.1 = some j := hjob
    have hpayload : ¬ ((attMsg o).2.2.2.length != 1568) = true := by simp [attMsg, hlen]
    intro kt
    rw [hexec, keyDeliver]
    dsimp only
    rw [hjob]
    dsimp only
    rw [hx]
    dsimp only
    rw [if_neg (by simp [hkt]), if_neg hpayload]
    rfl

/-! Scheduling. -/

/-- A job whose models are loaded has none that is gone. -/
theorem modelGone_of_modelsIn {s : State} {x : Job} (h : modelsIn s x = true) : modelGone s x = false := by
  rw [modelGone, List.any_eq_false]
  intro m hm hnone
  have hin := List.all_eq_true.mp h m hm
  rw [Option.isNone_iff_eq_none.mp hnone] at hin
  cases hin

/-- A due switch of a job that needs no reload. -/
theorem switchGo_loaded {s : State} {gi j : Nat} {g : CoGrp} {x : Job} (h : x.saved = false ∨ modelsIn s x = true) : switchGo s gi g j x =
    if g.holder = some j then (if x.saved then switchIn s gi j x else switchBack s j x)
    else match holderOf s g with
      | some (h, y) => if allQuiet s h y then switchDone s gi j (some (h, y)) x else saveAll s h y
      | none => switchDone s gi j none x := by
  have hgone : ¬ (x.saved && modelGone s x) = true := by
    rcases h with h | h
    · simp [h]
    · simp [modelGone_of_modelsIn h]
  have hout : ¬ (x.saved && !modelsIn s x) = true := by
    rcases h with h | h <;> simp [h]
  exact (if_neg hgone).trans (if_neg hout)

/-- Settles O46. -/
theorem schedulingEventsComplete : Obligations.SchedulingEventsComplete := by
  refine ⟨fun s gi g j x hg hx hfw hmargin hdue hsaves hloaded => ?switch,
    fun s gi g h y hg hfw hholder hy hlc hrun hsaved hquantum => ?quantum,
    fun s j l x hx hfw => ⟨fun g hlate => ?recv, fun hnone hlate => ?fence⟩, fun s j x q hx hfw hm hq hgo hlate => ?wait⟩
  case switch =>
    have hlet : restoreLet s x = true := by
      rcases hloaded with h | h <;> simp [restoreLet, h]
    have hexec : exec (.switch gi j) s = .next (switchGo s gi g j x) := by
      have harm : exec (.switch gi j) s = execSwitch gi j s := rfl
      rw [harm, execSwitch, hg, hx]
      exact guardNext_of (by simp [hfw, hmargin, hdue, hsaves, hlet])
    rw [hexec, switchGo_loaded hloaded]
    refine ⟨fun hnone => ?_, fun h y hholder hne hy => ?_, fun hholder hsaved => ?_, fun hholder hsaved => ?_⟩
    · have hholderOf : holderOf s g = none := by rw [holderOf, hnone]; rfl
      rw [if_neg (by simp [hnone]), hholderOf]
    · have hholderOf : holderOf s g = some (h, y) := by simp [holderOf, hholder, hy]
      rw [if_neg (by simp [hholder, hne]), hholderOf]
    · rw [if_pos hholder, if_pos hsaved]
    · rw [if_pos hholder, if_neg (by simp [hsaved])]
  case quantum =>
    have harm : exec (.quantumExpiry gi) s = execQuantumExpiry gi s := rfl
    rw [harm, execQuantumExpiry, hg]
    exact guardNext_of (by simp [hfw, hholder, hy, hlc, hrun, hsaved, hquantum])
  case recv =>
    have harm : exec (.collWatchdog j l) s = execCollWatchdog j l s := rfl
    rw [harm, execCollWatchdog, hx]
    dsimp only
    rw [hlate]
    exact guardNext_of hfw
  case fence =>
    have harm : exec (.collWatchdog j l) s = execCollWatchdog j l s := rfl
    rw [harm, execCollWatchdog, hx]
    dsimp only
    rw [hnone]
    exact guardNext_of (by simp [hfw, hlate])
  case wait =>
    have harm : exec (.goWaitTimeout j) s = execGoWaitTimeout j s := rfl
    have hany : (x.queue.any fun q => (tfind x.goGot q.num).isNone && decide (q.at_ + x.collWdog * 16000000 < cycNow s)) = true :=
      List.any_eq_true.mpr ⟨q, hq, by simp [hgo, hlate]⟩
    rw [harm, execGoWaitTimeout, hx]
    exact guardNext_of (by rw [hfw, decide_eq_true hm, hany]; rfl)

end Sys2Proof.Machine
end

section
/-! Codec commands and engine events (15 R341 to R350). -/
namespace Sys2Proof.Machine

/-- The record that was read with an entry. -/
theorem fetchedRec_eq {s : State} {f q : Nat} {e : Entry} {x : Fetched} (h : fetchedOf s f q e = some x) : fetchedRec s f q e = x.recd := by
  rw [fetchedRec, h]
  rfl

/-- The body of a command that names an own stream by its handle and its job. -/
theorem withStream_own {s : State} {r : CmdRef} {h hdr gone c : Nat} {t : Stream} (body : Nat → Stream → State) (hc : streamOf s h = some c)
    (ht : tfind s.video.streams c = some t) (hfn : t.fn = r.fn) (hdr' : hdr = jobHandle s t.job) : withStream s r h hdr gone body = body c t := by
  simp [withStream, hc, ht, hfn, hdr']

/-- An I/O queue pair carries the codec's commands. -/
theorem codecQueue {f q : Nat} (hq : q ≠ 0) : QueueFits 1 false f q := ⟨by simp, by simp [hq], by simp⟩

/-- The state of a stream as its record opens it (log 9). -/
def openedStream (f j : Nat) (recd : List Nat) : Stream :=
  { fn := f, job := j, recd := recd, bd := nth recd 4
    full := if nth recd 0x1B = 1 then Config.videoFull recd % (bufferBits recd + 1) else 0
    coding := if nth recd 0 = 1 then [] else Config.videoInit recd }

/-- CODEC_OPEN of a supported record takes the lowest free stream. -/
theorem codecOpenBody_opens {s : State} {r : CmdRef} {w j c : Nat} {recd l : List Nat} {y : Job} (hhead : fld w 63 48 = recFld recd 0xC 4)
    (hslot : slotOf s (recFld recd 0xC 4) = some j) (hy : jobOf s j = some y) (hfn : y.fn = r.fn) (hfields : streamFields recd = true)
    (hpool : poolIn y recd = true) (hsupported : streamSupported recd = true) (hfree : freeKeys s.video.streams 256 = c :: l) :
    codecOpenBody recd s r w = complete { s with video := { s.video with
      streams := tset s.video.streams c (openedStream r.fn j recd)
      engines := s.video.engines.map fun e => if e.2.last = some c then (e.1, { e.2 with last := none }) else e } } r 0 0 (c + 1) := by
  unfold codecOpenBody
  dsimp only
  rw [if_neg (by simp [hhead]), withJob_own _ hslot hy hfn, if_neg (by simp [hfields, hpool]), if_neg (by simp [hsupported]), hfree]
  rfl

/-- Settles O47. -/
theorem codecComplete : Obligations.CodecComplete := by
  refine ⟨fun s f q e x j y c l h hq => ?opens, fun s f q e x c t hq ht hfn hjob => ⟨fun h hc => ?close, fun h hc hbuf => ?release,
    fun h hc hok => ?frame⟩, fun s n f t hn hchoose ht hready hlower => ?start, fun s n f hn hrun hfw hlock hloaded hheld => ?ends,
    fun s n f hn hrun hfw hsince => ?hang⟩
  case opens =>
    intro recd hhead hslot hy hfn hfields hpool hsupported hfree st es
    have hexec := hostExec_takes (queue := 1) (pfOnly := false) (resv := noResv) (codecOpenBody recd) h (codecQueue hq) rfl
    have harm : exec (.codecOpen f q e) s = hostExec 0x48 s f q e true 1 false noResv (codecOpenBody recd) :=
      congrArg (fun u => hostExec 0x48 s f q e true 1 false noResv (codecOpenBody u)) (fetchedRec_eq h.front)
    have hbody := codecOpenBody_opens (s := taken s x) (r := cmdOf f q x e) hhead hslot hy hfn hfields hpool hsupported hfree
    exact harm.trans (hexec.trans (congrArg Host.Outcome.next hbody))
  case close =>
    have hexec := hostExec_takes (queue := 1) (pfOnly := false) (resv := noResv) codecCloseBody h (codecQueue hq) rfl
    have hbody : codecCloseBody (taken s x) (cmdOf f q x e) e.toNat = _ := withStream_own _ hc ht hfn hjob
    exact hexec.trans (congrArg Host.Outcome.next hbody)
  case release =>
    have hexec := hostExec_takes (queue := 1) (pfOnly := false) (resv := noResv) codecReleaseBody h (codecQueue hq) rfl
    have hbody : codecReleaseBody (taken s x) (cmdOf f q x e) e.toNat = _ := withStream_own _ hc ht hfn hjob
    exact hexec.trans (congrArg Host.Outcome.next (hbody.trans (if_neg (by omega))))
  case frame =>
    have hexec := hostExec_takes (queue := 1) (pfOnly := false) (resv := noResv) (codecFrameBody x.recd) h (codecQueue hq) rfl
    have harm : exec (.codecFrame f q e) s = hostExec 0x4A s f q e true 1 false noResv (codecFrameBody x.recd) :=
      congrArg (fun u => hostExec 0x4A s f q e true 1 false noResv (codecFrameBody u)) (fetchedRec_eq h.front)
    have hbody : codecFrameBody x.recd (taken s x) (cmdOf f q x e) e.toNat = _ := withStream_own _ hc ht hfn hjob
    exact harm.trans (hexec.trans (congrArg Host.Outcome.next (hbody.trans (if_neg (by simp [hok])))))
  case start =>
    have hexec : exec (.frameStart n) s = .next (frTake s n f t) := by
      have harm : exec (.frameStart n) s = execFrameStart n s := rfl
      rw [harm, execFrameStart, if_neg (by omega), hchoose]
      dsimp only
      rw [ht]
      exact guardNext_of (by simpa [hready] using hlower)
    refine ⟨hexec, fun hwait => ?_⟩
    have hbad : ¬ (jobOf s t.job).any (waitBad s f) = true := by
      cases hx : jobOf s t.job with
      | none => simp
      | some x => simp [hwait x hx]
    rw [hexec, frTake, if_neg hbad]
  case ends =>
    have harm : exec (.frameEnd ⟨n, []⟩) s = execFrameEnd ⟨n, []⟩ s := rfl
    rw [harm, execFrameEnd, if_neg (by simpa using hn)]
    dsimp only
    rw [hrun]
    dsimp only
    rw [if_neg (by simp), guardNext_of (by simp [hfw, hlock, hloaded, hheld])]
    rfl
  case hang =>
    have harm : exec (.codecEngineHang n) s = execCodecEngineHang n s := rfl
    rw [harm, execCodecEngineHang, if_neg (by omega), hrun]
    exact guardNext_of (by simp [hfw, hsince])

end Sys2Proof.Machine
end

section
/-! Frames of data (14 R308, R309, R323 to R331). -/
namespace Sys2Proof.Machine

/-! What a write of the lantern or a spire changes. -/

/-- `t` is `s` but for memory, host memory, the queues of the vaults' channels, the jobs and the spires. -/
def SameButMemory (s t : State) : Prop := ∃ mem far hmem vchans jobs spires,
  t = { s with mem := mem, far := far, hmem := hmem, vchans := vchans, jobs := jobs, spires := spires }

theorem SameButMemory.refl (s : State) : SameButMemory s s := ⟨_, _, _, _, _, _, rfl⟩

theorem SameButMemory.trans {s t u : State} : SameButMemory s t → SameButMemory t u → SameButMemory s u := by
  rintro ⟨_, _, _, _, _, _, rfl⟩ ⟨_, _, _, _, _, _, rfl⟩
  exact ⟨_, _, _, _, _, _, rfl⟩

theorem sameButMemory_modJob (s : State) (j : Nat) (f : Job → Job) : SameButMemory s (modJob s j f) := by
  unfold modJob
  split
  · exact ⟨_, _, _, _, _, _, rfl⟩
  · exact .refl s

theorem sameButMemory_gcmWrite (s : State) (j base len off : Nat) (bs : List Nat) : SameButMemory s ((gcmWrite s j base len off bs).getD s) := by
  unfold gcmWrite
  split
  · exact .refl s
  case h_2 x hx =>
    dsimp only
    generalize (if bs.length = 4096 then some bs else _) = u
    cases u with
    | none => exact .refl s
    | some p => exact .trans ⟨_, _, _, _, _, _, rfl⟩ (sameButMemory_modJob ..)

theorem sameButMemory_paPut (s : State) (pa : Nat) (bs : List Nat) : SameButMemory s (paPut s pa bs) := by
  unfold paPut
  split
  · obtain ⟨vchans, h⟩ := queueLines_frame (s := { s with mem := s.mem.put pa bs }) (pa := pa) bs.length
    rw [h]
    exact ⟨_, _, _, _, _, _, rfl⟩
  · exact ⟨_, _, _, _, _, _, rfl⟩
  · exact ⟨_, _, _, _, _, _, rfl⟩
  · split
    · dsimp only
      split
      · exact sameButMemory_gcmWrite ..
      · exact ⟨_, _, _, _, _, _, rfl⟩
    · exact .refl s
  · exact .refl s

theorem sameButMemory_vaPutReq (s : State) (j va : Nat) (bs : List Nat) : SameButMemory s (vaPutReq s j va bs) := by
  refine foldl_keeps (P := SameButMemory s) (fun t l _ ht => ?_) (.refl s)
  split
  · split
    · exact (ht.trans (sameButMemory_paPut ..)).trans (sameButMemory_modJob ..)
    · exact ht
  · exact ht

/-- What lands in a slot changes no landing. -/
theorem sameButMemory_landBytes (s : State) (j : Nat) (x : Job) (g : Grp) (slot off : Nat) (bs : List Nat) :
    SameButMemory s (landBytes s j x g slot off bs) := by
  unfold landBytes raPut
  dsimp only
  split
  · exact ⟨_, _, _, _, _, _, rfl⟩
  · exact sameButMemory_vaPutReq ..

@[simp] theorem landings_landBytes (s : State) (j : Nat) (x : Job) (g : Grp) (slot off : Nat) (bs : List Nat) :
    (landBytes s j x g slot off bs).landings = s.landings := by
  obtain ⟨_, _, _, _, _, _, h⟩ := sameButMemory_landBytes s j x g slot off bs
  rw [h]

/-! Landing. -/

/-- The landings of other pieces. -/
def otherLandings (s : State) (j group slot : Nat) : List Landing :=
  s.landings.filter fun l => !(l.job = j && l.group = group && l.slot = slot)

theorem agentEv_nil (s : State) (j : Nat) (go drop : State → State) : agentEv s j [] go drop = go s := rfl

/-- A frame that lands writes its bytes; the last one lands the piece, another leaves it landing. -/
theorem landFrame_lands {s t : State} {f : Frame} {j : Nat} {x : Job} {g : Grp} {src : Nat} {bs : List Nat} (done : State → State)
    (h : Lands s t f j x g src bs.length) : landFrame t f j x g src bs [] done =
      let u := landBytes t j x g f.slot f.offset bs
      if f.last then done (landEnd { u with landings := otherLandings t j f.group f.slot } j g f.slot f.plen)
      else { u with landings := otherLandings t j f.group f.slot ++
        [{ job := j, group := f.group, slot := f.slot, src := src, next := f.offset + bs.length, plen := f.plen }] } := by
  have hhere : ∀ l, (t.landings.find? fun l => l.job = j && l.group = f.group && l.slot = f.slot) = some l → f.first = false ∧ l.src = src := by
    intro l hl
    have hkey := List.find?_some hl
    simp only [Bool.and_eq_true, decide_eq_true_eq] at hkey
    exact h.here l (List.mem_of_find?_eq_some hl) hkey.1.1 hkey.1.2 hkey.2
  have hfits : ¬ (!slotArmed t x g f.slot || ((t.landings.find? fun l => l.job = j && l.group = f.group && l.slot = f.slot).isSome
      && (f.first || (t.landings.find? fun l => l.job = j && l.group = f.group && l.slot = f.slot).any fun l => l.src != src))) = true := by
    cases hfind : t.landings.find? fun l => l.job = j && l.group = f.group && l.slot = f.slot with
    | none => simp [h.armed]
    | some l => simp [h.armed, hhere l hfind]
  unfold landFrame
  dsimp only
  rw [h.control]
  dsimp only
  rw [if_neg hfits, landChk, h.access]
  dsimp only
  rw [agentEv_nil, landings_landBytes]
  rfl

/-- A frame with payload that no MARGIN holds and no event meets. -/
theorem rxLand_accepted {s : State} {f : Frame} {type : Nat} {bytes : List Byte} (body : State → List Nat → State)
    (h : Accepted s f type bytes.length) (hheld : landHeld s f bytes.length = false) :
    rxLand s f type ⟨bytes, []⟩ body = .next (body (linked s f bytes.length) (bytes.map (·.toNat))) := by
  have hmargin : ¬ landHeld s f bytes.length = true := by simp [hheld]
  unfold rxLand
  dsimp only
  rw [if_neg (by simp), if_neg hmargin]
  exact rx_accepted _ h

/-- Settles O48. -/
theorem linkAndDataFramesComplete : Obligations.LinkAndDataFramesComplete := by
  refine ⟨fun s f h => rx_accepted _ h, fun s f bytes j x src g h => ?data, fun s f bytes j x g h => ?result, fun s f l seq j x h hj => ?landed⟩
  case data =>
    intro t hjob hsrc hslot hlands u rest
    have hn : (bytes.map (·.toNat)).length = bytes.length := List.length_map ..
    have hlands : Lands s t f j x g src (bytes.map (·.toNat)).length := by rw [hn]; exact hlands
    have hexec : exec (.data f ⟨bytes, []⟩) s = .next (landFrame t f j x g src (bytes.map (·.toNat)) [] (landedSend j src f.group f.slot)) := by
      refine (rxLand_accepted (fun s bs => dataIn s f bs []) h (hn ▸ hlands.margin)).trans ?_
      unfold dataIn
      rw [hjob]
      dsimp only
      rw [hsrc, hslot]
    rw [hexec, landFrame_lands _ hlands, hn]
    exact ⟨fun hlast => congrArg Host.Outcome.next (if_pos hlast), fun hlast => congrArg Host.Outcome.next (if_neg (by simp [hlast]))⟩
  case result =>
    intro t hjob hslot hparts c hlands u rest
    have hn : (bytes.map (·.toNat)).length = bytes.length := List.length_map ..
    have hlands : Lands s c f j x g x.m (bytes.map (·.toNat)).length := by rw [hn]; exact hlands
    have hsame : ¬ ((tfind x.redParts (f.group * 65536 + f.slot)).any fun r => r.2 != f.plen) = true := by
      cases hr : tfind x.redParts (f.group * 65536 + f.slot) with
      | none => simp
      | some r => simp [hparts r hr]
    have hexec : exec (.redResult f ⟨bytes, []⟩) s = .next (landFrame c f j x g x.m (bytes.map (·.toNat)) [] id) := by
      refine (rxLand_accepted (fun s bs => redIn s f bs []) h (hn ▸ hlands.margin)).trans ?_
      unfold redIn
      rw [hjob]
      dsimp only
      rw [hslot]
      dsimp only
      rw [if_neg hsame]
    rw [hexec, landFrame_lands _ hlands, hn]
    refine ⟨fun hlast => congrArg Host.Outcome.next (if_pos hlast), fun hlast => ⟨?_, congrArg Host.Outcome.next (if_neg (by simp [hlast]))⟩⟩
    show arrCount t j x g f = t
    unfold arrCount
    split
    · exact if_pos (by simp [hlast])
    · rfl
  case landed => exact (rx_fromMember _ h).trans (congrArg Host.Outcome.next (modJob_of_job _ hj))

end Sys2Proof.Machine
end

section
/-! A frame whose FCS fails (14 R308, R309). -/
namespace Sys2Proof.Machine

/-- `q` is the port `p` but for its sending queue and what sending changes. -/
def SendingOnly (p q : Port) : Prop := ∃ lsn txq unacked owe ackDue ackAt credits deficit turn wRound,
  q = { p with lsn := lsn, txq := txq, unacked := unacked, owe := owe, ackDue := ackDue, ackAt := ackAt, credits := credits
               deficit := deficit, turn := turn, wRound := wRound }

theorem SendingOnly.refl (p : Port) : SendingOnly p p := ⟨_, _, _, _, _, _, _, _, _, _, rfl⟩

theorem SendingOnly.trans {p q r : Port} : SendingOnly p q → SendingOnly q r → SendingOnly p r := by
  rintro ⟨_, _, _, _, _, _, _, _, _, _, rfl⟩ ⟨_, _, _, _, _, _, _, _, _, _, rfl⟩
  exact ⟨_, _, _, _, _, _, _, _, _, _, rfl⟩

/-- `t` is `s` once the port `pi` has sent frames. -/
structure Sends (pi : Nat) (s t : State) : Prop where
  ports : SameButPorts s t
  others : ∀ i, i ≠ pi → portOf t i = portOf s i
  port : SendingOnly (portOf s pi) (portOf t pi)
  out : ∃ l, t.fabOut = s.fabOut ++ l

theorem Sends.refl (pi : Nat) (s : State) : Sends pi s s := ⟨.refl s, fun _ _ => rfl, .refl _, [], (List.append_nil _).symm⟩

theorem Sends.trans {pi : Nat} {s t u : State} (h : Sends pi s t) (h' : Sends pi t u) : Sends pi s u where
  ports := h.ports.trans h'.ports
  others i hi := (h'.others i hi).trans (h.others i hi)
  port := h.port.trans h'.port
  out := by
    obtain ⟨l, hl⟩ := h.out
    obtain ⟨l', hl'⟩ := h'.out
    exact ⟨l ++ l', by rw [hl', hl, List.append_assoc]⟩

theorem sends_modPort {pi : Nat} {s : State} {f : Port → Port} (h : SendingOnly (portOf s pi) (f (portOf s pi))) : Sends pi s (modPort s pi f) where
  ports := sameButPorts_modPort ..
  others _ hi := portOf_modPort_ne hi.symm
  port := by rw [portOf_modPort_self]; exact h
  out := ⟨[], (List.append_nil _).symm⟩

theorem sends_portEmit (pi : Nat) (s : State) (f : OutFr) : Sends pi s (portEmit s pi f) where
  ports := sameButPorts_portEmit ..
  others _ hi := tget_tset_ne hi.symm
  port := ⟨_, _, _, _, _, _, _, _, _, _, tget_tset_self ..⟩
  out := ⟨_, rfl⟩

theorem sendingOnly_newRound (p : Port) : SendingOnly p (newRound p) := ⟨_, _, _, _, _, _, _, _, _, _, rfl⟩

theorem mem_of_vcHead {p : Port} {v : Nat} {f : OutFr} (h : vcHead p v = some f) : f ∈ p.txq := by
  unfold vcHead at h
  split at h
  case h_1 g hg =>
    split at h
    · cases h
      exact List.mem_of_find?_eq_some hg
    · cases h
  case h_2 => cases h

/-- The choice of a frame changes the rounds alone, and what it chooses is a frame that waits. -/
structure Picked (p : Port) (r : Option OutFr × Port) : Prop where
  port : SendingOnly p r.2
  txq : r.2.txq = p.txq
  mem : ∀ f, r.1 = some f → f ∈ p.txq

theorem Picked.none {p q : Port} (h : SendingOnly p q) (htxq : q.txq = p.txq) : Picked p (none, q) := ⟨h, htxq, nofun⟩

theorem Picked.some {p q : Port} {f : OutFr} {v : Nat} (hf : vcHead p v = some f) (h : SendingOnly p q) (htxq : q.txq = p.txq) :
    Picked p (some f, q) := ⟨h, htxq, fun g hg => by cases hg; exact mem_of_vcHead hf⟩

theorem picked_portPick (p : Port) : Picked p (portPick p) := by
  unfold portPick
  split
  case h_1 f hf => exact .some hf (.refl p) rfl
  case h_2 =>
    dsimp only
    split
    case h_1 => exact .none (.refl p) rfl
    case h_2 v rest _ =>
      split
      case h_1 => exact .none (.refl p) rfl
      case h_2 f hf =>
        by_cases hdeficit : frWire f ≤ nth p.deficit v
        · rw [if_pos hdeficit]
          exact .some hf ⟨_, _, _, _, _, _, _, _, _, _, rfl⟩ rfl
        · rw [if_neg hdeficit]
          cases rest with
          | nil => exact .some hf ⟨_, _, _, _, _, _, _, _, _, _, rfl⟩ rfl
          | cons w rest =>
            by_cases hlow : w < v
            · dsimp only [List.isEmpty_cons]
              rw [if_pos hlow]
              exact .none ⟨_, _, _, _, _, _, _, _, _, _, rfl⟩ rfl
            · dsimp only [List.isEmpty_cons]
              rw [if_neg hlow]
              exact .none ⟨_, _, _, _, _, _, _, _, _, _, rfl⟩ rfl

theorem sends_portDrain (n : Nat) (s : State) (pi : Nat) : Sends pi s (portDrain n s pi) := by
  induction n generalizing s with
  | zero => exact .refl pi s
  | succ n ih =>
    have hpick : Sends pi s (modPort s pi fun _ => (portPick (portOf s pi)).2) := sends_modPort (picked_portPick _).port
    unfold portDrain
    dsimp only
    split
    · exact (hpick.trans (sends_portEmit ..)).trans (ih _)
    · split
      · exact hpick
      · exact hpick.trans (ih _)

theorem sends_portSend (s : State) (pi : Nat) (f : OutFr) : Sends pi s (portSend s pi f) := by
  unfold portSend
  split
  · refine (sends_modPort ?_).trans (sends_portDrain ..)
    dsimp only
    split <;> exact ⟨_, _, _, _, _, _, _, _, _, _, rfl⟩
  · exact .refl pi s

/-! The one frame that waits. -/

/-- A port with nothing in its queue sends nothing. -/
theorem fabOut_portDrain_empty (n : Nat) {s : State} {pi : Nat} (h : (portOf s pi).txq = []) : (portDrain n s pi).fabOut = s.fabOut := by
  induction n generalizing s with
  | zero => rfl
  | succ n ih =>
    have hpicked := picked_portPick (portOf s pi)
    have hnone : (portPick (portOf s pi)).1 = none := by
      cases hf : (portPick (portOf s pi)).1 with
      | none => rfl
      | some f => exact absurd (hpicked.mem f hf) (by simp [h])
    unfold portDrain
    dsimp only
    rw [hnone]
    dsimp only
    split
    · rfl
    · exact (ih (by rw [portOf_modPort_self, hpicked.txq, h])).trans rfl

theorem txq_portEmit (s : State) (pi : Nat) (f : OutFr) : (portOf (portEmit s pi f) pi).txq = (portOf s pi).txq.erase f :=
  congrArg (fun p : Port => p.txq) (tget_tset_self ..)

/-- A frame as it leaves keeps its kind, its NAK bit, its port and its job. -/
def SentOf (f g : OutFr) : Prop := g.type = f.type ∧ g.nak = f.nak ∧ g.port = f.port ∧ g.job = f.job

/-- A port with one frame in its queue sends nothing or that frame. -/
theorem fabOut_portDrain_one (n : Nat) {s : State} {pi : Nat} {f : OutFr} (h : (portOf s pi).txq = [f]) :
    (portDrain n s pi).fabOut = s.fabOut ∨ ∃ g, (portDrain n s pi).fabOut = s.fabOut ++ [g] ∧ SentOf f g := by
  induction n generalizing s with
  | zero => exact .inl rfl
  | succ n ih =>
    have hpicked := picked_portPick (portOf s pi)
    have htxq : (portOf (modPort s pi fun _ => (portPick (portOf s pi)).2) pi).txq = [f] := by rw [portOf_modPort_self, hpicked.txq, h]
    unfold portDrain
    dsimp only
    split
    case h_1 f' hf =>
      have hsame : f' = f := List.mem_singleton.mp (h ▸ hpicked.mem f' hf)
      subst hsame
      have hempty : (portOf (portEmit (modPort s pi fun _ => (portPick (portOf s pi)).2) pi f') pi).txq = [] := by
        rw [txq_portEmit, htxq]
        simp
      rw [fabOut_portDrain_empty n hempty]
      exact .inr ⟨_, rfl, rfl, rfl, rfl, rfl⟩
    case h_2 hnone =>
      split
      · exact .inl rfl
      · exact ih htxq

/-- A port with nothing in its queue sends nothing or the frame that it is handed. -/
theorem fabOut_portSend {s : State} {pi : Nat} {f : OutFr} (h : (portOf s pi).txq = []) (hport : f.port = pi) :
    (portSend s pi f).fabOut = s.fabOut ∨ ∃ g, (portSend s pi f).fabOut = s.fabOut ++ [g] ∧ SentOf f g := by
  unfold portSend
  split
  · have htxq : (portOf (modPort s pi fun p =>
        { (if p.txq.isEmpty then newRound p else p) with txq := p.txq ++ [{ f with port := pi }] }) pi).txq = [f] := by
      rw [portOf_modPort_self, h, ← hport]
      rfl
    exact fabOut_portDrain_one _ htxq
  · exact .inl rfl

/-- Settles O49. -/
theorem framesWithBadFcsAreDiscarded : Obligations.FramesWithBadFcsAreDiscarded := by
  intro s f bytes hok hfw hup hfcs hheld p
  let t := modPort s f.port fun p => { p with fcsErr := satAdd 32 p.fcsErr 1 }
  let u := modPort t f.port fun p => { p with nakSent := true }
  have hport : portOf t f.port = { p with fcsErr := satAdd 32 p.fcsErr 1 } := portOf_modPort_self ..
  have hexec : exec (.data f ⟨bytes, []⟩) s = .next (nakOnce t f.port) := by
    have hmargin : ¬ landHeld s f bytes.length = true := by simp [hheld]
    have harm : exec (.data f ⟨bytes, []⟩) s = rxLand s f 0 ⟨bytes, []⟩ fun s bs => dataIn s f bs [] := rfl
    rw [harm]
    unfold rxLand
    dsimp only
    rw [if_neg (by simp), if_neg hmargin]
    unfold rx
    rw [if_neg (by simp [hok]), guardNext_of (by simp [hfw, hup])]
    have htake : linkTake s f bytes.length = (nakOnce t f.port, false) := if_pos (by simp [hfcs])
    rw [htake]
    rfl
  refine ⟨_, hexec, ?_⟩
  by_cases hnak : p.nakSent = true
  case pos =>
    have hsame : nakOnce t f.port = t := if_pos (by rw [hport]; exact hnak)
    rw [hsame, hport]
    refine ⟨rfl, fun i hi => portOf_modPort_ne hi.symm, ?_, ⟨[], (List.append_nil _).symm⟩, fun _ => rfl, fun _ => .inl rfl⟩
    rw [← hnak]
  case neg =>
    have hnaks : nakOnce t f.port = linkSend u f.port true := if_neg (by rw [hport]; exact hnak)
    have hsends : Sends f.port u (linkSend u f.port true) := by
      unfold linkSend
      split
      · exact .refl ..
      · exact sends_portSend ..
    have hu : portOf u f.port = { p with fcsErr := satAdd 32 p.fcsErr 1, nakSent := true } := by
      rw [portOf_modPort_self, hport]
    obtain ⟨ports, fabOut, hframe⟩ : SameButPorts s (linkSend u f.port true) :=
      ((sameButPorts_modPort ..).trans (sameButPorts_modPort ..)).trans hsends.ports
    rw [hnaks]
    refine ⟨by rw [hframe], fun i hi => ?others, ?port, hsends.out, fun h => absurd h hnak, fun hempty => ?one⟩
    case others => exact (hsends.others i hi).trans ((portOf_modPort_ne hi.symm).trans (portOf_modPort_ne hi.symm))
    case port =>
      obtain ⟨_, _, _, _, _, _, _, _, _, _, hq⟩ := hsends.port
      rw [hq, hu]
    case one =>
      have htxq : (portOf u f.port).txq = [] := by rw [hu]; exact hempty
      have hsend : linkSend u f.port true = portSend u f.port { port := f.port, type := 1, vc := 0, dst := 0xFFFF, nak := true } :=
        if_neg (by simp [htxq])
      rw [hsend]
      obtain hno | ⟨g, hg, htype, hnak, hgport, hjob⟩ := fabOut_portSend (f := { port := f.port, type := 1, vc := 0, dst := 0xFFFF, nak := true })
          htxq rfl
      · exact .inl hno
      · exact .inr ⟨g, hg, htype, hnak, hgport, hjob⟩

end Sys2Proof.Machine
end

section
/-! Completions, doorbells, fetches and queue pairs (16 R360 to R370). -/
namespace Sys2Proof.Machine

/-! A queue pair replaced. -/

/-- Queue pair `qi` of function `f` replaced. -/
def putQp (s : State) (f qi : Nat) (q : QPair) : State := setFn s f { fnOf s f with qps := tset (fnOf s f).qps qi q }

@[simp] theorem qp_putQp (s : State) (f qi : Nat) (q : QPair) : tfind (fnOf (putQp s f qi q) f).qps qi = some q := by
  rw [putQp, fnOf_setFn_self]
  exact tfind_tset_self ..

@[simp] theorem putQp_putQp (s : State) (f qi : Nat) (q q' : QPair) : putQp (putQp s f qi q) f qi q' = putQp s f qi q' := by
  have hfn : fnOf (putQp s f qi q) f = { fnOf s f with qps := tset (fnOf s f).qps qi q } := fnOf_setFn_self ..
  rw [putQp, hfn, putQp, setFn_setFn, putQp]
  exact congrArg (fun t => setFn s f { fnOf s f with qps := t }) (tset_tset ..)

theorem modQp_of {s : State} {f qi : Nat} {q : QPair} (g : QPair → QPair) (h : tfind (fnOf s f).qps qi = some q) :
    modQp s f qi g = putQp s f qi (g q) := by
  rw [modQp, h]
  rfl

theorem modQp_putQp (s : State) (f qi : Nat) (q : QPair) (g : QPair → QPair) : modQp (putQp s f qi q) f qi g = putQp s f qi (g q) := by
  rw [modQp_of g (qp_putQp s f qi q), putQp_putQp]

/-! Entries that a ring takes. -/

/-- The queue pair once its ring has taken the one entry that waited. -/
def pushedQp (now : Nat) (q : QPair) : QPair :=
  let tail := (q.cqTail + 1) % 2 ^ q.cqLog
  { q with waitq := [], cqTail := tail, phase := if tail = 0 then 1 - q.phase else q.phase, unsent := q.unsent + 1
           since := if q.waiting then q.since else now, waiting := true }

/-- The entry's 32 bytes at the tail of the ring. -/
def putEntry (s : State) (q : QPair) (e : Nat) : State := hostPut s (q.cqBase + 32 * q.cqTail) (leBytes 32 (e + q.phase * 2 ^ 255))

/-- A ring with room takes the one entry that waits, without a message where IEN is 0. -/
theorem cqDrain_one {s : State} {f qi e : Nat} {q : QPair} (hq : tfind (fnOf s f).qps qi = some q) (hwait : q.waitq = [e])
    (hroom : cqRoom q = true) (hien : q.ien = false) : cqDrain 1 s f qi = putQp (putEntry s q e) f qi (pushedQp s.now q) := by
  have hfull : ¬ (!cqRoom q) = true := by simp [hroom]
  have hquiet : (q.ien && (decide (q.coalN + 1 ≤ q.unsent + 1) || decide (q.coalUs = 0))) = false := by rw [hien, Bool.false_and]
  unfold cqDrain
  rw [hq]
  dsimp only
  rw [hwait]
  dsimp only
  rw [if_neg hfull, hquiet]
  rfl

/-- A full ring takes nothing. -/
theorem cqDrain_full {n : Nat} {s : State} {f qi : Nat} {q : QPair} (hq : tfind (fnOf s f).qps qi = some q) (hroom : cqRoom q = false) :
    cqDrain n s f qi = s := by
  cases n with
  | zero => rfl
  | succ n =>
    unfold cqDrain
    rw [hq]
    dsimp only
    split
    · rfl
    · exact if_pos (by simp [hroom])

theorem hostByte_putEntry_in {s t : State} {q : QPair} {e k : Nat} (ht : t.hmem = (putEntry s q e).hmem) (hk : k < 32) :
    hostByte t (q.cqBase + 32 * q.cqTail + k) = nth (leBytes 32 (e + q.phase * 2 ^ 255)) k := by
  have hlen : k < (leBytes 32 (e + q.phase * 2 ^ 255)).length := by rw [length_leBytes]; exact hk
  have hbyte : nth (leBytes 32 (e + q.phase * 2 ^ 255)) k < 256 := by
    rw [nth, List.getD_eq_getElem _ _ hlen]
    exact lt_of_mem_leBytes (List.getElem_mem hlen)
  have hput := hostByte_hostPut_in (s := s) (a := q.cqBase + 32 * q.cqTail) hlen
  rw [Nat.mod_eq_of_lt hbyte] at hput
  rw [← hput, hostByte, ht]
  rfl

theorem hostByte_putEntry_out {s t : State} {q : QPair} {e a : Nat} (ht : t.hmem = (putEntry s q e).hmem)
    (h : a < q.cqBase + 32 * q.cqTail ∨ q.cqBase + 32 * q.cqTail + 32 ≤ a) : hostByte t a = hostByte s a := by
  have hput : hostByte (putEntry s q e) a = hostByte s a := hostByte_hostPut_out (by rw [length_leBytes]; exact h)
  rw [← hput, hostByte, ht]
  rfl

/-- A command in flight completes: its entry joins those that wait, which the ring takes as far as it has room. -/
theorem completeX_open {s : State} {r : CmdRef} {flags status late param result : Nat} {q : QPair}
    (hq : tfind (fnOf s r.fn).qps r.qp = some q) (hopen : r.cmd ∈ q.opened) :
    let held := { q with opened := q.opened.erase r.cmd
                         waitq := q.waitq ++ [cqeBits r.qp flags status q.sqHead (r.cmd % 65536) late param result] }
    completeX s r flags status late param result = cqDrain held.waitq.length (putQp s r.fn r.qp held) r.fn r.qp := by
  have hknown : ¬ (!q.opened.contains r.cmd) = true := by simp [hopen]
  unfold completeX
  rw [hq]
  dsimp only
  rw [if_neg hknown]
  rfl

/-- Settles O30. -/
theorem completionEntryIsWritten : Obligations.CompletionEntryIsWritten := by
  intro s r flags status late param result q hq hopen e held
  have hcomplete := completeX_open (flags := flags) (status := status) (late := late) (param := param) (result := result) hq hopen
  refine ⟨fun hfull => ?full, fun hnone hroom hien => ?room⟩
  case full => exact hcomplete.trans (cqDrain_full (qp_putQp ..) hfull)
  case room =>
    have hone : held.waitq = [e] := by
      show q.waitq ++ [e] = [e]
      rw [hnone, List.nil_append]
    have hlen : held.waitq.length = 1 := by rw [hone]; rfl
    have ht := hcomplete.trans ((congrArg (fun n => cqDrain n (putQp s r.fn r.qp held) r.fn r.qp) hlen).trans
      (cqDrain_one (qp_putQp ..) hone hroom hien))
    intro bits tail t
    have ht : t = putQp (putEntry (putQp s r.fn r.qp held) held e) r.fn r.qp (pushedQp s.now held) := ht
    rw [ht]
    refine ⟨?_, fun k hk => hostByte_putEntry_in (s := putQp s r.fn r.qp held) (q := held) rfl hk,
      fun a ha => hostByte_putEntry_out (s := putQp s r.fn r.qp held) (q := held) rfl ha, rfl⟩
    rw [qp_putQp, pushedQp]
    exact congrArg some (by rw [hnone])

/-! Doorbells. -/

/-- A doorbell write of 4 bytes to a live queue pair. -/
theorem doorbell_live {s : State} {f qi off v : Nat} {q : QPair} (hpower : (fnOf s f).d3hot = false) (hq : tfind (fnOf s f).qps qi = some q)
    (herr : q.err = false) : doorbell s f qi off 4 v = if off = 0 then sqTail s f qi v q else if off = 4 then cqHeadDb s f qi v q else dbDrop s f :=
        by
  have hawake : ¬ (fnOf s f).d3hot = true := by simp [hpower]
  have hlive : ¬ (q.err || 4 != 4) = true := by simp [herr]
  unfold doorbell
  rw [if_neg hawake, hq]
  exact if_neg hlive

/-- A tail doorbell reaches its queue pair. -/
theorem exec_sqTailDoorbell {s : State} {f qi size v : Nat} (hf : f < 17) (hup : hostUp s = true) (hen : (fnOf s f).enabled = true)
    (hpage : 4096 * qi < bar2Size f) (hv : v < 2 ^ (8 * size)) : exec (.sqTailDoorbell f qi 0 size v) s = .next (doorbell s f qi 0 size v) := by
  have hbad : ¬ (decide (17 ≤ f) || decide (bar2Size f ≤ 4096 * qi) || decide (0 = 4) || decide (4096 ≤ 0) || decide (2 ^ (8 * size) ≤ v)) = true :=
      by
    simp [hf, hpage, hv]
  exact (if_neg hbad).trans (guardNext_of (mayAccess hf hup hen))

/-- A head doorbell reaches its queue pair. -/
theorem exec_cqHeadDoorbell {s : State} {f qi v : Nat} {q : QPair} (hf : f < 17) (hup : hostUp s = true) (hen : (fnOf s f).enabled = true)
    (hpower : (fnOf s f).d3hot = false) (hpage : 4096 * qi < bar2Size f) (hq : tfind (fnOf s f).qps qi = some q) (herr : q.err = false)
    (hv : v < 2 ^ 32) : exec (.cqHeadDoorbell f qi 4 4 v) s = .next (cqHeadDb s f qi v q) := by
  have hbad : ¬ (decide (17 ≤ f) || decide (bar2Size f ≤ 4096 * qi) || decide (4 = 0) || decide (4096 ≤ 4) || decide (2 ^ (8 * 4) ≤ v)) = true := by
    simpa [hf, hpage] using hv
  have hexec : exec (.cqHeadDoorbell f qi 4 4 v) s = .next (doorbell s f qi 4 4 v) := (if_neg hbad).trans (guardNext_of (mayAccess hf hup hen))
  rw [hexec, doorbell_live hpower hq herr]
  rfl

/-- A head that is no index from the head to the tail puts the queue pair into ERROR. -/
theorem cqHeadDb_bad {s : State} {f qi v : Nat} {q : QPair}
    (h : ¬ (v < 2 ^ q.cqLog ∧ (v + 2 ^ q.cqLog - q.cqHead) % 2 ^ q.cqLog ≤ (q.cqTail + 2 ^ q.cqLog - q.cqHead) % 2 ^ q.cqLog)) :
    cqHeadDb s f qi v q = queueError s f qi 0 := by
  refine if_pos ?_
  rw [Bool.or_eq_true, decide_eq_true_eq, decide_eq_true_eq]
  omega

/-- A legal head becomes the head; one below the tail starts a new wait for a message, and the ring takes entries that wait. -/
theorem cqHeadDb_legal {s : State} {f qi v : Nat} {q : QPair} (hq : tfind (fnOf s f).qps qi = some q)
    (h : v < 2 ^ q.cqLog ∧ (v + 2 ^ q.cqLog - q.cqHead) % 2 ^ q.cqLog ≤ (q.cqTail + 2 ^ q.cqLog - q.cqHead) % 2 ^ q.cqLog) :
    cqHeadDb s f qi v q = cqDrain q.waitq.length (if v = q.cqTail then putQp s f qi { q with cqHead := v }
      else newWait (putQp s f qi { q with cqHead := v }) f qi q) f qi := by
  have hlegal : ¬ (decide (2 ^ q.cqLog ≤ v)
      || decide ((q.cqTail + 2 ^ q.cqLog - q.cqHead) % 2 ^ q.cqLog < (v + 2 ^ q.cqLog - q.cqHead) % 2 ^ q.cqLog)) = true := by
    rw [Bool.or_eq_true, decide_eq_true_eq, decide_eq_true_eq]
    omega
  refine (if_neg hlegal).trans ?_
  rw [modQp_of _ hq]

/-- A new wait where the message is not due at once. -/
theorem newWait_later {s : State} {f qi : Nat} {q q' : QPair} (h : q.ien = false ∨ q.coalUs ≠ 0) :
    newWait (putQp s f qi q') f qi q = putQp s f qi { q' with waiting := true, since := s.now } := by
  have hlater : ¬ (decide (q.coalUs = 0) && q.ien) = true := by
    rcases h with h | h <;> simp [h]
  exact (if_neg hlater).trans (modQp_putQp ..)

/-- A new wait of no time sends the message. -/
theorem newWait_now {s : State} {f qi : Nat} {q q' : QPair} (hien : q.ien = true) (hus : q.coalUs = 0) :
    newWait (putQp s f qi q') f qi q = msix (putQp s f qi { q' with unsent := 0, waiting := false }) f q.iv := by
  refine (if_pos (by simp [hien, hus])).trans ?_
  rw [modQp_putQp]

end Sys2Proof.Machine
end

section
/-! Doorbells, fetches, messages and queue pair commands (16 R360 to R370), settled. -/
namespace Sys2Proof.Machine

/-- Settles O31. -/
theorem doorbellsFetchAndMessagesComplete : Obligations.DoorbellsFetchAndMessagesComplete := by
  refine ⟨fun s f qi v q hf hup hen hpower hpage hq herr hv => ⟨fun hlt => ?tail, fun hle => ?tailError, ?head⟩,
    fun s f qi v q hf hup hen hpower hpage hq hv => ?size, fun s f qi q hq hup herr hne hroom hnext => ?fetch,
    fun s f qi q hq hfw hien hwaiting hsince => ?message⟩
  case tail =>
    rw [exec_sqTailDoorbell hf hup hen hpage hv, doorbell_live hpower hq herr, if_pos rfl, sqTail, if_neg (by omega), modQp_of _ hq]
    rfl
  case tailError => rw [exec_sqTailDoorbell hf hup hen hpage hv, doorbell_live hpower hq herr, if_pos rfl, sqTail, if_pos hle]
  case head =>
    intro n inRing put
    have hexec := exec_cqHeadDoorbell hf hup hen hpower hpage hq herr hv
    rw [hexec]
    refine ⟨fun hout => by rw [cqHeadDb_bad hout], fun hin htail hempty => ?atTail, fun hin hbelow hempty hlater => ?later,
      fun hin hbelow hempty hien hus => ?now, fun hin => by rw [cqHeadDb_legal hq hin]; rfl, fun e hin hwait hfree hien => ?entry⟩
    case atTail =>
      rw [cqHeadDb_legal hq hin, if_pos htail, hempty]
      rfl
    case later =>
      rw [cqHeadDb_legal hq hin, if_neg hbelow, newWait_later hlater, hempty]
      rfl
    case now =>
      rw [cqHeadDb_legal hq hin, if_neg hbelow, newWait_now hien hus, hempty]
      rfl
    case entry =>
      let q' : QPair := if v = q.cqTail then { q with cqHead := v } else { q with cqHead := v, waiting := true, since := s.now }
      have hq' : q' = { q with cqHead := v, waiting := q'.waiting, since := q'.since } := by
        simp only [q']
        split <;> rfl
      have hdrain : cqHeadDb s f qi v q = putQp (putEntry (putQp s f qi q') q' e) f qi (pushedQp s.now q') := by
        have hstate : (if v = q.cqTail then putQp s f qi { q with cqHead := v } else newWait (putQp s f qi { q with cqHead := v }) f qi q)
            = putQp s f qi q' := by
          simp only [q']
          split
          · rfl
          · rw [newWait_later (.inl hien)]
        have hwait' : q'.waitq = [e] := by rw [hq']; exact hwait
        have hroom : cqRoom q' = true := by
          rw [hq', cqRoom, bne_iff_ne]
          exact hfree
        have hien' : q'.ien = false := by rw [hq']; exact hien
        rw [cqHeadDb_legal hq hin, hstate, hwait]
        exact cqDrain_one (qp_putQp ..) hwait' hroom hien'
      refine ⟨_, rfl, ?_⟩
      rw [hdrain]
      have hbase : q'.cqBase = q.cqBase ∧ q'.cqTail = q.cqTail ∧ q'.phase = q.phase := by
        rw [hq']
        exact ⟨rfl, rfl, rfl⟩
      obtain ⟨hcqBase, hcqTail, hphase⟩ := hbase
      refine ⟨?_, fun k hk => ?_, fun a ha => ?_, rfl⟩
      · rw [qp_putQp]
        refine congrArg some ?_
        by_cases htail : v = q.cqTail
        · have hsame : q' = { q with cqHead := v } := if_pos htail
          rw [hsame, pushedQp]
          simp only [htail, true_and]
          rfl
        · have hnew : q' = { q with cqHead := v, waiting := true, since := s.now } := if_neg htail
          rw [hnew, pushedQp]
          simp only [htail, false_and, if_true, if_false]
          rfl
      · rw [← hcqBase, ← hcqTail, ← hphase]
        exact hostByte_putEntry_in (s := putQp s f qi q') rfl hk
      · rw [← hcqBase, ← hcqTail] at ha
        exact hostByte_putEntry_out (s := putQp s f qi q') rfl ha
  case size =>
    rw [exec_sqTailDoorbell hf hup hen hpage hv]
    have hawake : ¬ (fnOf s f).d3hot = true := by simp [hpower]
    unfold doorbell
    rw [if_neg hawake, hq]
    exact congrArg Host.Outcome.next (if_pos (by simp))
  case fetch =>
    have harm : exec (.sqEntryFetch f qi) s = execSqEntryFetch f qi s := rfl
    intro e cmd q' t
    let u := modQp (fetchTurn { s with ids := s.ids + 1 }) f qi
      fun q => { q with sqHead := (q.sqHead + 1) % 2 ^ q.sqLog, opened := q.opened ++ [cmd] }
    have hu : u = t := modQp_of _ hq
    have hentry : fetchEntry s f qi q = if opcodes.contains (fld e.toNat 7 0) = true then { u with fetched := u.fetched ++
        [{ fn := f, qp := qi, tok := s.ids + 1, e := e, at_ := u.now, recd := codecRec u e.toNat }] }
      else complete u ⟨f, qi, cmd⟩ 0x0800 0 0 := rfl
    rw [harm, execSqEntryFetch, hq]
    refine (guardNext_of (by simp [hup, canFetch, herr, hne, hroom, hnext])).trans (congrArg Host.Outcome.next ?_)
    rw [hentry, hu]
    exact if_congr List.contains_iff_mem rfl rfl
  case message =>
    have harm : exec (.msixCoalesceTimeout f qi) s = execMsixCoalesceTimeout f qi s := rfl
    rw [harm, execMsixCoalesceTimeout, hq]
    refine (guardNext_of (by simp [hfw, hien, hwaiting, hsince])).trans ?_
    rw [modQp_of _ hq]
    rfl

/-- Settles O32. -/
theorem queuePairCommandsComplete : Obligations.QueuePairCommandsComplete := by
  refine ⟨fun s f hf hup hen hdown => ?enable, fun s f hf hup hen => ?disable, fun s f e x h => ?create, fun s f e x q h hq hadmin => ?delete,
    fun s e x h => ?allot⟩
  case enable =>
    exact (if_neg (by omega)).trans ((guardNext_of (mayAccess hf hup hen)).trans (congrArg Host.Outcome.next (if_neg (by simp [hdown]))))
  case disable => exact (if_neg (by omega)).trans (guardNext_of (mayAccess hf hup hen))
  case create =>
    intro w qid hresv hne hlt hnone hsl hsl' hcl hcl' hvec hsq hcq q
    have hexec := hostExec_takes (queue := 0) (pfOnly := false) (resv := fun w => fld w 336 64) qpCreateBody h ⟨by simp, by simp, by simp⟩ hresv
    refine hexec.trans (congrArg Host.Outcome.next ?_)
    have hfree : ¬ (decide (qid = 0) || decide (allotOf s f ≤ qid) || (tfind (fnOf s f).qps qid).isSome) = true := by simp [hne, hlt, hnone]
    have hlegal : ¬ (decide (fld w 373 369 < 6) || decide (16 < fld w 373 369) || decide (fld w 368 364 < 6) || decide (16 < fld w 368 364)
        || decide (fnVectors f ≤ fld w 363 354) || fld w 511 448 % 4096 != 0 || fld w 447 384 % 4096 != 0) = true := by
      simp [hsl, hsl', hcl, hcl', hvec, hsq, hcq]
    exact (if_neg hfree).trans (if_neg hlegal)
  case delete =>
    have hexec := hostExec_takes (queue := 0) (pfOnly := false) (resv := noResv) qpDeleteBody h ⟨by simp, by simp, by simp⟩ rfl
    refine hexec.trans (congrArg Host.Outcome.next ?_)
    have hq : tfind (fnOf (taken s x) f).qps (fld e.toNat 383 374) = some q := hq
    show qpDeleteBody (taken s x) ⟨f, 0, _⟩ e.toNat = _
    unfold qpDeleteBody
    dsimp only
    rw [hq]
    exact if_neg hadmin
  case allot =>
    intro v n t hlo hhi hn hen hneed hsum
    have hexec := hostExec_takes (queue := 0) (pfOnly := true) (resv := noResv) qpAllotBody h ⟨by simp, by simp, by simp⟩ rfl
    refine hexec.trans (congrArg Host.Outcome.next ?_)
    have hlegal : ¬ (decide (v = 0) || decide (16 < v) || decide (64 < n) || !fnUp s v) = true := by
      have hv : v ≠ 0 := by omega
      have hup : fnUp s v = true := by simp [fnUp, hen]; omega
      simp [hv, hhi, hn, hup]
    have hfits : ¬ (decide (n < allotNeed s v) || decide (1024 < sumN ((List.range 16).map fun i => (fnOf t (i + 1)).allot) + allotNeed s 0)) = true :=
        by
      simp [hneed, hsum]
    exact (if_neg hlegal).trans (if_neg hfits)

end Sys2Proof.Machine
end

section
/-! Images, admission and release, and the model hot set (04 R102; 09 R225; 13 R301 to R303; 16 R368; 17 R385, R394). -/
namespace Sys2Proof.Machine

/-- An admin command that any function may send is taken. -/
theorem hostExec_admin {opc : Nat} {s : State} {f : Nat} {e : Entry} {x : Fetched} (body : State → CmdRef → Nat → State)
    (h : Takes opc s f 0 e x) : hostExec opc s f 0 e true 0 false noResv body = .next (body (taken s x) (cmdOf f 0 x e) e.toNat) :=
  hostExec_takes body h ⟨by simp, by simp, by simp⟩ rfl

/-- One that waits for a condition of its own. -/
theorem hostExec_admin_if {opc : Nat} {ok : Bool} {s : State} {f : Nat} {e : Entry} {x : Fetched} (body : State → CmdRef → Nat → State)
    (h : Takes opc s f 0 e x) (hok : ok = true) :
    hostExec opc s f 0 e ok 0 false noResv body = .next (body (taken s x) (cmdOf f 0 x e) e.toNat) := by
  rw [hok]
  exact hostExec_admin body h

/-- Settles O33. -/
theorem imageCommandsComplete : Obligations.ImageCommandsComplete := by
  refine ⟨fun s f e x h => ?load, fun s f e x i h hi hfn hfree => ?unload⟩
  case load =>
    intro w len bs hd b r hcount hlen hsum hseal
    have hfits : ¬ (decide (32 ≤ (s.images.filter fun i => i.2.fn = f).length) || decide (2 ^ 24 < len)
        || decide (2 ^ 28 < sumN (s.images.map fun i => i.2.len) + len)) = true := by
      rw [Bool.or_eq_true, Bool.or_eq_true, decide_eq_true_eq, decide_eq_true_eq, decide_eq_true_eq]
      omega
    have hpass : ¬ (!sealPass bs) = true := by simp [hseal]
    refine (hostExec_admin programLoadBody h).trans (congrArg Host.Outcome.next ((if_neg hfits).trans ((if_neg hpass).trans ?_)))
    cases hparse : Config.parseImage (bodyOf bs) with
    | none =>
      have hparse' : Config.parseImage (bodyOf (hostRead (taken s x) (fld e.toNat 511 448) (fld e.toNat 447 416))) = none := hparse
      rw [hparse']
    | some raw =>
      have hparse' : Config.parseImage (bodyOf (hostRead (taken s x) (fld e.toNat 511 448) (fld e.toNat 447 416))) = some raw := hparse
      rw [hparse']
      dsimp only
      by_cases hbad : rawBad raw = true
      · rw [if_pos hbad, if_pos hbad]
        rfl
      · rw [if_neg hbad, if_neg hbad]
        cases hcheck : loadCheck (planOf raw) <;> rfl
  case unload =>
    refine (hostExec_admin programUnloadBody h).trans (congrArg Host.Outcome.next ?_)
    have hi : tfind (taken s x).images (fld e.toNat 447 416) = some i := hi
    have hown : ¬ (i.fn != f) = true := by simp [hfn]
    have hunused : ¬ ((taken s x).jobs.any fun j => decide (j.2.img = fld e.toNat 447 416)) = true := by
      rw [List.any_eq_true]
      rintro ⟨k, hk, himg⟩
      exact hfree k hk (of_decide_eq_true himg)
    unfold programUnloadBody
    dsimp only
    rw [hi]
    exact (if_neg hown).trans (if_neg hunused)

/-- An admission that passes every check and finds every reservation. -/
theorem admitGo_reserved {s s1 t : State} {r : CmdRef} {x y : Job} {st : Nat × Nat} {g : Option Nat} {d : List Nat}
    (hchecks : admitChecks s x = none) (hreserve : admitReserve s x = (s1, st, some (y, g)))
    (hmodels : admitModels (y.plan.rings.foldl (fun s q => ringWords s (freeSlot s1) q)
      (admitPlace { s1 with jobSeq := nextHandle 16 s1.jobSeq (s1.jobs.map (·.2.handle)) + 1 } (freeSlot s1)
        { y with handle := nextHandle 16 s1.jobSeq (s1.jobs.map (·.2.handle)), admCmd := some r } g)) y = (t, d, true)) :
    admitGo s r x = admitCheck1 t (freeSlot s1) := by
  unfold admitGo
  rw [hchecks]
  dsimp only
  rw [hreserve]
  dsimp only
  rw [hmodels]

/-- Settles O34. -/
theorem admissionAndReleaseComplete : Obligations.AdmissionAndReleaseComplete := by
  refine ⟨fun s f e x i s1 st y g t d h hready hmargin hheld hi hfn => ?admission, fun s f e x j y h hmargin hslot hj hfn => ?release⟩
  case admission =>
    intro b hblock hchecks hreserve hd hmodels
    refine (hostExec_admin_if jobAdmitBody h (by simp [hready, hmargin, hheld])).trans (congrArg Host.Outcome.next ?_)
    have hi : tfind (taken s x).images (fld e.toNat 447 416) = some i := hi
    have hown : ¬ (i.fn != f) = true := by simp [hfn]
    have hlegal : ¬ (!blockOk b) = true := by simp [hblock]
    unfold jobAdmitBody
    dsimp only
    rw [hi]
    refine (if_neg hown).trans ((if_neg hlegal).trans ?_)
    rw [← admitGo_reserved (r := cmdOf f 0 x e) hchecks hreserve hmodels]
    rfl
  case release =>
    refine (hostExec_admin_if jobReleaseBody h hmargin).trans (congrArg Host.Outcome.next ?_)
    exact withJob_own (s := taken s x) (r := cmdOf f 0 x e) _ hslot hj hfn

/-! The model hot set. -/

/-- The body of a command that names an own model. -/
theorem withModel_own {s : State} {r : CmdRef} {h : Nat} {m : Model} (body : Model → State) (hm : tfind s.models h = some m) (hfn : m.fn = r.fn) :
    withModel s r h body = body m := by
  simp [withModel, hm, hfn]

/-- MODEL_LOAD from host memory starts its load. -/
theorem modelLoadBody_starts {s t : State} {r : CmdRef} {w : Nat} (hsrc : bitOf w 8 = false) (hsize : fld w 447 384 ≠ 0)
    (hstart : loadStart s (modelHandle s) r.fn (fld w 447 384) 1 (fld w 511 448) (bitOf w 9) 0 [r] = (t, true)) : modelLoadBody s r w = t := by
  have hhost : (!bitOf w 8) = true := by simp [hsrc]
  refine (if_pos hhost).trans ((if_neg hsize).trans ?_)
  dsimp only
  rw [hstart]

theorem modelPin1_of {s : State} {h : Nat} {m : Model} (hm : tfind s.models h = some m) : modelPin1 s h =
    { s with models := tset s.models h { m with pins := m.pins + 1, st := if m.st = .resident then .pinned else m.st } } := by
  rw [modelPin1, hm]

/-- The last unpin. -/
theorem modelUnpin1_last {s : State} {h : Nat} {m : Model} (hm : tfind s.models h = some m) (hpins : m.pins = 1) (hst : m.st = .pinned) :
    modelUnpin1 s h = { s with hotSeq := s.hotSeq + 1, models := tset s.models h { m with pins := 0, age := s.hotSeq + 1, st := .resident } } := by
  unfold modelUnpin1
  rw [hm]
  dsimp only
  rw [hpins, hst]
  rfl

/-- An eviction's end frees the entry. -/
theorem dropModel_evicting {s : State} {h : Nat} {m : Model} (hm : tfind s.models h = some m) (hst : m.st = .evicting) :
    dropModel s h = m.frames.foldl zeroFrame { s with models := tdel s.models h } := by
  have hload : loadUnhold s h = s := by
    unfold loadUnhold
    rw [hm]
    exact if_pos (by simp [hst])
  unfold dropModel
  dsimp only
  rw [hload, hm]
  rfl

/-- Settles O36. -/
theorem modelCommandsComplete : Obligations.ModelCommandsComplete := by
  refine ⟨fun s f e x t h hready hmargin hsrc hsize hstart => ?load, fun s f e x m h hm hfn hst => ?pin,
    fun s f e x m h hm hfn hpins hst => ?unpin, fun s f e x m h hm hfn hst hpins huses => ?evict,
    fun s h m hm hfw hst hmargin => ?loaded, fun s h m hm hfw hst hmargin => ?evicted⟩
  case load =>
    have hok : ((s.boot.admitReady || !loadCache e.toNat) && noMargin s && !loadHeld s e.toNat) = true := by
      rcases hready with h | h <;> simp [h, hmargin, loadHeld, loadCache, hsrc]
    refine (hostExec_admin_if (fun s r w => admitCheck (modelLoadBody s r w)) h hok).trans (congrArg (fun t => Host.Outcome.next (admitCheck t)) ?_)
    exact modelLoadBody_starts hsrc hsize hstart
  case pin =>
    have hm : tfind (taken s x).models (fld e.toNat 383 352) = some m := hm
    refine (hostExec_admin modelPinBody h).trans (congrArg Host.Outcome.next ?_)
    refine (withModel_own (r := cmdOf f 0 x e) _ hm hfn).trans ((if_neg hst).trans ?_)
    rw [modelPin1_of hm]
    rfl
  case unpin =>
    have hm : tfind (taken s x).models (fld e.toNat 383 352) = some m := hm
    have hpinned : ¬ m.pins = 0 := by omega
    refine (hostExec_admin modelUnpinBody h).trans (congrArg Host.Outcome.next ?_)
    refine (withModel_own (r := cmdOf f 0 x e) _ hm hfn).trans ((if_neg hpinned).trans ?_)
    rw [modelUnpin1_last hm hpins hst]
    rfl
  case evict =>
    have hm : tfind (taken s x).models (fld e.toNat 383 352) = some m := hm
    have hevicting : ¬ m.st = .evicting := by simp [hst]
    have hloading : ¬ m.st = .loading := by simp [hst]
    refine (hostExec_admin modelEvictBody h).trans (congrArg Host.Outcome.next ?_)
    exact (withModel_own (r := cmdOf f 0 x e) _ hm hfn).trans
      ((if_neg hevicting).trans ((if_neg (by omega)).trans ((if_neg hloading).trans (if_neg (by omega)))))
  case loaded =>
    have harm : exec (.modelLoadComplete h []) s = execModelLoadComplete h [] s := rfl
    rw [harm, execModelLoadComplete, if_neg (by simp), hm]
    exact guardNext_of (by simp [hfw, hst, hmargin])
  case evicted =>
    have harm : exec (.hotsetEvictionEnd h) s = execHotsetEvictionEnd h s := rfl
    rw [harm, execHotsetEvictionEnd, hm, ← dropModel_evicting hm hst]
    exact guardNext_of (by simp [hfw, hst, hmargin])

end Sys2Proof.Machine
end

section
/-! Windows, transfers, queries, events and margining (10 R251, R252; 16 R371 to R374). -/
namespace Sys2Proof.Machine

/-- The body of a command that names an own job that is admitted. -/
theorem withReady_own {s : State} {r : CmdRef} {h j : Nat} {x : Job} (body : Nat → Job → State) (hs : slotOf s h = some j)
    (hj : jobOf s j = some x) (hf : x.fn = r.fn) (hready : x.ready = true) : withReady s r h body = body j x :=
  (withJob_own _ hs hj hf).trans (if_pos hready)

/-- A command of an I/O queue pair. -/
theorem hostExec_io {opc : Nat} {ok : Bool} {s : State} {f q : Nat} {e : Entry} {x : Fetched} {resv : Nat → Nat}
    (body : State → CmdRef → Nat → State) (h : Takes opc s f q e x) (hq : q ≠ 0) (hr : resv e.toNat = 0) (hok : ok = true) :
    hostExec opc s f q e ok 1 false resv body = .next (body (taken s x) (cmdOf f q x e) e.toNat) := by
  rw [hok]
  exact hostExec_takes body h ⟨by simp, by simp [hq], by simp⟩ hr

/-- An admin command of the physical function. -/
theorem hostExec_pf {opc : Nat} {ok : Bool} {s : State} {e : Entry} {x : Fetched} (body : State → CmdRef → Nat → State)
    (h : Takes opc s 0 0 e x) (hok : ok = true) :
    hostExec opc s 0 0 e ok 0 true noResv body = .next (body (taken s x) (cmdOf 0 0 x e) e.toNat) := by
  rw [hok]
  exact hostExec_takes body h ⟨by simp, by simp, by simp⟩ rfl

/-! Windows. -/

/-- A window of legal fields maps the pages of the lowest free one. -/
theorem windowMapBody_maps {s : State} {r : CmdRef} {w i j : Nat} {l : List Nat} {y : Job} (hs : slotOf s (fld w 63 48) = some j)
    (hj : jobOf s j = some y) (hf : y.fn = r.fn) (hready : y.ready = true) (hidle : y.running = none)
    (hfields : winFieldsBad (fld w 511 448) (fld w 447 400) (fld w 399 384) = false)
    (hpages : ∀ g ∈ y.pt, ¬ (fld w 447 400 / 2 ^ 21 ≤ g.1 ∧ g.1 < fld w 447 400 / 2 ^ 21 + fld w 399 384))
    (hkey : bitOf w 10 = true → y.kt ≠ []) (hcount : (s.wins.filter fun k => k.2.job = j).length < min 256 y.plan.windows)
    (hfree : freeKeys s.wins 3840 = i :: l) : windowMapBody s r w = complete
      (setJob { s with wins := tset s.wins i { job := j, base := fld w 511 448, pages := fld w 399 384, va := fld w 447 400 / 2 ^ 21 * 2 ^ 21
                                               rd := bitOf w 8, wr := bitOf w 9, gcm := bitOf w 10 } } j
        { y with pt := ptInsert y.pt (winPages i (fld w 447 400 / 2 ^ 21) (fld w 399 384)) (fld w 447 400 / 2 ^ 21) (fld w 399 384) }) r 0 0 i := by
  have hclear : (y.pt.any fun e => decide (fld w 447 400 / 2 ^ 21 ≤ e.1) && decide (e.1 < fld w 447 400 / 2 ^ 21 + fld w 399 384)) = false := by
    rw [List.any_eq_false]
    exact fun g hg h => hpages g hg (by simpa using h)
  have hsealed : (bitOf w 10 && y.kt.isEmpty) = false := by
    cases hgcm : bitOf w 10 with
    | false => rfl
    | true => simp [hkey hgcm]
  refine (withReady_own _ hs hj hf hready).trans ?_
  refine (if_neg (by rw [hfields, hsealed, hclear]; simp)).trans ((if_neg (by simp [hidle])).trans ((if_neg (by omega)).trans ?_))
  rw [hfree]
  exact congrArg (complete · r 0 0 i) (modJob_of_job _ hj)

/-- An own window of an idle job is removed. -/
theorem windowUnmapBody_unmaps {s : State} {r : CmdRef} {w j : Nat} {y : Job} {k : Win} (hs : slotOf s (fld w 63 48) = some j)
    (hj : jobOf s j = some y) (hf : y.fn = r.fn) (hready : y.ready = true) (hidle : y.running = none)
    (hk : tfind s.wins (fld w 383 372) = some k) (hown : k.job = j) : windowUnmapBody s r w = complete
      (setJob { s with wins := tdel s.wins (fld w 383 372) } j { y with pt := winUnmap y.pt (fld w 383 372) }) r 0 0 0 := by
  refine (withReady_own _ hs hj hf hready).trans ?_
  dsimp only
  rw [hk]
  dsimp only
  refine (if_neg (by simp [hown, hj, hf])).trans ((if_neg (by simp [hown])).trans ((if_neg (by simp [hidle])).trans ?_))
  exact congrArg (complete · r 0 0 0) (modJob_of_job _ hj)

/-! Transfers. -/

/-- What a transfer does that is none of its fields' refusal: it meets its events, and moves its bytes unless one ends it. -/
def dmaMoved (ev : List AccEv) (s : State) (r : CmdRef) (w j : Nat) (y : Job) : State :=
  match dmaEvs j s ev with
  | (s, some b) => complete s r b.1 b.2 0
  | (s, none) => dmaMove s r w j ((jobOf s j).getD y)

/-- A transfer of legal fields, of plain bytes. -/
theorem dmaBody_legal {s : State} {r : CmdRef} {w j : Nat} {y : Job} {ev : List AccEv} (hs : slotOf s (fld w 63 48) = some j)
    (hj : jobOf s j = some y) (hf : y.fn = r.fn) (hready : y.ready = true) (hplain : bitOf w 9 = false) (hlo : 1 ≤ fld w 383 320)
    (hhi : fld w 383 320 ≤ 2 ^ 36) (hgood : dmaBad s y (!bitOf w 8) (fld w 447 384) (fld w 383 320) = none) :
    dmaBody ev s r w = dmaMoved ev s r w j y := by
  have hlegal : ¬ (decide (fld w 383 320 = 0) || decide (2 ^ 36 < fld w 383 320)
      || (bitOf w 9 && (y.kt.isEmpty || fld w 511 448 % 4096 != 0 || fld w 383 320 % 4096 != 0))) = true := by
    rw [hplain, Bool.false_and, Bool.or_false, Bool.or_eq_true, decide_eq_true_eq, decide_eq_true_eq]
    omega
  refine (withReady_own _ hs hj hf hready).trans ((if_neg hlegal).trans ?_)
  rw [hgood]
  rfl

/-- ASYNC_EVENT waits while no event does. -/
theorem asyncBody_waits {s : State} {r : CmdRef} {w : Nat} (hwait : (fnOf s r.fn).asyncWait = []) (hroom : (fnOf s r.fn).asyncOut.length < 4) :
    asyncBody s r w = setFn s r.fn { fnOf s r.fn with asyncOut := (fnOf s r.fn).asyncOut ++ [r.cmd] } := by
  unfold asyncBody
  dsimp only
  rw [hwait]
  exact if_neg (Nat.not_le.mpr hroom)

/-- Settles O37. -/
theorem windowDmaQueryCommandsComplete : Obligations.WindowDmaQueryCommandsComplete := by
  refine ⟨fun s f e x j y i l h hs hj hf hready hidle => ?map, fun s f e x j y k h hs hj hf hready hidle hk hown => ?unmap,
    fun s f q e x j y h hq hresv hs hj hf hready => ?dma, fun s f q e x h hkind hroom => ?query, fun s f e x h hwait hout => ?async⟩
  case map =>
    intro w vpn n hfields hpages hkey hcount hfree k
    exact (hostExec_admin windowMapBody h).trans (congrArg Host.Outcome.next
      (windowMapBody_maps (s := taken s x) (r := cmdOf f 0 x e) hs hj hf hready hidle hfields hpages hkey hcount hfree))
  case unmap =>
    exact (hostExec_admin windowUnmapBody h).trans (congrArg Host.Outcome.next
      (windowUnmapBody_unmaps (s := taken s x) (r := cmdOf f 0 x e) hs hj hf hready hidle hk hown))
  case dma =>
    intro w b va len hplain hlo hhi hgood hwaits
    have hexec : ∀ ev, ev.all (dmaMeets s e.toNat) = true → exec (.dma f q e ev) s = .next (dmaBody ev b (cmdOf f q x e) w) := fun ev hev =>
      (if_neg (by simp [hev])).trans (hostExec_io (dmaBody ev) h hq hresv (congrArg not hwaits))
    have hbody : ∀ ev, dmaBody ev b (cmdOf f q x e) w = _ := fun ev =>
      dmaBody_legal (s := b) (r := cmdOf f q x e) hs hj hf hready hplain hlo hhi hgood
    have hjob : (jobOf b j).getD y = y := by
      have hj : jobOf b j = some y := hj
      rw [hj]
      rfl
    have hall : ∀ {a : AccEv}, dmaMeets s e.toNat a = true → [a].all (dmaMeets s e.toNat) = true := fun ha => by
      rw [List.all_cons, ha]
      rfl
    have hmove : exec (.dma f q e []) s = .next (dmaMove b (cmdOf f q x e) w j y) := by
      rw [hexec [] rfl, hbody []]
      exact congrArg (fun z => Host.Outcome.next (dmaMove b (cmdOf f q x e) w j z)) hjob
    refine ⟨fun hdir => ?_, fun hdir => ?_, fun pa hmeets => ?_, fun st z hlo hhi => ?_⟩
    · rw [hmove]
      refine congrArg Host.Outcome.next ((if_pos hdir).trans ?_)
      rw [hplain]
      rfl
    · rw [hmove]
      refine congrArg Host.Outcome.next ((if_neg (by simp [hdir])).trans ?_)
      rw [hplain]
      rfl
    · rw [hexec [.farUe pa] (hall hmeets), hbody]
      rfl
    · have hmeets : dmaMeets s e.toNat (.hostErr st z) = true := by simp [dmaMeets, evDma, hlo, hhi]
      rw [hexec [.hostErr st z] (hall hmeets), hbody]
      rfl
  case query =>
    have hexec := hostExec_takes (queue := 2) (pfOnly := false) (resv := noResv) queryBody h ⟨by simp, by simp, by simp⟩ rfl
    refine hexec.trans (congrArg Host.Outcome.next ?_)
    unfold queryBody
    dsimp only
    rw [hkind]
    unfold queryOut
    dsimp only
    have hlen : ¬ fld e.toNat 447 416 < (qIdentity (taken s x)).length := Nat.not_lt.mpr hroom
    rw [if_neg hlen, List.take_of_length_le (Nat.not_lt.mp hlen)]
    rfl
  case async =>
    refine (hostExec_admin asyncBody h).trans (congrArg Host.Outcome.next ?_)
    exact asyncBody_waits (s := taken s x) (r := cmdOf f 0 x e) hwait hout

/-- The lower bits of a field that is 0 are 0. -/
theorem fld_low_of_zero {p : Nat} (h : fld p 11 0 = 0) : bitOf p 0 = false ∧ fld p 11 1 = 0 := by
  simp only [fld, bitOf, Nat.shiftRight_eq_div_pow, beq_eq_false_iff_ne] at h ⊢
  omega

/-- Settles O38. -/
theorem marginCommandsComplete : Obligations.MarginCommandsComplete := by
  refine ⟨fun s e x h hnone => ?starts, fun s m lanes hm hfw hlen hlanes => ?ends⟩
  case starts =>
    intro p l hresv hlow hstep hidle m
    obtain ⟨hfar, hresv'⟩ := fld_low_of_zero hlow
    have hok : noMargin s = true := by simp [noMargin, hnone]
    have hexec := hostExec_pf marginBody h hok
    have hfields : ¬ (fld p 95 32 != 0 || fld p 11 1 != 0) = true := by simp [hresv, hresv']
    have hrun : ¬ ((taken s x).jobs.any fun k => k.2.running.isSome) = true := by
      rw [List.any_eq_true]
      rintro ⟨k, hk, hrun⟩
      have hk : k ∈ s.jobs := hk
      simp [hidle k hk] at hrun
    refine hexec.trans (congrArg Host.Outcome.next ((if_neg hfields).trans ((if_neg (Nat.not_lt.mpr hstep)).trans ((if_neg hrun).trans ?_))))
    dsimp only
    rw [hfar]
    rfl
  case ends =>
    have hgood : (lanes.all fun e => decide (e.1 < 256) && e.1 != 128 && decide (e.2.1 < 256) && e.2.1 != 128) = true := by
      simpa [and_assoc] using hlanes
    have harm : exec (.marginComplete lanes) s = execMarginComplete lanes s := rfl
    intro hd
    rw [harm, execMarginComplete, if_neg (by rw [hgood]; simp), hm]
    exact guardNext_of (by simp [hfw, hlen])

end Sys2Proof.Machine
end

section
/-! The recorder and the store (18 R398 to R410). -/
namespace Sys2Proof.Machine

theorem evrAdd_boot (s : State) (code sev src : Nat) (ps : List Nat) : (evrAdd s code sev src ps).boot = s.boot := by
  obtain ⟨_, h⟩ := evrAdd_frame s code sev src ps
  rw [h]

theorem boot_setBank (s : State) (b : Nat) (v : Option (List Nat)) : (setBank s b v).boot = s.boot := by
  unfold setBank
  split <;> rfl

/-- A write of the store leaves PERST_N. -/
theorem perstN_storeWrite (s : State) (res : FlashRes) : (storeWrite s res).boot.perstN = s.boot.perstN := by
  unfold storeWrite
  split
  · rfl
  · dsimp only
    generalize (if storeAgain s = true then s.lastBank else 1 - s.lastBank) = b
    split
    · rw [flashFailRec, evrAdd_boot, boot_setBank]
    · split
      · rw [flashFailRec, evrAdd_boot, boot_setBank]
      · rw [flashBegin, boot_setBank]

theorem flashThen_idle {s : State} (es : List FlashEnd) (h : s.flashOps = []) : flashThen s es = es.foldl flashEnd1 s := by
  rw [flashThen, h]
  rfl

theorem flashThen_last {s : State} {os : List FlashOp} {o : FlashOp} (es : List FlashEnd) (h : s.flashOps = os ++ [o]) :
    flashThen s es = { s with flashOps := os ++ [{ o with ends := o.ends ++ es }] } := by
  rw [flashThen, h, List.getLast?_concat, List.dropLast_concat]

/-- The oldest record goes into the next slot of the flash ring. -/
theorem evrFlushOne_record {s : State} {r : Rec} {rest : List Rec} {sec slot : Nat} (hdead : s.evr.flash.any (·.dead) = false)
    (hram : s.evr.ram = r :: rest) (hslot : ringSlot s.evr.flash = some (sec, slot)) (hpresent : s.evr.absent = false)
    (hworn : tfind s.fuse.worn (ringAddr sec slot / 65536) ≠ some 1) : evrFlushOne s .done = flashBegin
      { s with evr := { s.evr with flash := s.evr.flash ++ [{ sec := sec, slot := slot, r := r }], ram := rest } } (.record sec slot) := by
  have hfind : s.evr.flash.find? (·.dead) = none := by
    rw [List.find?_eq_none]
    exact fun z hz hd => (List.any_eq_false.mp hdead z hz) hd
  have hfails : ¬ flashFails s (ringAddr sec slot) 1 .done = true := by rw [flashFails_done hpresent hworn]; nofun
  unfold evrFlushOne
  rw [hfind, hram]
  dsimp only
  unfold ringWrite
  rw [hslot]
  exact if_neg hfails

/-- CALIB_WRITE of the board configuration. -/
theorem calibWriteBody_board {s : State} {r : CmdRef} {w : Nat} (hboard : bitOf w 8 = true) (hlen : fld w 447 416 = 64) :
    calibWriteBody s r w = calBoard s r (hostRead s (fld w 511 448) 64) := by
  have hlen' : ¬ (fld w 447 416 != 64) = true := by simp [hlen]
  refine (if_pos hboard).trans ((if_neg hlen').trans ?_)
  rw [hlen]

/-- CALIB_WRITE of the calibration set. -/
theorem calibWriteBody_set {s : State} {r : CmdRef} {w : Nat} (hset : bitOf w 8 = false) (hlen : fld w 447 416 = 622912) :
    calibWriteBody s r w = if calOk (hostRead s (fld w 511 448) 622912) = true then calSet s r (calSeal (hostRead s (fld w 511 448) 622912) 1)
      else complete s r 0x0801 0 0 := by
  have hset' : ¬ bitOf w 8 = true := by simp [hset]
  refine (if_neg hset').trans ?_
  rw [hlen]
  cases hok : calOk (hostRead s (fld w 511 448) 622912) with
  | false => exact if_pos rfl
  | true => exact if_neg (by simp)

/-- CALIB_READ of the board configuration. -/
theorem calibReadBody_board {s : State} {r : CmdRef} {w : Nat} (hboard : bitOf w 8 = true) (hlen : fld w 447 416 = 64) :
    (∀ b, chosenBank s = some b → calibReadBody s r w = complete (hostPut s (fld w 511 448) b.board) r 0 0 0)
    ∧ (chosenBank s = none → calibReadBody s r w = complete (hostPut s (fld w 511 448) defaultBoard) r 0 0 1) := by
  have hlen' : ¬ (fld w 447 416 != 64) = true := by simp [hlen]
  refine ⟨fun b hb => (if_pos hboard).trans ((if_neg hlen').trans ?_), fun hb => (if_pos hboard).trans ((if_neg hlen').trans ?_)⟩
  · rw [hb]
  · rw [hb]

/-- CALIB_READ of the calibration set. -/
theorem calibReadBody_set {s : State} {r : CmdRef} {w : Nat} (hset : bitOf w 8 = false) (hlen : fld w 447 416 = 622912) :
    (∀ c, s.calib.filter calOk = some c → calibReadBody s r w = complete (hostPut s (fld w 511 448) c) r 0 0 0)
    ∧ (s.calib.filter calOk = none → calibReadBody s r w = complete (hostPut s (fld w 511 448) calDefault) r 0 0 1) := by
  have hset' : ¬ bitOf w 8 = true := by simp [hset]
  have hlen' : ¬ (fld w 447 416 != 622912) = true := by simp [hlen]
  refine ⟨fun c hc => (if_neg hset').trans ((if_neg hlen').trans ?_), fun hc => (if_neg hset').trans ((if_neg hlen').trans ?_)⟩
  · rw [hc]
  · rw [hc]

/-- The state once a board configuration is in the working copy and the store is written. -/
def boardStored (s : State) (bs : List Nat) : State :=
  storeWrite { s with boot := { s.boot with board := bs.take 4 ++ List.replicate 60 0 } } .done

/-- What the bank of a board configuration holds, once it is written. -/
def boardBank (t : State) : Option (List Nat) := if t.boot.perstN then bankAt t t.lastBank else some (bankImage (nextBank t))

theorem calBoard_stored {s : State} {r : CmdRef} {bs c : List Nat} (hc : boardBank (boardStored s bs) = some c) :
    calBoard s r bs = flashThen (boardStored s bs) [.written 1 (bankCrc (some c)), .answer r] := by
  unfold boardBank boardStored at hc
  unfold calBoard
  dsimp only
  rw [hc]
  rfl

theorem calBoard_unfinished {s : State} {r : CmdRef} {bs : List Nat} (hc : boardBank (boardStored s bs) = none) :
    calBoard s r bs = calUnfinished (boardStored s bs) r := by
  unfold boardBank boardStored at hc
  unfold calBoard
  dsimp only
  rw [hc]
  rfl

/-- Settles O39. -/
theorem recorderAndStoreCommandsComplete : Obligations.RecorderAndStoreCommandsComplete := by
  refine ⟨fun s e x h => hostExec_pf evrFreezeBody h rfl, fun s e x h => hostExec_pf evrUnfreezeBody h rfl,
    fun s e x h hmask => (hostExec_pf evrClearBody h rfl).trans (congrArg Host.Outcome.next (if_neg hmask)), fun s es => flashThen_idle es,
    fun s es os o => flashThen_last es, fun s e x h => ?read, fun s e x h hboard hlen => ?board, fun s e x h hset hlen => ?set,
    fun s hup hindex => ?advance, fun s r rest sec slot hfw hperst honly hdead hram hslot hworn => ?record,
    fun s res z hfw hperst honly hdead => ?compact, fun s hfw hfrozen hat => guardNext_of (by simp [hfw, hfrozen, hat]),
    fun s res hfw hhour hpos => guardNext_of (by simp [hfw, hhour, hpos])⟩
  case read =>
    have hexec := hostExec_pf calibReadBody h rfl
    refine ⟨fun b hboard hlen hb => ?_, fun hboard hlen hb => ?_, fun c hset hlen hc hok => ?_, fun hset hlen hc => ?_⟩
    · exact hexec.trans (congrArg Host.Outcome.next ((calibReadBody_board (s := taken s x) hboard hlen).1 b hb))
    · exact hexec.trans (congrArg Host.Outcome.next ((calibReadBody_board (s := taken s x) hboard hlen).2 hb))
    · exact hexec.trans (congrArg Host.Outcome.next ((calibReadBody_set (s := taken s x) hset hlen).1 c
        (Option.filter_eq_some_iff.mpr ⟨hc, hok⟩)))
    · exact hexec.trans (congrArg Host.Outcome.next ((calibReadBody_set (s := taken s x) hset hlen).2 hc))
  case board =>
    intro t
    have hexec : exec (.calibWrite 0 0 e) s = .next (calBoard (taken s x) (cmdOf 0 0 x e) (hostRead s (fld e.toNat 511 448) 64)) :=
      (hostExec_pf calibWriteBody h rfl).trans (congrArg Host.Outcome.next (calibWriteBody_board (s := taken s x) hboard hlen))
    have hperst : t.boot.perstN = s.boot.perstN := perstN_storeWrite ..
    refine ⟨fun c hon hbank => hexec.trans (congrArg Host.Outcome.next (calBoard_stored (s := taken s x) ?_)),
      fun hon hbank => hexec.trans (congrArg Host.Outcome.next (calBoard_unfinished (s := taken s x) ?_)),
      fun hoff => hexec.trans (congrArg Host.Outcome.next (calBoard_stored (s := taken s x) ?_))⟩
    · exact (if_pos (hperst.trans hon)).trans hbank
    · exact (if_pos (hperst.trans hon)).trans hbank
    · exact if_neg (by rw [Bool.not_eq_true]; exact hperst.trans hoff)
  case set =>
    intro bs b
    have hexec := (hostExec_pf calibWriteBody h rfl).trans (congrArg Host.Outcome.next (calibWriteBody_set (s := taken s x) (r := cmdOf 0 0 x e)
        hset hlen))
    refine ⟨fun hbad => hexec.trans (congrArg Host.Outcome.next (if_neg ?_)),
      fun hok hfail => hexec.trans (congrArg Host.Outcome.next ((if_pos hok).trans ?_))⟩
    · have hbad : calOk (hostRead (taken s x) (fld e.toNat 511 448) 622912) = false := hbad
      rw [hbad]
      nofun
    · have hfail : calFail (taken s x) = none := hfail
      unfold calSet
      rw [hfail]
      rfl
  case advance =>
    refine (guardNext_of hup).trans (congrArg Host.Outcome.next ?_)
    unfold evrAdvance
    dsimp only
    rw [if_pos hindex]
  case record =>
    have hpresent : s.evr.absent = false := (Bool.or_eq_false_iff.mp honly).2
    exact (guardNext_of (by simp [evrFlushOk, ringBusy, hfw, hperst, honly, hram])).trans
      (congrArg Host.Outcome.next (evrFlushOne_record hdead hram hslot hpresent hworn))
  case compact =>
    have hany : s.evr.flash.any (·.dead) = true := List.any_eq_true.mpr ⟨z, List.mem_of_find?_eq_some hdead, List.find?_some hdead⟩
    refine (guardNext_of (by simp [evrFlushOk, ringBusy, hfw, hperst, honly, hany])).trans (congrArg Host.Outcome.next ?_)
    unfold evrFlushOne
    rw [hdead]

end Sys2Proof.Machine
end

section
/-! EVR_CLEAR (18 R402): the order of the log, and what a clearing leaves in the rings. -/
namespace Sys2Proof.Machine

/-! Records in the order of their keys. -/

/-- Ascending keys. -/
def RecSorted (l : List Rec) : Prop := l.Pairwise fun a b => recKey a ≤ recKey b

theorem recInsert_of_le {r : Rec} {l : List Rec} (h : ∀ a ∈ l, recKey r ≤ recKey a) : recInsert r l = r :: l := by
  cases l with
  | nil => rfl
  | cons a l => exact if_pos (h a List.mem_cons_self)

theorem mem_recInsert {r a : Rec} {l : List Rec} (h : a ∈ recInsert r l) : a = r ∨ a ∈ l := by
  induction l with
  | nil => exact .inl (List.mem_singleton.mp h)
  | cons b l ih =>
    rw [recInsert] at h
    split at h
    · exact List.mem_cons.mp h
    · rcases List.mem_cons.mp h with rfl | h
      · exact .inr List.mem_cons_self
      · exact (ih h).imp id (List.mem_cons_of_mem _)

theorem recSorted_recInsert {r : Rec} {l : List Rec} (h : RecSorted l) : RecSorted (recInsert r l) := by
  induction l with
  | nil => exact List.pairwise_singleton ..
  | cons b l ih =>
    obtain ⟨hb, hl⟩ := List.pairwise_cons.mp h
    rw [recInsert]
    split
    case isTrue hle => exact List.pairwise_cons.mpr ⟨fun a ha => by
      rcases List.mem_cons.mp ha with rfl | ha
      · exact hle
      · exact hle.trans (hb a ha), h⟩
    case isFalse hgt => exact List.pairwise_cons.mpr ⟨fun a ha => by
      rcases mem_recInsert ha with rfl | ha
      · omega
      · exact hb a ha, ih hl⟩

theorem recSorted_recSort (l : List Rec) : RecSorted (recSort l) := by
  induction l with
  | nil => exact List.Pairwise.nil
  | cons a l ih => exact recSorted_recInsert ih

theorem recSort_of_sorted {l : List Rec} (h : RecSorted l) : recSort l = l := by
  induction l with
  | nil => rfl
  | cons a l ih =>
    obtain ⟨ha, hl⟩ := List.pairwise_cons.mp h
    have hsame : recSort (a :: l) = recInsert a l := congrArg (recInsert a) (ih hl)
    rw [hsame, recInsert_of_le ha]

/-- A selection of an insertion. -/
theorem filter_recInsert {p : Rec → Bool} {r : Rec} {l : List Rec} (h : RecSorted l) :
    (recInsert r l).filter p = if p r then recInsert r (l.filter p) else l.filter p := by
  induction l with
  | nil => cases hp : p r <;> simp [recInsert, hp]
  | cons b l ih =>
    obtain ⟨hb, hl⟩ := List.pairwise_cons.mp h
    rw [recInsert]
    split
    case isTrue hle =>
      have hfirst : ∀ a ∈ (b :: l).filter p, recKey r ≤ recKey a := fun a ha => by
        rcases List.mem_cons.mp (List.mem_filter.mp ha).1 with rfl | ha
        · exact hle
        · exact hle.trans (hb a ha)
      rw [recInsert_of_le hfirst, List.filter_cons]
    case isFalse hgt =>
      rw [List.filter_cons, List.filter_cons, ih hl]
      cases hp : p b with
      | false => rfl
      | true =>
        rw [if_pos rfl, if_pos rfl, recInsert, if_neg hgt]
        split <;> rfl

/-- Sorting keeps a selection's order. -/
theorem filter_recSort (p : Rec → Bool) (l : List Rec) : (recSort l).filter p = recSort (l.filter p) := by
  induction l with
  | nil => rfl
  | cons a l ih =>
    have hcons : recSort (a :: l) = recInsert a (recSort l) := rfl
    rw [hcons, filter_recInsert (recSorted_recSort l), ih, List.filter_cons]
    split <;> rfl

/-- Insertions of records with different keys commute. -/
theorem recInsert_comm {a b : Rec} {l : List Rec} (hkey : recKey b < recKey a) (h : RecSorted l) :
    recInsert b (recInsert a l) = recInsert a (recInsert b l) := by
  induction l with
  | nil =>
    have hab : ¬ recKey a ≤ recKey b := by omega
    simp [recInsert, hab, hkey.le]
  | cons c l ih =>
    obtain ⟨hc, hl⟩ := List.pairwise_cons.mp h
    have hab : ¬ recKey a ≤ recKey b := by omega
    by_cases hac : recKey a ≤ recKey c
    · have hbc : recKey b ≤ recKey c := hkey.le.trans hac
      simp [recInsert, hac, hbc, hab, hkey.le]
    · by_cases hbc : recKey b ≤ recKey c
      · simp [recInsert, hac, hbc, hab]
      · simp [recInsert, hac, hbc, ih hl]

theorem foldr_recInsert_sorted {l : List Rec} (m : List Rec) (h : RecSorted l) : RecSorted (m.foldr recInsert l) := by
  induction m with
  | nil => exact h
  | cons a m ih => exact recSorted_recInsert ih

theorem foldr_recInsert_recInsert {a : Rec} {l m : List Rec} (hm : RecSorted m) (h : RecSorted l) :
    (recInsert a m).foldr recInsert l = recInsert a (m.foldr recInsert l) := by
  induction m with
  | nil => rfl
  | cons b m ih =>
    obtain ⟨-, hm⟩ := List.pairwise_cons.mp hm
    rw [recInsert]
    split
    case isTrue => rfl
    case isFalse hgt =>
      rw [List.foldr_cons, ih hm, List.foldr_cons]
      exact recInsert_comm (by omega) (foldr_recInsert_sorted m h)

/-- Records that are sorted before others join them. -/
theorem recSort_recSort_append (l m : List Rec) : recSort (recSort l ++ m) = recSort (l ++ m) := by
  have hfold : ∀ l : List Rec, (recSort l).foldr recInsert (recSort m) = l.foldr recInsert (recSort m) := fun l => by
    induction l with
    | nil => rfl
    | cons a l ih =>
      have hcons : recSort (a :: l) = recInsert a (recSort l) := rfl
      rw [hcons, foldr_recInsert_recInsert (recSorted_recSort l) (recSorted_recSort m), ih, List.foldr_cons]
  have happend : ∀ l : List Rec, recSort (l ++ m) = l.foldr recInsert (recSort m) := fun l => List.foldr_append ..
  rw [happend, happend, hfold]

/-- A record of the greatest key comes last. -/
theorem recSort_append_newest {l : List Rec} {r : Rec} (h : RecSorted l) (hr : ∀ a ∈ l, recKey a ≤ recKey r) : recSort (l ++ [r]) = l ++ [r] :=
  recSort_of_sorted (List.pairwise_append.mpr ⟨h, List.pairwise_singleton .., fun a ha _ hb => List.mem_singleton.mp hb ▸ hr a ha⟩)

/-! The flash ring. -/

/-- The records of a ring that are in the log. -/
def liveRecs (f : List FRec) : List Rec := (f.filter fun x => !x.dead && x.cut.isNone).map (·.r)

theorem liveRecs_cons (x : FRec) (f : List FRec) : liveRecs (x :: f) = if x.dead = false ∧ x.cut = none then x.r :: liveRecs f else liveRecs f := by
  cases hd : x.dead <;> cases hc : x.cut <;> simp [liveRecs, hd, hc]

/-- A compaction moves the records of a sector and leaves the log. -/
theorem liveRecs_ringMove (sec sp n : Nat) (f : List FRec) : liveRecs (ringMove sec sp n f) = liveRecs f := by
  induction f generalizing n with
  | nil => rfl
  | cons x f ih =>
    rw [ringMove, liveRecs_cons x f]
    split
    · rw [liveRecs_cons, ih]
    · split
      case isTrue hgone => rw [ih, if_neg (by cases hd : x.dead <;> cases hc : x.cut <;> simp_all)]
      case isFalse hlive =>
        have hx : x.dead = false ∧ x.cut = none := by cases hd : x.dead <;> cases hc : x.cut <;> simp_all
        rw [liveRecs_cons, ih, if_pos hx]

/-- A removal marks the records that are not kept. -/
theorem liveRecs_marked (keep : Rec → Bool) (f : List FRec) :
    liveRecs (f.map fun x => { x with dead := x.dead || !keep x.r }) = (liveRecs f).filter keep := by
  induction f with
  | nil => rfl
  | cons x f ih =>
    rw [List.map_cons, liveRecs_cons, liveRecs_cons, ih]
    cases hd : x.dead <;> cases hc : x.cut <;> cases hk : keep x.r <;> simp [hk]

/-- A slot of a record that is not kept is cleared. -/
theorem liveRecs_clearRec {keep : Rec → Bool} {f : List FRec} (h : ∀ r ∈ liveRecs f, keep r = true) : liveRecs (f.map (clearRec keep)) = liveRecs f :=
    by
  induction f with
  | nil => rfl
  | cons x f ih =>
    rw [liveRecs_cons] at h
    rw [List.map_cons, liveRecs_cons, liveRecs_cons x f]
    by_cases hx : x.dead = false ∧ x.cut = none
    · rw [if_pos hx] at h ⊢
      have hkeep : clearRec keep x = x := if_pos (by simp [h x.r List.mem_cons_self])
      rw [hkeep, if_pos hx, ih fun r hr => h r (List.mem_cons_of_mem _ hr)]
    · rw [if_neg hx] at h ⊢
      rw [ih h, if_neg]
      unfold clearRec
      split
      · exact hx
      · simp

/-! A clearing. -/

/-- `t` is `s` but for the flash ring's slots and the operations under way; the records in the log are the same. -/
def SameLog (s t : State) : Prop :=
  ∃ flash ops, t = { s with evr := { s.evr with flash := flash }, flashOps := ops } ∧ liveRecs flash = liveRecs s.evr.flash

theorem sameLog_clearSec {s : State} (sec : Nat) (hgood : s.evr.absent = true ∨ s.fuse.worn = []) : SameLog s (clearSec s sec) := by
  unfold clearSec
  split
  · exact ⟨_, _, rfl, rfl⟩
  case isFalse hpresent =>
    have hfails : ∀ addr op, flashFails s addr op .done = false := fun addr op => by
      have hworn : s.fuse.worn = [] := hgood.resolve_left hpresent
      exact flashFails_done (by simpa using hpresent) (by rw [hworn]; nofun)
    have hcompact : ringCompact s sec .done = flashBegin
        { s with evr := { s.evr with flash := ringMove sec (ringSpare s.evr.flash) 0 s.evr.flash } } (.compact s.evr.flash) := by
      unfold ringCompact
      dsimp only
      rw [hfails, hfails, Bool.and_false, if_neg Bool.false_ne_true, if_neg Bool.false_ne_true]
    rw [hcompact]
    exact ⟨_, _, rfl, liveRecs_ringMove ..⟩

theorem sameLog_clearSecs {s : State} (l : List Nat) (hgood : s.evr.absent = true ∨ s.fuse.worn = []) : SameLog s (l.foldl clearSec s) := by
  induction l generalizing s with
  | nil => exact ⟨_, _, rfl, rfl⟩
  | cons sec l ih =>
    obtain ⟨flash, ops, hone, hlive⟩ := sameLog_clearSec sec hgood
    obtain ⟨flash', ops', hrest, hlive'⟩ := ih (s := clearSec s sec) (by rw [hone]; exact hgood)
    refine ⟨flash', ops', ?_, ?_⟩
    · rw [List.foldl_cons, hrest, hone]
    · rw [hlive', hone]
      exact hlive

/-- The record of a clearing. -/
def clearedRec (s : State) (mask : Nat) : Rec :=
  let n := fun v => if bitOf mask v then ((evrLog s.evr).filter fun r => r.sev == v).length else 0
  mkRec s 0x0B12 1 0 [n 0, n 1, n 2, n 3]

/-- The recorder with the removed records marked. -/
def clearMarked (s : State) (mask : Nat) : State :=
  let keep := fun (r : Rec) => !bitOf mask r.sev
  { s with evr := { s.evr with
      flash := s.evr.flash.map fun x => { x with dead := x.dead || !keep x.r }, ram := s.evr.ram.filter keep, index := 0
      stampSec := (clearedRec s mask).secs, stampSub := (clearedRec s mask).sub + 1 } }

theorem evrClear_eq (s : State) (mask : Nat) :
    let secs := (List.range 9).filter fun i => s.evr.flash.any fun x => x.sec == i && !x.dead && x.cut.isNone && !!bitOf mask x.r.sev
    let t := secs.foldl clearSec (clearMarked s mask)
    evrClear s mask = { t with
      evr := evrEnter { t.evr with flash := t.evr.flash.map (clearRec fun r => !bitOf mask r.sev) } (clearedRec s mask) } := rfl

/-- A log with room takes a record. -/
theorem evrEnter_room {e : Evr} {r : Rec} (hlog : (evrLog e).length < evrCap e) (hram : e.ram.length < 4096) :
    evrEnter e r = { e with ram := e.ram ++ [r] } := if_pos (by simp [hlog, hram])

/-- The recorder after a clearing, before EVR_CLEARED enters it. -/
def clearKept (s : State) (mask : Nat) (flash : List FRec) : Evr :=
  { s.evr with flash := flash, ram := s.evr.ram.filter fun r => !bitOf mask r.sev, index := 0
               stampSec := (clearedRec s mask).secs, stampSub := (clearedRec s mask).sub + 1 }

/-- A clearing keeps the records of the severities that are not selected, in both rings. -/
theorem evrClear_kept (s : State) (mask : Nat) (hgood : s.evr.absent = true ∨ s.fuse.worn = []) : ∃ flash ops,
    evrClear s mask = { s with evr := evrEnter (clearKept s mask flash) (clearedRec s mask), flashOps := ops }
    ∧ liveRecs flash = (liveRecs s.evr.flash).filter fun r => !bitOf mask r.sev := by
  obtain ⟨flash, ops, ht, hlive⟩ := sameLog_clearSecs (s := clearMarked s mask)
    ((List.range 9).filter fun i => s.evr.flash.any fun x => x.sec == i && !x.dead && x.cut.isNone && !!bitOf mask x.r.sev) hgood
  have hkept : liveRecs flash = (liveRecs s.evr.flash).filter fun r => !bitOf mask r.sev :=
      hlive.trans (liveRecs_marked (fun r => !bitOf mask r.sev) s.evr.flash)
  refine ⟨flash.map (clearRec fun r => !bitOf mask r.sev), ops, ?_, ?_⟩
  · rw [evrClear_eq]
    dsimp only
    rw [ht]
    rfl
  · rw [liveRecs_clearRec fun r hr => ?_, hkept]
    rw [hkept] at hr
    exact (List.mem_filter.mp hr).2

/-- The log of what is kept. -/
theorem evrLog_clearKept {s : State} {mask : Nat} {flash : List FRec}
    (h : liveRecs flash = (liveRecs s.evr.flash).filter fun r => !bitOf mask r.sev) :
    evrLog (clearKept s mask flash) = (evrLog s.evr).filter fun r => !bitOf mask r.sev := by
  have hlive : evrLive (clearKept s mask flash) = (evrLive s.evr).filter fun r => !bitOf mask r.sev := h
  have honly : ramOnly (clearKept s mask flash) = ramOnly s.evr := rfl
  unfold evrLog
  rw [filter_recSort, honly]
  split
  · rfl
  · rw [hlive, List.filter_append]
    rfl

/-- The log once EVR_CLEARED has entered it. -/
theorem evrLog_cleared {s : State} {mask : Nat} {flash : List FRec} {r : Rec}
    (h : liveRecs flash = (liveRecs s.evr.flash).filter fun r => !bitOf mask r.sev) :
    evrLog { clearKept s mask flash with ram := (clearKept s mask flash).ram ++ [r] }
      = recSort (((evrLog s.evr).filter fun r => !bitOf mask r.sev) ++ [r]) := by
  have hlive : evrLive { clearKept s mask flash with ram := (clearKept s mask flash).ram ++ [r] }
      = (evrLive s.evr).filter fun r => !bitOf mask r.sev := h
  have honly : ramOnly { clearKept s mask flash with ram := (clearKept s mask flash).ram ++ [r] } = ramOnly s.evr := rfl
  unfold evrLog
  rw [filter_recSort, recSort_recSort_append, honly]
  split
  · rfl
  · rw [hlive, List.filter_append, List.append_assoc]
    rfl

/-- The counts of EVR_CLEARED. -/
theorem ps_clearedRec (s : State) (mask : Nat) : (clearedRec s mask).ps =
    (List.range 4).map fun v => ((evrLog s.evr).filter fun q => q.sev = v && bitOf mask v).length % 2 ^ 32 := by
  have hcount : ∀ v, (if bitOf mask v = true then ((evrLog s.evr).filter fun r => r.sev == v).length else 0)
      = ((evrLog s.evr).filter fun q => decide (q.sev = v) && bitOf mask v).length := fun v => by
    cases hv : bitOf mask v with
    | false => simp
    | true =>
      rw [if_pos rfl]
      refine congrArg List.length (List.filter_congr fun r _ => ?_)
      rw [Bool.and_true]
      rfl
  refine List.map_congr_left fun v hv => ?_
  rw [← hcount]
  have hlt : v < 4 := List.mem_range.mp hv
  obtain rfl | rfl | rfl | rfl : v = 0 ∨ v = 1 ∨ v = 2 ∨ v = 3 := by omega
  all_goals rfl

/-- Settles O40. -/
theorem clearedSeveritiesLeaveTheLog : Obligations.ClearedSeveritiesLeaveTheLog := by
  refine ⟨fun s e x h => ?command, fun s mask hgood => ?rings⟩
  case command =>
    have hexec := hostExec_pf evrClearBody h rfl
    exact ⟨fun hzero => hexec.trans (congrArg Host.Outcome.next (if_pos hzero)),
      fun hmask => hexec.trans (congrArg Host.Outcome.next (if_neg hmask))⟩
  case rings =>
    intro keep t hlog hram
    obtain ⟨flash, ops, ht, hlive⟩ := evrClear_kept s mask hgood
    have hkept := evrLog_clearKept hlive
    have hcap : evrCap (clearKept s mask flash) = evrCap s.evr := rfl
    rw [evrEnter_room (by rw [hkept, hcap]; exact hlog) hram] at ht
    have hall : evrLog t.evr = recSort ((evrLog s.evr).filter keep ++ [clearedRec s mask]) := by
      show evrLog (evrClear s mask).evr = _
      rw [ht]
      exact evrLog_cleared hlive
    refine ⟨clearedRec s mask, rfl, rfl, hall, fun hnewest => ?newest, ps_clearedRec s mask, ?live, ?frame⟩
    case newest =>
      rw [hall]
      refine recSort_append_newest ?_ fun a ha => hnewest a (List.mem_filter.mp ha).1
      exact (recSorted_recSort _).filter _
    case live =>
      show evrLive (evrClear s mask).evr = _
      rw [ht]
      exact hlive
    case frame =>
      have ht : t = _ := ht
      rw [ht]
      exact ⟨rfl, rfl, rfl, rfl⟩

end Sys2Proof.Machine
end

section
/-! Requests: SUBMIT, dispatch and completion (01 R28; 07 R180; 13 R291; 14 R318; 16 R369, R371). -/
namespace Sys2Proof.Machine

/-! What an answer to a command leaves unchanged. -/

/-- All but the functions, host memory and the messages is as in `s`. -/
def Answers (s t : State) : Prop := ∃ fns hmem msixOut, t = { s with fns := fns, hmem := hmem, msixOut := msixOut }

theorem Answers.refl (s : State) : Answers s s := ⟨s.fns, s.hmem, s.msixOut, rfl⟩

theorem Answers.trans {s t u : State} (h : Answers s t) (h' : Answers t u) : Answers s u := by
  obtain ⟨_, _, _, rfl⟩ := h
  obtain ⟨_, _, _, rfl⟩ := h'
  exact ⟨_, _, _, rfl⟩

theorem answers_modFn (s : State) (f : Nat) (g : Fn → Fn) : Answers s (modFn s f g) := ⟨_, s.hmem, s.msixOut, rfl⟩

theorem answers_hostPut (s : State) (a : Nat) (bs : List Nat) : Answers s (hostPut s a bs) := ⟨s.fns, _, s.msixOut, rfl⟩

theorem answers_msix (s : State) (f v : Nat) : Answers s (msix s f v) := by
  unfold msix
  dsimp only
  split
  · exact ⟨s.fns, s.hmem, _, rfl⟩
  · exact ⟨_, s.hmem, s.msixOut, rfl⟩

theorem answers_message {s u : State} (c : Bool) (hu : Answers s u) (f v : Nat) : Answers s (if c then msix u f v else u) := by
  cases c
  · exact hu
  · exact hu.trans (answers_msix u f v)

theorem answers_cqDrain (n : Nat) (s : State) (f qi : Nat) : Answers s (cqDrain n s f qi) := by
  induction n generalizing s with
  | zero => exact .refl s
  | succ n ih =>
    unfold cqDrain
    split
    · exact .refl s
    · split
      · exact .refl s
      · split
        · exact .refl s
        · exact .trans (answers_message _ ((answers_hostPut ..).trans (answers_modFn ..)) ..) (ih _)

theorem answers_completeX (s : State) (r : CmdRef) (flags status late param result : Nat) :
    Answers s (completeX s r flags status late param result) := by
  unfold completeX
  split
  · exact .refl s
  · split
    · exact .refl s
    · exact (answers_modFn ..).trans (answers_cqDrain ..)

theorem jobOf_complete (s : State) (r : CmdRef) (status param result j : Nat) : jobOf (complete s r status param result) j = jobOf s j := by
  obtain ⟨_, _, _, h⟩ := answers_completeX s r 0 status 0 param result
  rw [complete, h]
  rfl

/-! SUBMIT. -/

/-- A SUBMIT of legal header words is noted in no job before it runs. -/
theorem submitSlip_of_legal {s : State} {f q : Nat} {e : Entry} (hq : q ≠ 0) (hhdr : fld e.toNat 47 32 = 0) (hresv : fld e.toNat 127 64 = 0) :
    submitSlip s f q e = s := by
  unfold submitSlip
  dsimp only
  split
  · exact if_pos (by simp [hq, hhdr, hresv])
  · rfl

/-- Such a SUBMIT reaches its body. -/
theorem exec_submit {s : State} {f q : Nat} {e : Entry} {x : Fetched} (h : Takes 0x40 s f q e x) (hq : q ≠ 0) (hresv : fld e.toNat 127 64 = 0) :
    exec (.submit f q e) s = .next (submitBody x.at_ (taken s x) (cmdOf f q x e) e.toNat) := by
  have harm : exec (.submit f q e) s = execSubmit f q e s := rfl
  rw [harm, execSubmit, submitSlip_of_legal hq h.resv hresv, h.front]
  exact hostExec_io (submitBody x.at_) h hq hresv rfl

section
variable {s : State} {r : CmdRef} {at_ w j : Nat} {y : Job} (hs : slotOf s (fld w 63 48) = some j) (hj : jobOf s j = some y) (hf : y.fn = r.fn)
  (hready : y.ready = true) (hlc : y.lc = true → fld w 191 160 ≠ 0) (hext : bitOf w 9 = true → fld w 511 448 % 32 = 0)
  (hfresh : tfind y.reqEnds y.subs = none)
include hs hj hf hready hlc hext hfresh

/-- A SUBMIT of legal fields is tested against the plan's bounds. -/
theorem submitBody_legal : submitBody at_ s r w =
    let mhz := setMhz s y.cups
    let q : Req := { ref := r, shapes := shapeVals s w, pass := fld w 159 128, chain := bitOf w 8, abs := (at_ + fld w 191 160) * 1600
                     at_ := cycNow s, c := lcCyc s y.plan mhz, bound := 0, fs := mhz, num := y.subs, throttled := s.power.clamp }
    if shapesOver y.plan (shapeVals s w) then refuseReq s j y r y.subs (fld w 159 128) 0x0103
    else if y.lc then submitLc s j y q
    else queueReq s j y q (y.queue ++ [q]) := by
  have hlegal : ¬ ((y.lc && decide (fld w 191 160 = 0)) || (bitOf w 9 && fld w 511 448 % 32 != 0)) = true := by
    rw [Bool.or_eq_true, Bool.and_eq_true, Bool.and_eq_true, decide_eq_true_eq, bne_iff_ne]
    rintro (⟨h, h'⟩ | ⟨h, h'⟩)
    · exact hlc h h'
    · exact h' (hext h)
  refine (withJob_own _ hs hj hf).trans ((if_neg (by simp [hready])).trans ((if_neg hlegal).trans ?_))
  dsimp only
  rw [hfresh]

/-- One with a shape value above its bound is refused. -/
theorem submitBody_over (hover : shapesOver y.plan (shapeVals s w) = true) :
    submitBody at_ s r w = refuseReq s j y r y.subs (fld w 159 128) 0x0103 :=
  (submitBody_legal hs hj hf hready hlc hext hfresh).trans (if_pos hover)

end

/-- A refused request is taken out of its job's numbers, the other members are told, and its answer is given or waits. -/
theorem refuseReq_of_job {s : State} {j : Nat} {y : Job} {r : CmdRef} {num pass st : Nat} (hj : jobOf s j = some y) :
    let u := setJob (if y.m ≤ 1 then s else ctlAll s y 4 st num) j (submitGone y num pass)
    refuseReq s j y r num pass st = if y.m ≤ 1 then complete u r st 0 0
      else setJob u j { submitGone y num pass with enders := (submitGone y num pass).enders ++ [⟨r, num, y.l, st, 0⟩] } := by
  have hbase : jobOf (if y.m ≤ 1 then s else ctlAll s y 4 st num) j = some y := by
    split
    · exact hj
    · rw [jobOf_ctlAll, hj]
  unfold refuseReq submitEnd reqAnswer
  rw [modJob_of_job _ hbase, modJob_of_job _ (jobOf_setJob_self ..)]

/-- Its job afterwards. -/
theorem jobOf_refuseReq {s : State} {j : Nat} {y : Job} {r : CmdRef} {num pass st : Nat} (hj : jobOf s j = some y) :
    jobOf (refuseReq s j y r num pass st) j = some (if y.m ≤ 1 then submitGone y num pass
      else { submitGone y num pass with enders := (submitGone y num pass).enders ++ [⟨r, num, y.l, st, 0⟩] }) := by
  rw [refuseReq_of_job hj]
  split
  · exact (jobOf_complete ..).trans (jobOf_setJob_self ..)
  · exact jobOf_setJob_self ..

/-- Refusing a request writes nothing to the device. -/
theorem refuseReq_data {s : State} {j : Nat} {y : Job} {r : CmdRef} {num pass st : Nat} (hj : jobOf s j = some y) :
    let t := refuseReq s j y r num pass st
    t.mem = s.mem ∧ t.far = s.far ∧ t.spires = s.spires ∧ t.writes = s.writes := by
  intro t
  have ht : t = _ := refuseReq_of_job hj
  rw [ht]
  split
  · obtain ⟨_, _, _, h⟩ := answers_completeX (setJob s j (submitGone y num pass)) r 0 st 0 0 0
    rw [complete, h]
    exact ⟨rfl, rfl, rfl, rfl⟩
  · obtain ⟨_, _, h⟩ := sameButPorts_ctlAll s y 4 st num
    rw [h]
    exact ⟨rfl, rfl, rfl, rfl⟩

/-- A shape value above the bound of a used entry is one above its bound. -/
theorem shapesOver_of_entry {p : Plan} {vals : List Nat} {i : Nat} {b : Shape} (hi : p.shapes[i]? = some b) (hused : b.used = true)
    (hbound : b.bound < nth vals i) : shapesOver p vals = true := by
  unfold shapesOver
  rw [List.any_eq_true]
  refine ⟨true, List.mem_of_getElem? (i := i) ?_, rfl⟩
  rw [List.getElem?_mapIdx, hi]
  simp [hused, hbound]

/-- A value of zero is above no bound. -/
theorem shapesOver_zero (p : Plan) {vals : List Nat} (hvals : ∀ v ∈ vals, v = 0) : shapesOver p vals = false := by
  have hnth : ∀ i, nth vals i = 0 := fun i => by
    unfold nth
    rw [List.getD_eq_getElem?_getD]
    cases hv : vals[i]? with
    | none => rfl
    | some v => exact hvals v (List.mem_of_getElem? hv)
  unfold shapesOver
  rw [List.any_eq_false]
  intro b hb
  obtain ⟨i, hi, rfl⟩ := List.mem_mapIdx.mp hb
  simp [hnth]

/-- Settles O42. -/
theorem shapesAboveTheirBoundAreRefused : Obligations.ShapesAboveTheirBoundAreRefused := by
  refine ⟨fun s f q e x j y h hq hresv hs hj hf hready hlc hext hfresh i b hi hused hbound => ?refused, fun p vals => shapesOver_zero p⟩
  intro y' u held
  have hrun := (exec_submit h hq hresv).trans (congrArg Host.Outcome.next (submitBody_over (s := taken s x) (r := cmdOf f q x e) hs hj hf hready hlc
    hext hfresh (shapesOver_of_entry hi hused hbound)))
  exact ⟨_, hrun, refuseReq_of_job (s := taken s x) hj, jobOf_refuseReq (s := taken s x) hj, rfl, refuseReq_data (s := taken s x) hj⟩

/-- Settles O41. -/
theorem requestCommandsComplete : Obligations.RequestCommandsComplete := by
  refine ⟨fun s f q e x j y h hq hresv hs hj hf hready hlc hone hext hfresh => ?submit,
    fun s j x gi g q rest t hj hg hq hcan hfar hmodels hin hovf => ?dispatch, fun s j x gi g r hj hg hr hfw hsaved hhalt => ?completion⟩
  case submit =>
    intro w b vals mhz rq
    have hbody := (exec_submit h hq hresv).trans (congrArg Host.Outcome.next (submitBody_legal (s := taken s x) (r := cmdOf f q x e) (at_ := x.at_)
      hs hj hf hready (fun hl => (Bool.eq_false_iff.mp hlc hl).elim) (fun hl => (Bool.eq_false_iff.mp hext hl).elim) hfresh))
    have hqueue : shapesOver y.plan vals = false → exec (.submit f q e) s = .next (queueReq b j y rq (y.queue ++ [rq])) := fun hfits =>
      hbody.trans (congrArg Host.Outcome.next ((if_neg (Bool.eq_false_iff.mp hfits)).trans (if_neg (Bool.eq_false_iff.mp hlc))))
    refine ⟨fun hover => ?_, hqueue, fun hfits hprefix hbusy => (hqueue hfits).trans (congrArg Host.Outcome.next ?_)⟩
    · refine hbody.trans (congrArg Host.Outcome.next ((if_pos hover).trans ((refuseReq_of_job (s := taken s x) hj).trans ((if_pos hone).trans ?_))))
      rw [if_pos hone]
    · have hnew : pfxNewAll b j y = b := by
        unfold pfxNewAll
        rw [hprefix]
        rfl
      have hj : jobOf b j = some y := hj
      unfold queueReq readySend
      rw [hnew, hbusy, modJob_of_job _ hj]
      exact if_pos hone
  case dispatch =>
    have harm : exec (.requestDispatch j) s = execRequestDispatch j s := rfl
    have hgone : modelGone s x = false := by
      unfold modelGone
      rw [List.any_eq_false]
      exact fun m hm => by simp [hmodels m hm]
    rw [harm, execRequestDispatch, hj, hg]
    dsimp only
    rw [hq]
    refine (guardNext_of hcan).trans (congrArg Host.Outcome.next ?_)
    unfold dispatchReq
    rw [hfar]
    dsimp only
    rw [if_neg (by simp [hgone]), if_neg (by simp [hin]), hovf]
  case completion =>
    have harm : exec (.requestCompletion j) s = execRequestCompletion j s := rfl
    rw [harm, execRequestCompletion, hj, hg]
    dsimp only
    rw [hr]
    refine ⟨fun hgood => ?_, fun w hbad => ?_⟩
    · rw [hgood]
      exact guardNext_of (by simp [hfw, hsaved, hhalt])
    · rw [hbad]
      exact guardNext_of (by simp [hfw, hsaved, hhalt])

end Sys2Proof.Machine
end

section
/-! Trips, shutdown, alerts, loss of lock and rails (19 R418, R426, R427, R430, R433). -/
namespace Sys2Proof.Machine

/-! The end of a job leaves the power state. -/

section
variable {s0 s t : State}

protected theorem Shrinks.ofPair {α : Type} {a : α} {p : State × α} (e : p = (t, a)) (h : Shrinks s0 p.1) : Shrinks s0 t := by
  subst e
  exact h

protected theorem Shrinks.foldlPair {α β : Type} {f : State × β → α → State × β} {l : List α} {a : State × β}
    (hf : ∀ a x, Shrinks s0 a.1 → Shrinks s0 (f a x).1) (h : Shrinks s0 a.1) : Shrinks s0 (l.foldl f a).1 := by
  induction l generalizing a with
  | nil => exact h
  | cons x l ih => exact ih (hf a x h)

protected theorem Shrinks.endPoint {j : Nat} (h : Shrinks s0 s) : Shrinks s0 (endPoint s j) := by
  unfold endPoint
  split
  · exact .ite (.schedPoint h) h
  · exact h

protected theorem Shrinks.endersEnd {cause : Option Nat} {j : Nat} (h : Shrinks s0 s) : Shrinks s0 (endersEnd cause s j) := by
  unfold endersEnd
  split
  · exact h
  · exact .ite h (.foldl (fun _ _ h => .complete h) (.modJob h))

protected theorem Shrinks.noteOrder {j : Nat} {r : RunReq} (h : Shrinks s0 s) : Shrinks s0 (noteOrder s j r) :=
  .modJob h

protected theorem Shrinks.claimsRelease {j req : Nat} (h : Shrinks s0 s) : Shrinks s0 (claimsRelease s j req) := by
  unfold claimsRelease
  dsimp only
  split
  · exact h
  · exact .modJob (.foldl (fun _ _ h => .claimSend h) h)

protected theorem Shrinks.ovfUnpin {j : Nat} (h : Shrinks s0 s) : Shrinks s0 (ovfUnpin s j) :=
  .foldl (fun _ _ h => .ite (.frame h) h) h

protected theorem Shrinks.vaPut {j va : Nat} {bs : List Nat} (h : Shrinks s0 s) : Shrinks s0 (vaPut s j va bs) := by
  unfold vaPut
  refine .foldl (fun _ _ h => ?_) ?_
  · split
    · split
      · exact .paPut h
      · exact h
    · exact h
  · exact h

protected theorem Shrinks.pfxSet {j va : Nat} {e : PfxEnt} (h : Shrinks s0 s) : Shrinks s0 (pfxSet s j va e) :=
  .vaPut h

protected theorem Shrinks.pfxPut {j va : Nat} {e : PfxEnt} (h : Shrinks s0 s) : Shrinks s0 (pfxPut s j va e) :=
  .pfxSet h

protected theorem Shrinks.prefixFree {j : Nat} (h : Shrinks s0 s) : Shrinks s0 (prefixFree s j).1 := by
  unfold prefixFree
  split
  · exact h
  · refine Shrinks.foldlPair (fun a p ha => Shrinks.foldlPair (fun b v hb => ?_) ha) h
    split
    · exact hb
    · split
      · split
        · exact .modJob hb
        · dsimp only
          split
          · exact .modJob hb
          · exact .pfxPut (.modJob hb)
      · exact hb

protected theorem Shrinks.requestLetGo {j : Nat} (h : Shrinks s0 s) : Shrinks s0 (requestLetGo s j).1 := by
  unfold requestLetGo
  split
  · exact h
  · split
    next t e => exact .ofPair e (.prefixFree (.ovfUnpin h))
    next t e =>
      have ht : Shrinks s0 t := .ofPair e (.prefixFree (.ovfUnpin h))
      exact .ite ht (.foldl (fun _ _ h => .modelUnuse h) ht)

protected theorem Shrinks.resetRings {j : Nat} (h : Shrinks s0 s) : Shrinks s0 (resetRings s j) := by
  unfold resetRings
  dsimp only
  split
  · exact h
  · exact .modJob (.foldl (fun _ _ h => .vaPut (.vaPut h)) h)

protected theorem Shrinks.arbKill {a r : Nat} (h : Shrinks s0 s) : Shrinks s0 (arbKill s a r) :=
  .ite h (.frame h)

protected theorem Shrinks.arbKillNet {h' : Nat} (h : Shrinks s0 s) : Shrinks s0 (arbKillNet s h') := by
  unfold arbKillNet
  refine .foldl (fun _ _ h => ?_) ?_
  · split
    · exact .ite (.arbKill h) h
    · exact h
  · exact h

protected theorem Shrinks.arbKillSpire {p : Nat} (h : Shrinks s0 s) : Shrinks s0 (arbKillSpire s p) :=
  .foldl (fun _ _ h => .arbForget (.arbKill h)) h

protected theorem Shrinks.performAll {j : Nat} (h : Shrinks s0 s) : Shrinks s0 (performAll s j) :=
  .foldl (fun _ _ h => .performWr h) h

protected theorem Shrinks.noteWrite {j pa n : Nat} (h : Shrinks s0 s) : Shrinks s0 (noteWrite s j pa n) :=
  .modJob h fun x => by split <;> rfl

protected theorem Shrinks.ringSig {j pa v : Nat} (h : Shrinks s0 s) : Shrinks s0 (ringSig s j pa v) :=
  .modJob h

protected theorem Shrinks.sigApply {g : Sig} (h : Shrinks s0 s) : Shrinks s0 (sigApply s g) :=
  .ite (.frame (.frame h)) (.ringSig (.noteWrite (.paPut (.frame h))))

protected theorem Shrinks.pfxPin {j : Nat} {es : List Nat} {up : Bool} (h : Shrinks s0 s) : Shrinks s0 (pfxPin s j es up) := by
  unfold pfxPin
  dsimp only
  refine .foldl (fun _ _ h => ?_) ?_
  · split
    · exact .pfxPut h
    · exact h
  · exact h

protected theorem Shrinks.unpinAll {j p : Nat} (h : Shrinks s0 s) : Shrinks s0 (unpinAll s j p) :=
  .foldl (fun _ _ h => .pfxPin h) h

protected theorem Shrinks.stopSpires {j : Nat} (h : Shrinks s0 s) : Shrinks s0 (stopSpires s j) := by
  unfold stopSpires
  dsimp only
  split
  · exact .foldl (fun _ _ h => .sigApply h) (.performAll h)
  · exact .foldl (fun _ _ h => .ite (.doClear (.unpinAll h)) h) (.arbKillNet (.foldl (fun _ _ h => .ite (.arbKillSpire h) h) (.foldl (fun _ _ h =>
      .sigApply h) (.performAll h))))

protected theorem Shrinks.stopRequest {j : Nat} (h : Shrinks s0 s) : Shrinks s0 (stopRequest s j).1 := by
  unfold stopRequest
  have hs : Shrinks s0 (stopSpires s j) := .stopSpires h
  dsimp only
  split
  · exact hs
  next x _ =>
    have hgo : Shrinks s0 _ := .requestLetGo (j := j) (.resetRings (j := j) (.zeroSems (x := x)
      (.foldl (f := fun s r => freeMem s (placePa x r.1) r.2) (l := x.dirty) (fun _ _ h => .freeMem h) hs)))
    refine .modJob ?_
    split
    · exact .claimsRelease (.frame hgo)
    · exact .frame hgo

end

/-- The answer to every entry of a list leaves the power state. -/
theorem power_foldl_complete {α : Type} (r : α → CmdRef) (st p : α → Nat) (l : List α) (s : State) :
    (l.foldl (fun s x => complete s (r x) (st x) (p x) 0) s).power = s.power :=
  foldl_keeps (P := fun t : State => t.power = s.power) (fun _ _ _ ht => (Shrinks.complete .refl).power.trans ht) rfl

theorem power_fetchedEnd (s : State) (fn h : Nat) (opcs : List Nat) (status : Nat) : (fetchedEnd s fn h opcs status).power = s.power :=
  power_foldl_complete ..

theorem power_endByRelease (s : State) (j : Nat) : (endByRelease s j).power = s.power := by
  unfold endByRelease
  split
  · rfl
  next x _ =>
    have hreq : ∀ t, (match x.running with
        | some r => endPoint (complete (noteOrder (modJob (stopRequest t j).1 j fun y => reqGone y r.req) j r) r.req.ref 0x0401 0 0) j
        | none => t).power = t.power := fun t => by
      split
      · exact (Shrinks.endPoint (.complete (.noteOrder (.modJob (.stopRequest .refl))))).power
      · rfl
    dsimp only
    refine (Shrinks.releaseJob .refl).power.trans ?_
    have hadm : ∀ t, (match x.admCmd with
        | some c => complete t c 0x0401 0 0
        | none => t).power = t.power := fun t => by
      split
      · exact (Shrinks.complete .refl).power
      · rfl
    exact (hadm _).trans ((power_fetchedEnd ..).trans ((power_foldl_complete ..).trans ((Shrinks.endersEnd .refl).power.trans (hreq s))))

theorem power_doShutdown (s : State) : (doShutdown s).power.shutdown = true := by
  unfold doShutdown
  split
  · assumption
  · have hends : ((s.jobs.map (·.1)).foldl endByRelease { s with power := { s.power with shutdown := true } }).power
        = { s.power with shutdown := true } :=
      foldl_keeps (P := fun t : State => t.power = { s.power with shutdown := true }) (fun t j _ ht => (power_endByRelease t j).trans ht) rfl
    exact congrArg Power.shutdown ((evrAdd_power ..).trans hends)

/-! The lantern's flash work. -/

/-- The time, the power state, memory, the jobs and what decides whether firmware and the flash run are as in `s`. -/
structure SameRun (s t : State) : Prop where
  now : t.now = s.now
  power : t.power = s.power
  mem : t.mem = s.mem
  jobs : t.jobs = s.jobs
  stage : t.boot.stage = s.boot.stage
  perst : t.boot.perstN = s.boot.perstN

theorem SameRun.refl (s : State) : SameRun s s := ⟨rfl, rfl, rfl, rfl, rfl, rfl⟩

theorem SameRun.trans {s t u : State} (h : SameRun s t) (h' : SameRun t u) : SameRun s u :=
  ⟨h'.now.trans h.now, h'.power.trans h.power, h'.mem.trans h.mem, h'.jobs.trans h.jobs, h'.stage.trans h.stage, h'.perst.trans h.perst⟩

theorem SameRun.after {s t u : State} (h' : SameRun t u) (h : SameRun s t) : SameRun s u := h.trans h'

theorem SameRun.ite {c : Prop} [Decidable c] {s t u : State} (ht : SameRun s t) (hu : SameRun s u) : SameRun s (if c then t else u) := by
  split
  · exact ht
  · exact hu

theorem sameRun_evrAdd (s : State) (code sev src : Nat) (ps : List Nat) : SameRun s (evrAdd s code sev src ps) := by
  obtain ⟨_, h⟩ := evrAdd_frame s code sev src ps
  rw [h]
  exact ⟨rfl, rfl, rfl, rfl, rfl, rfl⟩

theorem sameRun_complete (s : State) (r : CmdRef) (st p x : Nat) : SameRun s (complete s r st p x) := by
  obtain ⟨_, _, _, h⟩ := answers_completeX s r 0 st 0 p x
  rw [complete, h]
  exact ⟨rfl, rfl, rfl, rfl, rfl, rfl⟩

theorem sameRun_flashBegin (s : State) (w : FlashWork) : SameRun s (flashBegin s w) := ⟨rfl, rfl, rfl, rfl, rfl, rfl⟩

theorem sameRun_ringFail (s : State) (addr op : Nat) : SameRun s (ringFail s addr op) :=
  .after (sameRun_evrAdd ..) ⟨rfl, rfl, rfl, rfl, rfl, rfl⟩

theorem sameRun_evrFlushOne (s : State) (res : FlashRes) : SameRun s (evrFlushOne s res) := by
  unfold evrFlushOne
  split
  · unfold ringCompact
    dsimp only
    split
    · exact sameRun_ringFail ..
    · split
      · exact sameRun_ringFail ..
      · exact ⟨rfl, rfl, rfl, rfl, rfl, rfl⟩
  · unfold ringWrite
    split
    · exact .refl s
    · split
      · exact sameRun_ringFail ..
      · exact ⟨rfl, rfl, rfl, rfl, rfl, rfl⟩
  · exact .refl s

theorem sameRun_evrFlushN (n : Nat) (s : State) : SameRun s (evrFlushN n s) := by
  induction n generalizing s with
  | zero => exact .refl s
  | succ n ih =>
    unfold evrFlushN
    split
    · exact (sameRun_evrFlushOne ..).trans (ih _)
    · exact .refl s

theorem sameRun_evrFlushAll (s : State) : SameRun s (evrFlushAll s) := sameRun_evrFlushN ..

/-- Where the ring has nothing to write, nothing is flushed. -/
theorem evrFlushAll_of_idle {s : State} (h : ringBusy s = false) : evrFlushAll s = s := by
  unfold evrFlushAll evrFlushN
  exact if_neg (Bool.eq_false_iff.mp h)

theorem sameRun_storeWrite (s : State) (res : FlashRes) : SameRun s (storeWrite s res) := by
  have hbank : ∀ t b v, SameRun t (setBank t b v) := fun t b v => by
    unfold setBank
    split <;> exact ⟨rfl, rfl, rfl, rfl, rfl, rfl⟩
  exact .ite ⟨rfl, rfl, rfl, rfl, rfl, rfl⟩ (.ite (.after (sameRun_evrAdd ..) (.after (hbank ..) ⟨rfl, rfl, rfl, rfl, rfl, rfl⟩))
    (.ite (.after (sameRun_evrAdd ..) (.after (hbank ..) ⟨rfl, rfl, rfl, rfl, rfl, rfl⟩))
      (.after (sameRun_flashBegin ..) (.after (hbank ..) ⟨rfl, rfl, rfl, rfl, rfl, rfl⟩))))

theorem sameRun_flashEnd1 (s : State) (e : FlashEnd) : SameRun s (flashEnd1 s e) := by
  unfold flashEnd1
  split
  · split <;> exact ⟨rfl, rfl, rfl, rfl, rfl, rfl⟩
  · exact sameRun_complete ..
  · exact sameRun_evrAdd ..

theorem sameRun_flashTick (all : Bool) (s : State) : SameRun s (flashTick all s) :=
  foldl_keeps (P := SameRun s) (fun _ _ _ ht => foldl_keeps (P := SameRun s) (fun _ _ _ hu => hu.trans (sameRun_flashEnd1 ..)) ht)
    ⟨rfl, rfl, rfl, rfl, rfl, rfl⟩

/-- Once every flash operation has ended, none is under way. -/
theorem flashTick_all_flashOps (s : State) : (flashTick true s).flashOps = [] := by
  have hend : ∀ t e, (flashEnd1 t e).flashOps = t.flashOps := fun t e => by
    unfold flashEnd1
    split
    · split <;> rfl
    next r =>
      obtain ⟨_, _, _, h⟩ := answers_completeX t r 0 0 0 0 0
      rw [complete, h]
    next a b =>
      obtain ⟨_, h⟩ := evrAdd_frame t 0x0B17 1 0 [a, b]
      rw [h]
  refine foldl_keeps (P := fun t : State => t.flashOps = []) (fun t o _ ht => ?_) (by simp)
  exact foldl_keeps (P := fun t : State => t.flashOps = []) (fun u e _ hu => (hend u e).trans hu) ht

/-! A microsecond of a shutdown. -/

theorem modJob_frame (s : State) (j : Nat) (f : Job → Job) : ∃ jobs, modJob s j f = { s with jobs := jobs } := by
  unfold modJob
  split
  · exact ⟨_, rfl⟩
  · exact ⟨s.jobs, rfl⟩

/-- The completions that wait are written and leave their jobs. -/
theorem endersFlush_frame (s : State) : ∃ fns hmem msixOut jobs,
    endersFlush s = { s with fns := fns, hmem := hmem, msixOut := msixOut, jobs := jobs } := by
  refine foldl_keeps (P := fun t => ∃ fns hmem msixOut jobs, t = { s with fns := fns, hmem := hmem, msixOut := msixOut, jobs := jobs }) ?_
    ⟨s.fns, s.hmem, s.msixOut, s.jobs, rfl⟩
  rintro _ j _ ⟨fns, hmem, msixOut, jobs, rfl⟩
  unfold endersEnd
  split
  · exact ⟨fns, hmem, msixOut, jobs, rfl⟩
  · split
    · exact ⟨fns, hmem, msixOut, jobs, rfl⟩
    · obtain ⟨jobs', hjobs⟩ := modJob_frame { s with fns := fns, hmem := hmem, msixOut := msixOut, jobs := jobs } j fun y => { y with enders := [] }
      rw [hjobs]
      obtain ⟨fns', hmem', msixOut', h⟩ := foldl_keeps (P := Answers { s with fns := fns, hmem := hmem, msixOut := msixOut, jobs := jobs' })
        (fun t e _ ht => ht.trans (answers_completeX ..)) (.refl _)
      exact ⟨fns', hmem', msixOut', jobs', h⟩

/-- What a step of an empty queue does while a shutdown is under way. -/
theorem step_of_shutdown {s : State} (hempty : s.pending = []) (hdue : shutdownDue s = true) :
    ∃ u, step s = .next (shutdownEnd u) ∧ u.now = s.now + 1 ∧ u.power = s.power ∧ (s.flashOps = [] → u.flashOps = [] ∧ ringBusy u = ringBusy s) := by
  have hfw : fwUp s = true := by
    unfold shutdownDue at hdue
    simp only [Bool.and_eq_true] at hdue
    exact hdue.1.1.1
  obtain ⟨fns, hmem, msixOut, jobs, hflush⟩ := endersFlush_frame (ticked s)
  have hrun := sameRun_flashTick false (endersFlush (ticked s))
  refine ⟨flashTick false (endersFlush (ticked s)), ?_, ?_, ?_, fun hops => ?_⟩
  · have hdue' : shutdownDue (flashTick false (endersFlush (ticked s))) = true := by
      unfold shutdownDue fwUp
      rw [hrun.stage, hrun.power, hrun.perst, hflush]
      exact hdue
    rw [step_of_empty hempty, hfw]
    exact congrArg Host.Outcome.next (if_pos hdue')
  · rw [hrun.now, hflush]
    rfl
  · rw [hrun.power, hflush]
    rfl
  · have hsame : flashTick false (endersFlush (ticked s)) = endersFlush (ticked s) := flashTick_of_none fun o ho => by
      rw [hflush] at ho
      exact absurd ho (by rw [show (ticked s).flashOps = [] from hops]; exact List.not_mem_nil)
    rw [hsame, hflush]
    exact ⟨hops, rfl⟩

/-- The end of a shutdown: its last writes begin, or it is quiesced. -/
theorem shutdownEnd_closes {s : State} (h : s.power.closing = none) : (shutdownEnd s).power = { s.power with closing := some s.now } := by
  unfold shutdownEnd
  rw [h]
  have hrun := (sameRun_evrFlushAll s).trans (sameRun_storeWrite _ .done)
  dsimp only
  rw [hrun.power, hrun.now]

theorem shutdownEnd_over {s : State} {c : Nat} (h : s.power.closing = some c)
    (hover : ((evrFlushAll s).flashOps.isEmpty || decide (c + 2000000 ≤ (evrFlushAll s).now)) = true) :
    shutdownEnd s = { flashTick true (evrFlushAll s) with power := { (flashTick true (evrFlushAll s)).power with quiesced := true } } := by
  unfold shutdownEnd
  rw [h]
  exact if_pos hover

theorem shutdownEnd_quiesced {s : State} {c : Nat} (h : s.power.closing = some c)
    (hend : c + 2000000 ≤ s.now ∨ s.flashOps = [] ∧ ringBusy s = false) :
    (shutdownEnd s).power = { s.power with quiesced := true } ∧ (shutdownEnd s).flashOps = [] := by
  have hrun := sameRun_evrFlushAll s
  have hover : ((evrFlushAll s).flashOps.isEmpty || decide (c + 2000000 ≤ (evrFlushAll s).now)) = true := by
    rcases hend with hlate | ⟨hops, hidle⟩
    · rw [hrun.now]
      simp [hlate]
    · rw [evrFlushAll_of_idle hidle, hops]
      rfl
  rw [shutdownEnd_over h hover, (hrun.trans (sameRun_flashTick true _)).power]
  exact ⟨rfl, flashTick_all_flashOps _⟩

/-- A shutdown stays one. -/
theorem shutdown_shutdownEnd (s : State) : (shutdownEnd s).power.shutdown = s.power.shutdown := by
  have hrun := sameRun_evrFlushAll s
  cases hc : s.power.closing with
  | none => rw [shutdownEnd_closes hc]
  | some c =>
    by_cases hover : ((evrFlushAll s).flashOps.isEmpty || decide (c + 2000000 ≤ (evrFlushAll s).now)) = true
    · rw [shutdownEnd_over hc hover, (hrun.trans (sameRun_flashTick true _)).power]
    · have heq : shutdownEnd s = evrFlushAll s := by
        unfold shutdownEnd
        rw [hc]
        exact if_neg hover
      rw [heq, hrun.power]

/-! The alert bits. -/

/-- Taking a mask's bits away clears them and no other. -/
theorem testBit_sub_and (x m i : Nat) : (x - (x &&& m)).testBit i = (x.testBit i && !m.testBit i) := by
  induction i generalizing x m with
  | zero =>
    have hbit := Nat.and_mod_two_eq_one (a := x) (b := m)
    have hle : x &&& m ≤ x := Nat.and_le_left
    rw [Nat.testBit_zero, Nat.testBit_zero, Nat.testBit_zero, Bool.eq_iff_iff, Bool.and_eq_true, Bool.not_eq_true', decide_eq_false_iff_not,
      decide_eq_true_eq, decide_eq_true_eq]
    omega
  | succ i ih =>
    have hhalf : (x - (x &&& m)) / 2 = x / 2 - (x / 2 &&& m / 2) := by
      have hdiv : (x &&& m) / 2 = x / 2 &&& m / 2 := Nat.and_div_two
      have hbit := Nat.and_mod_two_eq_one (a := x) (b := m)
      have hle : x &&& m ≤ x := Nat.and_le_left
      rw [← hdiv]
      omega
    rw [Nat.testBit_succ, Nat.testBit_succ, Nat.testBit_succ, hhalf, ih]

/-- A trip is recorded at most: memory and the jobs stay. -/
theorem sameRun_tripRecord (s : State) (sensor : Nat) (temp : Int) : SameRun s (tripRecord s sensor temp) :=
  .ite (.refl s) (.after (sameRun_evrFlushAll _) ⟨rfl, rfl, rfl, rfl, rfl, rfl⟩)

/-- Settles O58. -/
theorem tripShutdownAndLossComplete : Obligations.TripShutdownAndLossComplete := by
  refine ⟨fun s sensor temp hsensor hpower hstage hspire hvault => ?trip, fun s f hf hup hen => ⟨fun hshut hpf => ?down, fun hvf => ?vf,
    fun mask hmask => ⟨fun hvf => ?vfAlert, fun hpf => ?alert⟩⟩, fun s hempty hdue => ?quiesce, fun s k n hk hn hfw => ?lock,
    fun s rail mv hrail hmv hfw => ?rail⟩
  case trip =>
    have hrun := sameRun_tripRecord s sensor temp
    have hhot : (if sensor < 128 then decide (920 ≤ temp) else decide (840 ≤ temp)) = true := by
      split
      next h => exact decide_eq_true (hspire h)
      next h => exact decide_eq_true (hvault (Nat.not_lt.mp h))
    exact ⟨doTrip s sensor temp, (if_neg (Nat.not_le.mpr hsensor)).trans (guardNext_of (by simp [hpower, hstage, hhot])), rfl, rfl, rfl, hrun.mem,
        hrun.jobs⟩
  case down =>
    have harm : exec (.shutdown f) s = execShutdown f s := rfl
    rw [harm, execShutdown, if_neg (Nat.not_le.mpr hf), if_pos hpf]
    exact ⟨guardNext_of (by simp [hup, fnUp, hf, hen]), power_doShutdown s⟩
  case vf =>
    have harm : exec (.shutdown f) s = execShutdown f s := rfl
    rw [harm, execShutdown, if_neg (Nat.not_le.mpr hf), if_neg hvf]
    exact guardNext_of (by simp [hup, fnUp, hf, hen])
  case vfAlert =>
    have harm : exec (.alertCauseClear f mask) s = execAlertCauseClear f mask s := rfl
    rw [harm, execAlertCauseClear, if_neg (by simp; omega), if_neg hvf]
    exact guardNext_of (by simp [hup, fnUp, hf, hen])
  case alert =>
    have harm : exec (.alertCauseClear f mask) s = execAlertCauseClear f mask s := rfl
    rw [harm, execAlertCauseClear, if_neg (by simp; omega), if_pos hpf]
    refine ⟨_, guardNext_of (by simp [hup, fnUp, hf, hen]), rfl, fun i => ?_⟩
    rw [bitOf_eq_testBit, bitOf_eq_testBit, bitOf_eq_testBit]
    exact testBit_sub_and ..
  case quiesce =>
    have hshut : s.power.shutdown = true ∧ s.power.quiesced = false := by
      unfold shutdownDue at hdue
      simp only [Bool.and_eq_true, Bool.not_eq_true'] at hdue
      exact ⟨hdue.1.1.2, hdue.1.2⟩
    obtain ⟨u, hstep, hnow, hpower, hops⟩ := step_of_shutdown hempty hdue
    refine ⟨_, hstep, (shutdown_shutdownEnd u).trans ((congrArg Power.shutdown hpower).trans hshut.1), fun hopen => ?_, fun c hc hend => ?_⟩
    · rw [shutdownEnd_closes (by rw [hpower, hopen]), hpower, hnow]
      exact ⟨rfl, hshut.2⟩
    · have hq := shutdownEnd_quiesced (s := u) (c := c) (by rw [hpower, hc])
        (hend.imp (fun hlate => by rw [hnow]; exact hlate) fun hidle => ⟨(hops hidle.1).1, (hops hidle.1).2.trans hidle.2⟩)
      exact ⟨congrArg Power.quiesced hq.1, hq.2⟩
  case lock =>
    exact (if_neg (by simp; omega)).trans (guardNext_of hfw)
  case rail =>
    exact (if_neg (by simp; omega)).trans (guardNext_of hfw)

end Sys2Proof.Machine
end

section
/-! Rings and shared prefixes: the assists' requests (06 R166 to R168, R175). -/
namespace Sys2Proof.Machine

/-- A request of an assist whose control words are good and which meets no event is served. -/
theorem assistGo_served {s : State} {j : Nat} {x : Job} {ctl : List (Nat × Nat)} {go : State → State} (hgood : accTier s x [1] ctl ctl = none) :
    assistGo s j x ctl [] go = go s := by
  unfold assistGo
  rw [hgood]
  rfl

/-- Without a measurement no channel is held. -/
theorem marginHolds_of_none {s : State} (h : s.glb.margin = none) (pa n : Nat) : marginHolds s pa n = false := by
  unfold marginHolds
  rw [h]
  rfl

theorem marginVa_of_none {s : State} (h : s.glb.margin = none) (x : Job) (va n : Nat) : marginVa s x va n = false := by
  unfold marginVa
  rw [h]
  rfl

/-- A write to a shared page that needs no copy, or finds a copy page of its tier while nothing is measured, waits for nothing. -/
theorem prefixWrite_free {s : State} {x : Job} {q : PlanPrefix} {e : Pte} {vpn : Nat}
    (h : pfxCopies s x q = false ∨ s.glb.margin = none ∧ ∃ n ∈ x.copies, sameTier e n = true) :
    (!pfxCopies s x q || x.copies.any (sameTier e)) = true
      ∧ (pfxCopies s x q && (marginVa s x (vpn * 2 ^ 21) (2 ^ 21) || (x.copies.find? (sameTier e)).any fun n => marginHolds s (ptePa s n 0) (2 ^ 21)))
        = false := by
  rcases h with h | ⟨hnone, hcopy⟩
  · rw [h]
    exact ⟨rfl, rfl⟩
  · have hany : x.copies.any (sameTier e) = true := List.any_eq_true.mpr hcopy
    have hheld : (x.copies.find? (sameTier e)).any (fun n => marginHolds s (ptePa s n 0) (2 ^ 21)) = false := by
      cases x.copies.find? (sameTier e) with
      | none => rfl
      | some n => exact marginHolds_of_none hnone ..
    rw [hany, hheld, marginVa_of_none hnone]
    simp

/-- Settles O29. -/
theorem ringAndPrefixCommandsComplete : Obligations.RingAndPrefixCommandsComplete := by
  refine ⟨fun s j ri x r hring hheld hadv hpages hgood => ?adv, fun s j ri x r hring hrel hgood => ?rel,
    fun s j ri x r hring hdue hgood hmargin => ?lists, fun s j vpn x q e hj hq he hfw hrun hsaved hfree hgood => ?shared⟩
  case adv =>
    have harm : exec (.ringAdv j ⟨ri, []⟩) s = execRingAdv j ⟨ri, []⟩ s := rfl
    rw [harm, execRingAdv, hring]
    exact (guardNext_of (by simp [hheld, ringDue, hadv, hpages])).trans (congrArg Host.Outcome.next (assistGo_served hgood))
  case rel =>
    have harm : exec (.ringRel j ⟨ri, []⟩) s = execRingRel j ⟨ri, []⟩ s := rfl
    rw [harm, execRingRel, hring]
    exact (guardNext_of (by simp [ringDue, hrel])).trans (congrArg Host.Outcome.next (assistGo_served hgood))
  case lists =>
    have harm : exec (.keyListGeneration j ⟨ri, []⟩) s = execKeyListGeneration j ⟨ri, []⟩ s := rfl
    have hopen : ((listAcc (ringPat r) (ringOf x ri).lists).1 ++ (listAcc (ringPat r) (ringOf x ri).lists).2).any
        (fun q => marginVa s x q.1 q.2) = false := by
      rw [List.any_eq_false]
      exact fun q hq => Bool.eq_false_iff.mp (hmargin q hq)
    rw [harm, execKeyListGeneration, hring]
    exact (guardNext_of (by rw [hdue, hopen]; rfl)).trans (congrArg Host.Outcome.next (assistGo_served hgood))
  case shared =>
    have harm : exec (.prefixWrite j ⟨vpn, []⟩) s = execPrefixWrite j ⟨vpn, []⟩ s := rfl
    obtain ⟨hcopy, hheld⟩ := prefixWrite_free (vpn := vpn) hfree
    rw [harm, execPrefixWrite, hj]
    dsimp only
    rw [hq, he]
    exact (guardNext_of (by rw [hheld, hcopy]; simp [hfw, hrun, hsaved])).trans (congrArg Host.Outcome.next (assistGo_served hgood))

end Sys2Proof.Machine
end

section
/-! Commands that are not well-formed are refused (04; 16; the model's choice, log 4). -/
namespace Sys2Proof.Machine

/-! The address ranges of the kinds (09 R214). -/

theorem paKind_vault {pa : Nat} : paKind pa = .vault ↔ pa < 0x002000000000 := by
  unfold paKind
  grind

theorem paKind_dome {pa : Nat} : paKind pa = .dome ↔ 0x004000000000 ≤ pa ∧ pa < 0x004010000000 := by
  unfold paKind
  grind

theorem paKind_far {pa : Nat} : paKind pa = .far ↔ 0x010000000000 ≤ pa ∧ pa < 0x020000000000 := by
  unfold paKind
  grind

theorem paKind_window {pa : Nat} : paKind pa = .window ↔ 0x100000000000 ≤ pa ∧ pa < 0x1000000000000 := by
  unfold paKind
  grind

theorem sysArea_iff {pa : Nat} : sysArea pa = true ↔ pa < 0x002000000000 ∧ 0xFE000000 ≤ pa % 2 ^ 32 := by
  unfold sysArea
  rw [Bool.and_eq_true, decide_eq_true_eq, decide_eq_true_eq, paKind_vault]
  omega

/-- A line has a home slice where it is cached: in vault, dome-store and far addresses. -/
theorem homeSlice_isSome {pa : Nat} : (homeSlice pa).isSome = true ↔ paKind pa = .vault ∨ paKind pa = .dome ∨ paKind pa = .far := by
  unfold homeSlice
  cases paKind pa <;> simp

/-! What a command's own test of an event lets pass is a well-formed event. -/

theorem evOk_wf {e : AccEv} (h : evOk e = true) : e.wf = true := by
  cases e with
  | vaultUe pa => simpa [evOk, AccEv.wf, paKind_vault] using h
  | domeUe pa cls =>
    simp only [evOk, Bool.and_eq_true] at h
    obtain ⟨hhome, hcls⟩ := h
    have hkind := homeSlice_isSome.mp hhome
    rw [paKind_vault, paKind_dome, paKind_far] at hkind
    have hsys := sysArea_iff (pa := pa)
    have hdome := paKind_dome (pa := pa)
    unfold domeClsOk at hcls
    unfold AccEv.wf
    grind
  | farCe pa | farUe pa | farTimeout pa | farLost pa => simpa [evOk, AccEv.wf, paKind_far] using h
  | hostErr status pa => simpa [evOk, AccEv.wf, paKind_window, and_assoc] using h
  | _ => exact h

theorem evSeq_wf {e : AccEv} (hseq : evSeq e = true) (hok : evOk e = true) : e.wfSeq = true := by
  cases e with
  | spireCe src bank =>
    simp only [evSeq, evOk, decide_eq_true_eq, Bool.and_eq_true] at hseq hok
    simp [AccEv.wfSeq, hseq, hok]
  | spireUe src place =>
    simp only [evSeq, evOk, decide_eq_true_eq, Bool.and_eq_true] at hseq hok
    obtain ⟨_, hplace⟩ := hok
    rw [hseq] at hplace
    simpa [AccEv.wfSeq, hseq] using hplace
  | _ => exact (nomatch hseq)

theorem evTouch_wf {s : State} {x : Job} {rds wrs : List (Nat × Nat)} {e : AccEv} (h : evTouch s x rds wrs e = true) : e.wfAgent = true := by
  unfold evTouch at h
  rw [Bool.and_eq_true] at h
  obtain ⟨hok, hmeets⟩ := h
  cases e with
  | bankCycle | spireCe | spireUe => exact (nomatch hmeets)
  | _ => exact evOk_wf hok

theorem saveMay_wf {s : State} {restores : Bool} {j : Nat} {e : AccEv} (h : saveMay s restores j e = true) : e.wf = true := by
  cases e with
  | spireCe | spireUe | vaultCe => exact evOk_wf h
  | vaultUe pa =>
    simp only [saveMay, Bool.and_eq_true] at h
    exact evOk_wf h.1.1
  | _ => exact (nomatch h)

theorem evMerges_wf {s : State} {w : PWr} {e : AccEv} (h : evMerges s w e = true) : e.wfMerge = true := by
  unfold evMerges at h
  rw [Bool.and_eq_true] at h
  obtain ⟨hok, hmeets⟩ := h
  cases e with
  | bankCycle | spireCe | spireUe | farLost | hostErr => exact (nomatch hmeets)
  | _ => exact evOk_wf hok

theorem evHome_wf {s : State} {scope home : Nat} {sigs : List Nat} {e : AccEv} (h : evHome s scope home sigs e = true) : e.wfMerge = true := by
  unfold evHome at h
  rw [Bool.and_eq_true, Bool.and_eq_true] at h
  obtain ⟨⟨_, hok⟩, hmeets⟩ := h
  cases e with
  | domeCe | domeUe => exact evOk_wf hok
  | _ => exact (nomatch hmeets)

theorem evDma_wf {e : AccEv} (h : evDma e = true) : e.wfDma = true := by
  cases e with
  | bankCycle | spireCe | spireUe => exact (nomatch h)
  | hostErr => exact h
  | _ =>
    simp only [AccEv.wfDma]
    exact evOk_wf h

theorem evLoad_wf {e : AccEv} (h : evLoad e = true) : e.wfLoad = true := by
  cases e with
  | farLost => exact (nomatch h)
  | domeUe pa cls =>
    simp only [evLoad, Bool.and_eq_true] at h
    obtain ⟨hok, hcls⟩ := h
    simp only [AccEv.wfLoad, Bool.and_eq_true]
    exact ⟨hcls, evOk_wf hok⟩
  | _ =>
    simp only [AccEv.wfLoad]
    exact evDma_wf h

/-- A test that lets only well-formed events pass fails on a list that holds another. -/
theorem all_eq_false_of_imp {α : Type} {p q : α → Bool} {l : List α} (himp : ∀ e, p e = true → q e = true) (h : l.all q = false) :
    l.all p = false := by
  rw [List.all_eq_false] at h ⊢
  obtain ⟨e, he, hq⟩ := h
  exact ⟨e, he, fun hp => hq (himp e hp)⟩

end Sys2Proof.Machine
end

section
/-! Commands that are not well-formed are refused: the families of commands. -/
namespace Sys2Proof.Machine

/-- An outcome that is a refusal. -/
def Refuses (o : Out) : Prop := ∃ r, o = .refused r

theorem refuses_if {c : Prop} [Decidable c] {r : Refusal} {o : Out} (h : c) : Refuses (if c then .refused r else o) := ⟨r, if_pos h⟩

theorem refuses_ite {c : Prop} [Decidable c] {r : Refusal} {o : Out} (h : ¬ c → Refuses o) : Refuses (if c then .refused r else o) := by
  split
  · exact ⟨r, rfl⟩
  next hc => exact h hc

theorem refuses_guardNext {c : Bool} {r : Refusal} {s : State} (h : c = false) : Refuses (guardNext c r s) := ⟨r, by rw [h]; rfl⟩

theorem guardNext_ne_fault (c : Bool) (r : Refusal) (s : State) (f : Fault) : guardNext c r s ≠ .fault f := by
  cases c <;> nofun

/-- A test of the events that lets only well-formed ones pass. -/
theorem refuses_events {α : Type} {evs : List α} {p q : α → Bool} {c : Bool} {r : Refusal} {s : State} (himp : ∀ e, p e = true → q e = true)
    (h : evs.all q = false) : Refuses (guardNext (c && evs.all p) r s) :=
  refuses_guardNext (by rw [all_eq_false_of_imp himp h, Bool.and_false])

/-! Tile words. -/

/-- A word that is not the command's own, or a spire that does not exist. -/
theorem refuses_issue {o : Op} {form : Nat → Bool} {s : State} {p : Nat} {w : IWord} {go : Iss → Nat → Out}
    (h : tileWf o p w (form w.toNat) = false) :
    Refuses (issue o form s p w go) := by
  refine refuses_if ?_
  unfold tileWf at h
  cases hp : decide (p < 256) <;> cases hop : isOp o w.toNat && form w.toNat <;> cases hlegal : wordLegal w.toNat <;> simp_all

/-- A word whose outcome is a refusal. -/
theorem refuses_wordMet {s : State} {p : Nat} {m : Met IWord} {may : Iss → AccEv → Bool} {o : Out} (h : Refuses o) :
    Refuses (wordMet s p m may o) := by
  obtain ⟨r, rfl⟩ := h
  exact refuses_ite fun _ => ⟨r, rfl⟩

/-- A word with a test of its own for its events. -/
theorem refuses_wordMet_issue {o : Op} {form : Nat → Bool} {s : State} {p : Nat} {m : Met IWord} {may : Iss → AccEv → Bool} {go : Iss → Nat → Out}
    (h : (tileWf o p m.val (form m.val.toNat) && m.ev.all AccEv.wf) = false) : Refuses (wordMet s p m may (issue o form s p m.val go)) := by
  rcases Bool.and_eq_false_iff.mp h with hword | hev
  · exact refuses_wordMet (refuses_issue hword)
  · exact refuses_if (by simp [all_eq_false_of_imp (fun _ => evOk_wf) hev])

/-- A word that no spire is about to issue. -/
theorem refuses_issue_of_none {o : Op} {form : Nat → Bool} {s : State} {p : Nat} {w : IWord} {go : Iss → Nat → Out}
    (h : issOf s p w.toNat = none) : Refuses (issue o form s p w go) := by
  refine refuses_ite fun _ => ?_
  rw [h]
  exact ⟨_, rfl⟩

/-- Issuing a word stops the machine only where the word's own meaning does. -/
theorem issue_ne_fault {o : Op} {form : Nat → Bool} {s : State} {p : Nat} {w : IWord} {go : Iss → Nat → Out} {f : Fault}
    (hgo : ∀ i n, go i n ≠ .fault f) : issue o form s p w go ≠ .fault f := by
  unfold issue
  dsimp only
  split
  · nofun
  · split
    · nofun
    · split
      · nofun
      · split
        · nofun
        · split
          · nofun
          · split
            · nofun
            · exact hgo _ _

/-- A word without data, whose events are the sequencer's. -/
theorem refuses_seqIssue {o : Op} {form : Nat → Bool} {s : State} {p : Nat} {m : Met IWord} {go : Iss → Nat → Out}
    (hgo : ∀ i n f, go i n ≠ .fault f) (h : (tileWf o p m.val (form m.val.toNat) && m.ev.all AccEv.wfSeq) = false) :
    Refuses (seqIssue o form s p m go) := by
  rcases Bool.and_eq_false_iff.mp h with hword | hev
  · exact refuses_wordMet (refuses_issue hword)
  · refine refuses_ite fun hok => ?_
    have hok : m.ev.all evOk = true := by simpa using hok
    have hseq : m.ev.all evSeq = false := by
      rw [List.all_eq_true] at hok
      rw [List.all_eq_false] at hev ⊢
      obtain ⟨e, he, hwf⟩ := hev
      exact ⟨e, he, fun hs => hwf (evSeq_wf hs (hok e he))⟩
    cases hi : issOf s p m.val.toNat with
    | none =>
      obtain ⟨r, hr⟩ := refuses_issue_of_none (o := o) (form := form) (go := go) hi
      rw [hr]
      exact ⟨r, rfl⟩
    | some i =>
      cases ho : issue o form s p m.val go with
      | next t => exact refuses_guardNext hseq
      | fault f => exact absurd ho (issue_ne_fault fun i n => hgo i n f)
      | refused r => exact ⟨r, rfl⟩

/-- A data instruction. -/
theorem refuses_dataIssue {o : Op} {form : Nat → Bool} {s : State} {p : Nat} {w : IWord} {mk : State → Nat → Iss → Nat → DataOp} {ev : List AccEv}
    (h : (tileWf o p w (form w.toNat) && ev.all AccEv.wf) = false) : Refuses (dataIssue o form s p w mk ev) := by
  rcases Bool.and_eq_false_iff.mp h with hword | hev
  · exact refuses_ite fun _ => refuses_issue hword
  · exact refuses_if (by simp [all_eq_false_of_imp (fun _ => evOk_wf) hev])

/-! Host commands. -/

/-- An entry with another opcode. -/
theorem refuses_hostExec {opc queue f q : Nat} {s : State} {e : Entry} {ok pfOnly : Bool} {resv : Nat → Nat} {body : State → CmdRef → Nat → State}
    (h : hostWf opc e = false) : Refuses (hostExec opc s f q e ok queue pfOnly resv body) := by
  unfold hostWf at h
  exact refuses_if (by simpa using h)

/-! Frames. -/

/-- The link layer's test of a frame covers its widths. -/
theorem wf_of_frOk {p : Port} {f : Frame} {type n : Nat} (h : frOk p f type n = true) : f.wf = true ∧ n ≤ 4096 := by
  simp only [frOk, Bool.and_eq_true, decide_eq_true_eq] at h
  simp only [Frame.wf, Bool.and_eq_true, decide_eq_true_eq]
  tauto

/-- A frame whose fields are beyond their widths, or whose payload is too long. -/
theorem refuses_rx {s : State} {f : Frame} {type n : Nat} {body : State → State} (h : (f.wf && decide (n ≤ 4096)) = false) :
    Refuses (rx s f type n body) := by
  refine refuses_if ?_
  rw [Bool.not_eq_true', Bool.eq_false_iff]
  intro hok
  obtain ⟨hwf, hn⟩ := wf_of_frOk hok
  simp [hwf, hn] at h

theorem rxWidths {f : Frame} {n : Nat} (h : f.wf = false) : (f.wf && decide (n ≤ 4096)) = false := by rw [h, Bool.false_and]

/-- A message whose own field fits fails by its frame. -/
theorem frame_of_field {f : Frame} {n b : Nat} (h : (f.wf && decide (n < b)) = false) (hn : ¬ b ≤ n) : (f.wf && decide (0 ≤ 4096)) = false := by
  rw [decide_eq_true (Nat.not_le.mp hn), Bool.and_true] at h
  exact rxWidths h

theorem refuses_rxLand {s : State} {f : Frame} {type : Nat} {d : Payload} {body : State → List Nat → State}
    (h : (f.wf && decide (d.bytes.length ≤ 4096) && d.ev.all AccEv.wfAgent) = false) : Refuses (rxLand s f type d body) := by
  rcases Bool.and_eq_false_iff.mp h with hframe | hev
  · exact refuses_ite fun _ => refuses_ite fun _ => refuses_rx hframe
  · refine refuses_if ?_
    have hnone : d.ev.all (fun e => (landRanges s f d.bytes.length).any fun r => evTouch s r.1 [] r.2 e) = false :=
      all_eq_false_of_imp (fun e he => by
        obtain ⟨r, _, hr⟩ := (Option.any_eq_true ..).mp he
        exact evTouch_wf hr) hev
    rw [hnone]
    rfl

/-! What bounds a field beside the command's own test. -/

theorem bar0Size_le (f : Nat) : bar0Size f ≤ 0x2000000 := by
  unfold bar0Size
  split <;> omega

theorem islandCount_le (k : Nat) : islandCount k ≤ 256 := by
  unfold islandCount
  rw [List.getD_eq_getElem?_getD]
  cases hv : [256, 32, 1, 1, 4, 1, 1][k]? with
  | none => exact Nat.zero_le _
  | some v =>
    have hall : ∀ v ∈ [256, 32, 1, 1, 4, 1, 1], v ≤ 256 := by decide
    exact hall v (List.mem_of_getElem? hv)

/-- A bounded field and a test of the other: what is beyond either. -/
theorem beyond_or_not {n b : Nat} {p : Bool} (h : (decide (n < b) && p) = false) : (decide (b ≤ n) || !p) = true := by
  cases p
  · exact Bool.or_true _
  · simpa using h

theorem arbPresent_lt {a : Nat} (h : arbPresent a = true) : a < 2404 := by
  unfold arbPresent at h
  split at h
  · omega
  · exact of_decide_eq_true h

theorem arbPresent_of_wf {a : Nat} (h : decide (a < 2404) = false) : arbPresent a = false :=
  Bool.eq_false_iff.mpr fun hp => of_decide_eq_false h (arbPresent_lt hp)

theorem dmaMeets_wf {s : State} {w : Nat} {e : AccEv} (h : dmaMeets s w e = true) : e.wfDma = true := by
  unfold dmaMeets at h
  rw [Bool.and_eq_true] at h
  exact evDma_wf h.1

theorem frMeets_wf {s : State} {f : VFrame} {e : AccEv} (h : frMeets s f e = true) : e.wfAgent = true := by
  obtain ⟨t, _, ht⟩ := (Option.any_eq_true ..).mp h
  obtain ⟨x, _, hx⟩ := (Option.any_eq_true ..).mp ht
  exact evTouch_wf hx

theorem bar4Meets_wf {s : State} {write : Bool} {off n : Nat} {e : AccEv} (h : bar4Meets s write off n e = true) : e.wfAgent = true := by
  obtain ⟨t, _, ht⟩ := (Option.any_eq_true ..).mp h
  obtain ⟨x, _, hx⟩ := (Option.any_eq_true ..).mp ht
  cases write
  · exact evTouch_wf hx
  · exact evTouch_wf hx

/-- Settles O8. -/
theorem illFormedCommandsAreRefused : Obligations.IllFormedCommandsAreRefused := by
  intro c s h
  show Refuses (exec c s)
  cases c with
  | br | yield | halt | finial | vopScalar | vopDescriptor | fence => exact refuses_seqIssue (fun _ _ _ => nofun) h
  | loop => exact refuses_seqIssue (fun i n f => by split <;> nofun) h
  | endl => exact refuses_seqIssue (fun i n f => by split <;> exact guardNext_ne_fault _ _ _ _) h
  | sig | waits => exact refuses_seqIssue (fun i n f => by split <;> nofun) h
  | gate | xrecvArm | xrecvWait => exact refuses_wordMet_issue h
  | mma | mma2 | vopTensor | sfn | rstat | cdw | attn | qnt | dqt | move | comb | xsend => exact refuses_dataIssue h
  | qpCreate | qpDelete | qpAllot | programLoad | programUnload | jobAdmit | jobRelease | modelLoad | modelPin | modelUnpin | modelEvict
  | windowMap | windowUnmap | query | asyncEvent | margin | calibRead | calibWrite | evrFreeze | evrUnfreeze | evrClear | submit
  | codecOpen | codecClose | codecFrame | codecRelease => exact refuses_hostExec h
  | adminQueueEnable | adminQueueDisable | functionLevelReset | pmD3hotEntry | shutdown | doeAbort => exact refuses_if (by simpa [Instr.wf] using h)
  | getCerts | getReport | keyDeliver | doeUnsupportedObject | doeDiscovery => exact refuses_if (by simp [Instr.wf] at h ⊢; omega)
  | link f => exact (refuses_rx (rxWidths h) : Refuses (execLink f s))
  | reqReady f l req => exact (refuses_rx (rxWidths h) : Refuses (execReqReady f l req s))
  | pause f l => exact (refuses_rx (rxWidths h) : Refuses (execPause f l s))
  | resume f l => exact (refuses_rx (rxWidths h) : Refuses (execResume f l s))
  | beat f l => exact (refuses_rx (rxWidths h) : Refuses (execBeat f l s))
  | landed f l seq => exact (refuses_rx (rxWidths h) : Refuses (execLanded f l seq s))
  | data f d => exact (refuses_rxLand h : Refuses (execData f d s))
  | redResult f d => exact (refuses_rxLand h : Refuses (execRedResult f d s))
  | redVerdict f g granted => exact (refuses_ite fun hg => refuses_rx (frame_of_field h hg) : Refuses (execRedVerdict f g granted s))
  | go f req verdict => exact (refuses_ite fun hv => refuses_rx (frame_of_field h hv) : Refuses (execGo f req verdict s))
  | reqEnd f l req status => exact (refuses_ite fun hst => refuses_rx (frame_of_field h hst) : Refuses (execReqEnd f l req status s))
  | jobFault f l cause => exact (refuses_ite fun hc => refuses_rx (frame_of_field h hc) : Refuses (execJobFault f l cause s))
  | roster f tower pos gen mib present =>
    refine (refuses_ite fun hbad => refuses_rx (rxWidths ?_) : Refuses (execRoster f tower pos gen mib present s))
    simp only [Bool.or_eq_true, decide_eq_true_eq, Bool.not_eq_true', not_or, Bool.not_eq_false, Nat.not_le] at hbad
    obtain ⟨⟨⟨htower, hpos⟩, hgen⟩, hpresent⟩ := hbad
    simpa only [Instr.wf, decide_eq_true htower, decide_eq_true hpos, decide_eq_true hgen, hpresent, Bool.and_true] using h
  | towers f gen map =>
    refine (refuses_ite fun hbad => refuses_rx (rxWidths ?_) : Refuses (execTowers f gen map s))
    simp only [Bool.or_eq_true, decide_eq_true_eq, Bool.not_eq_true', not_or, Bool.not_eq_false, Nat.not_le] at hbad
    obtain ⟨hgen, hmap⟩ := hbad
    simpa only [Instr.wf, decide_eq_true hgen, hmap, Bool.and_true] using h
  | clear | run | saveReq | sfnCompat | linkDown | frameStart | codecEngineHang | farUeWindowEnd | farAccessTimeout | farWriteLost | farRefreshRead
  | netArbMode | gateTransitionEnd | pwrGateEn | powerEstimate | flashErase => exact refuses_if (by simpa [Instr.wf] using h)
  | stealIteration | vaultRefresh | vaultTempSample | vaultWriteTurn | portTraining | portTrainRetry | thermalTrip | alertCauseClear
  | railOutOfTolerance | flashRead | flashProgram | recoveryData | thermalLevelUpdate | vfEnable =>
    exact refuses_if (by simp [Instr.wf] at h ⊢; omega)
  | ackTimer | replayTimeout | helloTimer => exact refuses_guardNext (by simp [Instr.wf] at h; simp; omega)
  | coldReset strap fails | warmReset strap fails | mgmtRecoveryBoot strap fails =>
    exact refuses_if (beyond_or_not (p := failsOk fails) h)
  | arbGrant | arbWithdraw | arbWindowEnd | arbStarveFlag => exact refuses_if (by simp [arbPresent_of_wf h])
  | registerWrite f off size v =>
    have hsize := bar0Size_le f
    exact refuses_if (by simp [Instr.wf, accessOk] at h ⊢; grind)
  | bar0BadAccess f off size w =>
    have hsize := bar0Size_le f
    exact refuses_if (by simp [Instr.wf, accessOk] at h ⊢; grind)
  | sqTailDoorbell | cqHeadDoorbell => exact refuses_if (by simp [Instr.wf] at h ⊢; grind)
  | vaultPatrol v lane ue => exact refuses_if (by cases lane <;> simp [Instr.wf] at h ⊢ <;> omega)
  | farMemoryTraining fails => exact refuses_if (by simp [Instr.wf] at h ⊢; exact h)
  | marginComplete lanes => exact refuses_if (by simp only [Instr.wf] at h; rw [h]; rfl)
  | pllLockLost k n =>
    have hcount := islandCount_le k
    exact refuses_if (by simp [Instr.wf] at h ⊢; omega)
  | levelChangeDone c =>
    refine (?_ : Refuses (execLevelChangeDone c s))
    unfold execLevelChangeDone
    split
    · exact ⟨_, rfl⟩
    · exact refuses_guardNext (Bool.and_eq_false_iff.mpr (.inr h))
  | carriedSpireChange m => exact refuses_events (fun _ => saveMay_wf) h
  | saveComplete m =>
    refine (?_ : Refuses (execSaveComplete m s))
    unfold execSaveComplete
    split
    · exact refuses_events (fun _ => saveMay_wf) h
    · exact ⟨_, rfl⟩
  | homeWriteApply o =>
    refine (?_ : Refuses (execHomeWriteApply o s))
    unfold execHomeWriteApply
    split
    · exact refuses_events (fun _ => evMerges_wf) h
    · exact ⟨_, rfl⟩
  | semaphoreHomeCycle scope home sigs order =>
    refine (refuses_ite fun hbad => refuses_events (fun _ => evHome_wf) ?_ : Refuses (execSemaphoreHomeCycle scope home sigs order s))
    simp [Instr.wf] at h hbad ⊢
    grind
  | ringAdv j r =>
    refine (?_ : Refuses (execRingAdv j r s))
    unfold execRingAdv
    split
    · exact ⟨_, rfl⟩
    · exact refuses_events (fun _ => evTouch_wf) h
  | ringRel j r =>
    refine (?_ : Refuses (execRingRel j r s))
    unfold execRingRel
    split
    · exact ⟨_, rfl⟩
    · exact refuses_events (fun _ => evTouch_wf) h
  | keyListGeneration j r =>
    refine (?_ : Refuses (execKeyListGeneration j r s))
    unfold execKeyListGeneration
    split
    · exact ⟨_, rfl⟩
    · exact refuses_events (fun _ => evTouch_wf) h
  | prefixWrite j r =>
    refine (?_ : Refuses (execPrefixWrite j r s))
    unfold execPrefixWrite
    split
    · exact ⟨_, rfl⟩
    · split
      · exact refuses_events (fun _ => evTouch_wf) h
      · exact ⟨_, rfl⟩
  | frameEnd r =>
    refine (refuses_ite fun hn => ?_ : Refuses (execFrameEnd r s))
    dsimp only
    split
    · exact ⟨_, rfl⟩
    · refine refuses_if ?_
      have hev : r.ev.all AccEv.wfAgent = false := by simpa [Instr.wf, Nat.not_le.mp hn] using h
      rw [all_eq_false_of_imp (fun _ => frMeets_wf) hev]
      rfl
  | bar4Access write off d =>
    refine (refuses_ite fun hbad => refuses_ite fun hmeets => refuses_guardNext ?_ : Refuses (execBar4Access write off d s))
    have hev : d.ev.all AccEv.wfAgent = false := by
      simp [Instr.wf] at h hbad ⊢
      grind
    rw [all_eq_false_of_imp (fun _ => bar4Meets_wf) hev] at hmeets
    simpa using hmeets
  | modelLoadComplete k ev => exact refuses_if (by rw [all_eq_false_of_imp (fun _ => evLoad_wf) h]; rfl)
  | dma f q e ev =>
    refine (refuses_ite fun hmeets => refuses_hostExec ?_ : Refuses (execDma f q e ev s))
    rcases Bool.and_eq_false_iff.mp h with hopc | hev
    · exact hopc
    · rw [all_eq_false_of_imp (fun _ => dmaMeets_wf) hev] at hmeets
      exact absurd rfl hmeets
  | _ => exact (nomatch h)

end Sys2Proof.Machine
end

section
/-! Quantisation to A8 (02 R30, R48): no code is 80h, since no element is above 127 times its block's scale. -/
namespace Sys2Proof.Machine

/-! Magnitudes of finite values. -/

/-- The magnitude of a finite value. -/
def magOf (m : Nat) (e : Int) : ℚ := m * (2 : ℚ) ^ e

/-- A finite value of a magnitude up to `q`. -/
def MagLe (x : Fp) (q : ℚ) : Prop := ∃ n m e, x = .fin n m e ∧ magOf m e ≤ q

/-- A magnitude at a lower exponent. -/
theorem magOf_shift {m : Nat} {e g : Int} (h : g ≤ e) : ((m <<< (e - g).toNat : Nat) : ℚ) * (2 : ℚ) ^ g = magOf m e := by
  have hexp : (2 : ℚ) ^ e = 2 ^ (e - g).toNat * 2 ^ g := by
    rw [← zpow_natCast, Int.toNat_of_nonneg (Int.sub_nonneg.mpr h), ← zpow_add₀ two_ne_zero, Int.sub_add_cancel]
  rw [magOf, hexp, Nat.shiftLeft_eq, Nat.cast_mul, Nat.cast_pow, Nat.cast_ofNat, mul_assoc]

/-- Magnitudes compare as their values. -/
theorem fpLt_magnitudes {m n : Nat} {e f : Int} : fpLt (.fin false m e) (.fin false n f) = true ↔ magOf m e < magOf n f := by
  have hpos : (0 : ℚ) < 2 ^ min e f := zpow_pos two_pos _
  rw [← magOf_shift (Int.min_le_left e f), ← magOf_shift (Int.min_le_right e f), mul_lt_mul_iff_left₀ hpos, Nat.cast_lt]
  exact decide_eq_true_iff.trans Int.ofNat_lt

theorem not_fpLt_magnitudes {m n : Nat} {e f : Int} (h : fpLt (.fin false m e) (.fin false n f) ≠ true) : magOf n f ≤ magOf m e :=
  not_lt.mp fun hlt => h (fpLt_magnitudes.mpr hlt)

/-! The largest magnitude of a block. -/

/-- The fold of R48's step 2 over the unmarked elements. -/
def blockMax (a : Fp) (l : List (Fp × Bool)) : Fp :=
  l.foldl (fun (a : Fp) p => if p.2 then a else if fpLt a (fpAbs p.1) then fpAbs p.1 else a) a

/-- It is a magnitude above that of every unmarked element, within any bound of theirs. -/
theorem blockMax_spec {K : ℚ} {l : List (Fp × Bool)} {m : Nat} {e : Int} (hm : magOf m e ≤ K) (hl : ∀ p ∈ l, p.2 = false → MagLe p.1 K) :
    ∃ m' e', blockMax (.fin false m e) l = .fin false m' e' ∧ magOf m' e' ≤ K ∧ magOf m e ≤ magOf m' e'
      ∧ ∀ p ∈ l, p.2 = false → MagLe p.1 (magOf m' e') := by
  induction l generalizing m e with
  | nil => exact ⟨m, e, rfl, hm, le_rfl, fun p hp => absurd hp List.not_mem_nil⟩
  | cons p l ih =>
    have hrest : ∀ q ∈ l, q.2 = false → MagLe q.1 K := fun q hq => hl q (List.mem_cons_of_mem _ hq)
    obtain ⟨x, mark⟩ := p
    cases mark with
    | true =>
      obtain ⟨m', e', heq, hK, hle, hall⟩ := ih hm hrest
      refine ⟨m', e', heq, hK, hle, fun q hq hmark => ?_⟩
      rcases List.mem_cons.mp hq with rfl | hq
      · exact (nomatch hmark)
      · exact hall q hq hmark
    | false =>
      obtain ⟨n, mx, ex, rfl, hx⟩ := hl (x, false) List.mem_cons_self rfl
      by_cases hlt : fpLt (.fin false m e) (.fin false mx ex) = true
      · obtain ⟨m', e', heq, hK, hle, hall⟩ := ih hx hrest
        refine ⟨m', e', (congrArg (blockMax · l) (if_pos hlt)).trans heq, hK, (fpLt_magnitudes.mp hlt).le.trans hle, fun q hq hmark => ?_⟩
        rcases List.mem_cons.mp hq with rfl | hq
        · exact ⟨n, mx, ex, rfl, hle⟩
        · exact hall q hq hmark
      · obtain ⟨m', e', heq, hK, hle, hall⟩ := ih hm hrest
        refine ⟨m', e', (congrArg (blockMax · l) (if_neg hlt)).trans heq, hK, hle, fun q hq hmark => ?_⟩
        rcases List.mem_cons.mp hq with rfl | hq
        · exact ⟨n, mx, ex, rfl, (not_fpLt_magnitudes hlt).trans hle⟩
        · exact hall q hq hmark

/-! The scale. -/

/-- The largest magnitude that an element of an A8 block takes part with (R50). -/
def a8Max : ℚ := magOf (127 * 122880) 0

/-- A scale code other than 0 is one of which 127 times the scale is not below the block's largest magnitude. -/
theorem qScale_covers {m : Nat} {e : Int} (hm : magOf m e ≤ a8Max) {sm : Nat} {se : Int} {n : Bool}
    (hs : qScale 5 (.fin false m e) ≠ 0) (hval : ue5m3 (qScale 5 (.fin false m e)) = .fin n sm se) :
    magOf m e ≤ magOf (127 * sm) se := by
  have hcover : ∀ k, fpLe (.fin false m e) (fpMul (fpOfNat (qBound 5) 0) (ue5m3 k)) = true → ue5m3 k = .fin n sm se →
      magOf m e ≤ magOf (127 * sm) se := fun k hle hk => by
    have hpos : n = false := by
      unfold ue5m3 at hk
      dsimp only at hk
      split at hk <;> exact (Fp.fin.inj hk).1.symm
    rw [hk, hpos] at hle
    have hnlt : fpLt (.fin false (127 * sm) (0 + se)) (.fin false m e) ≠ true := by
      simpa [fpLe, fpMul, fpOfNat, qBound, fpIsNan] using hle
    rw [Int.zero_add] at hnlt
    exact not_fpLt_magnitudes hnlt
  unfold qScale at hs hval
  split at hs
  · exact absurd rfl hs
  next hzero =>
    rw [if_neg hzero] at hval
    cases hfind : (List.range 255).find? fun i => fpLe (.fin false m e) (fpMul (fpOfNat (qBound 5) 0) (ue5m3 (i + 1))) with
    | some i =>
      rw [hfind] at hval
      have hle := List.find?_some hfind
      exact hcover (i + 1) hle hval
    | none =>
      have htop : ¬ fpLe (.fin false m e) (fpMul (fpOfNat (qBound 5) 0) (ue5m3 (254 + 1))) = true :=
        List.find?_eq_none.mp hfind 254 (List.mem_range.mpr (by decide))
      refine absurd ?_ htop
      have hnlt : ¬ fpLt (.fin false (127 * 15) (0 + 13)) (.fin false m e) = true := fun hlt => by
        have := (fpLt_magnitudes.mp hlt).trans_le hm
        norm_num [magOf, a8Max] at this
      have hue : ue5m3 (254 + 1) = .fin false 15 13 := by decide
      rw [hue]
      simpa [fpLe, fpMul, fpOfNat, qBound, fpIsNan] using hnlt

/-- The nearest integer to a quotient up to 127. -/
theorem rneDiv_le {n d : Nat} (h : n ≤ 127 * d) : rneDiv n d ≤ 127 := by
  have hdiv := Nat.div_add_mod n d
  have hq : n / d ≤ 127 := Nat.div_le_of_le_mul (Nat.mul_comm 127 d ▸ h)
  unfold rneDiv
  dsimp only
  rcases Nat.lt_or_ge (n / d) 127 with hlt | hge
  · split
    · omega
    · split <;> omega
  · have hq : n / d = 127 := Nat.le_antisymm hq hge
    rw [hq] at hdiv
    have hr : n % d = 0 := by
      have := Nat.mul_comm d 127
      omega
    have hd : d ≠ 0 := by
      rintro rfl
      rw [Nat.div_zero] at hq
      cases hq
    rw [hr, hq, if_pos (by omega)]

/-- Magnitudes compare as their integers at a common exponent. -/
theorem shifted_le {m sm : Nat} {e se : Int} (h : magOf m e ≤ magOf (127 * sm) se) : m <<< (e - se).toNat ≤ 127 * (sm <<< (-(e - se)).toNat) := by
  have hpos : (0 : ℚ) < 2 ^ min e se := zpow_pos two_pos _
  rw [← magOf_shift (Int.min_le_left e se), ← magOf_shift (Int.min_le_right e se), mul_le_mul_iff_left₀ hpos, Nat.cast_le] at h
  have hm : (e - min e se).toNat = (e - se).toNat := by omega
  have hs : (se - min e se).toNat = (-(e - se)).toNat := by omega
  rwa [hm, hs, Nat.shiftLeft_eq (127 * sm), Nat.mul_assoc, ← Nat.shiftLeft_eq] at h

/-- A code of an element within 127 times the scale is none of 80h. -/
theorem qCode_ne {s : Nat} {x : Fp} (h : ∀ n m e k sm se, x = .fin n m e → s ≠ 0 → ue5m3 s = .fin k sm se → magOf m e ≤ magOf (127 * sm) se) :
    (qCode 5 s x).1 < 256 ∧ (qCode 5 s x).1 ≠ 0x80 := by
  unfold qCode
  split
  next n m e k sm se hs =>
    split
    · decide
    next hne =>
      have hscale : s ≠ 0 := by
        rintro rfl
        exact hne rfl
      have hle : rneDiv (m <<< (e - se).toNat) (sm <<< (-(e - se)).toNat) ≤ 127 := rneDiv_le (shifted_le (h n m e k sm se rfl hscale hs))
      rw [if_pos rfl]
      dsimp only
      unfold sgnInt
      split <;> omega
  · decide

theorem notCase2_le {n : Bool} {m : Nat} {e : Int} (h : qCase2 5 (.fin n m e) = false) : MagLe (.fin n m e) a8Max :=
  ⟨n, m, e, rfl, not_fpLt_magnitudes (Bool.eq_false_iff.mp h)⟩

/-- Where clipping is off every element but a NaN is made finite. -/
theorem qClamp_le {v : Fp} (h : fpIsNan v = false) : MagLe (qClamp 5 v) a8Max := by
  cases v with
  | nan => exact (nomatch h)
  | inf n => exact ⟨n, _, 0, rfl, le_rfl⟩
  | fin n m e =>
    unfold qClamp
    dsimp only
    split
    · exact ⟨_, _, 0, rfl, le_rfl⟩
    next hcase => exact notCase2_le (Bool.eq_false_iff.mpr hcase)

theorem mem_zip_maps {α β γ : Type} {f : α → β} {g : α → γ} {l : List α} {p : β × γ} (h : p ∈ (l.map f).zip (l.map g)) :
    ∃ v ∈ l, p = (f v, g v) := by
  rw [List.zip_map'] at h
  obtain ⟨v, hv, rfl⟩ := List.mem_map.mp h
  exact ⟨v, hv, rfl⟩

theorem mem_zip_map_right {α β : Type} {f : α → β} {l : List α} {p : α × β} (h : p ∈ l.zip (l.map f)) : ∃ v ∈ l, p = (v, f v) :=
  mem_zip_maps (f := id) (g := f) ((List.map_id l).symm ▸ h)

/-- The elements that take part in a block, with their marks, are finite and within the bound where they are unmarked (R50, R115). -/
theorem unmarked_le (rho : Nat) (outEn : Bool) (vs : List Fp) :
    ∀ p ∈ (if outEn then vs else vs.map (qClamp 5)).zip (if outEn then qMarks 5 rho vs else vs.map fun v => fpIsNan v), p.2 = false →
        MagLe p.1 a8Max := by
  intro p hp hmark
  cases outEn with
  | true =>
    obtain ⟨v, _, hv⟩ := mem_zip_map_right (f := fun v => qCase1 v || qCase2 5 v || (rho != 7 && !fpIsZero (qMean 5 vs)
      && fpLt (fpScale (qMean 5 vs) (rho + 1)) (fpAbs v))) hp
    subst hv
    simp only [Bool.or_eq_false_iff] at hmark
    obtain ⟨⟨hfin, hcase⟩, _⟩ := hmark
    cases v with
    | nan | inf => exact (nomatch hfin)
    | fin n m e => exact notCase2_le hcase
  | false =>
    obtain ⟨v, _, hv⟩ := mem_zip_maps (f := qClamp 5) (g := fpIsNan) hp
    subst hv
    exact qClamp_le hmark

/-- Settles O18. -/
theorem a8CodesAreNever80h : Obligations.A8CodesAreNever80h := by
  intro rho outEn vs c hc
  have hparts := unmarked_le rho outEn vs
  have hzero : magOf 0 0 ≤ a8Max := by norm_num [magOf, a8Max]
  obtain ⟨m, e, hmax, hbound, -, hall⟩ := blockMax_spec hzero hparts
  obtain ⟨q, hq, rfl⟩ := List.mem_map.mp hc
  obtain ⟨p, hp, rfl⟩ := List.mem_map.mp hq
  split
  · decide
  next hmark =>
    refine qCode_ne fun n m' e' k sm se hx hs hval => ?_
    have hle := hall p hp (Bool.eq_false_iff.mpr hmark)
    obtain ⟨n', m'', e'', hx', hle⟩ := hle
    obtain ⟨-, rfl, rfl⟩ := Fp.fin.inj (hx.symm.trans hx')
    refine hle.trans (qScale_covers (n := k) hbound ?_ ?_)
    · rw [← hmax]
      exact hs
    · rw [← hmax]
      exact hval

end Sys2Proof.Machine
end

section
/-! Writes to job memory, byte by byte: the addresses of a piece follow each other, and a write changes no byte beside its own (09 R216, R218; 11
R256). -/
namespace Sys2Proof.Machine

/-! The pieces of a run. -/

theorem cutAt_nil (n fuel a : Nat) : cutAt n fuel a [] = [] := by
  cases fuel <;> rfl

/-- A piece lies within its run and within one block of `n` bytes. -/
theorem mem_cutAt {n fuel a : Nat} {bs : List Nat} {l : Nat × List Nat} (hn : 0 < n) (h : l ∈ cutAt n fuel a bs) :
    a ≤ l.1 ∧ l.1 + l.2.length ≤ a + bs.length ∧ l.1 % n + l.2.length ≤ n := by
  induction fuel generalizing a bs with
  | zero => exact (nomatch h)
  | succ fuel ih =>
    have hmod := Nat.mod_lt a hn
    unfold cutAt at h
    split at h
    · exact (nomatch h)
    rcases List.mem_cons.mp h with rfl | h
    · rw [List.length_take]
      exact ⟨le_rfl, by dsimp only; omega, by dsimp only; omega⟩
    · rcases Nat.le_total (n - a % n) bs.length with hle | hle
      · have hrest := ih h
        rw [List.length_drop] at hrest
        omega
      · rw [List.drop_of_length_le hle, cutAt_nil] at h
        exact (nomatch h)

theorem mem_units {a : Nat} {bs : List Nat} {l : Nat × List Nat} (h : l ∈ units a bs) :
    a ≤ l.1 ∧ l.1 + l.2.length ≤ a + bs.length ∧ l.1 % 4096 + l.2.length ≤ 4096 := mem_cutAt (by decide) h

theorem mem_piecesAux {n fuel a len : Nat} {r : Nat × Nat} (hn : 0 < n) (h : r ∈ piecesAux n fuel a len) :
    a ≤ r.1 ∧ r.1 + r.2 ≤ a + len ∧ r.1 % n + r.2 ≤ n := by
  induction fuel generalizing a len with
  | zero => exact (nomatch h)
  | succ fuel ih =>
    have hmod := Nat.mod_lt a hn
    unfold piecesAux at h
    split at h
    · exact (nomatch h)
    rcases List.mem_cons.mp h with rfl | h
    · exact ⟨le_rfl, by dsimp only; omega, by dsimp only; omega⟩
    · have hrest := ih h
      omega

theorem mem_pieces {a len : Nat} {r : Nat × Nat} (h : r ∈ pieces 4096 a len) :
    a ≤ r.1 ∧ r.1 + r.2 ≤ a + len ∧ r.1 % 4096 + r.2 ≤ 4096 := mem_piecesAux (by decide) h

/-! Translation within a block of 4,096 bytes. -/

/-- A field of an address above bit 11 is that of the block's first byte. -/
theorem fld_block {va k hi lo : Nat} (hk : va % 4096 + k < 4096) (hlo : 12 ≤ lo) : fld (va + k) hi lo = fld va hi lo := by
  have hdiv : ∀ w, w >>> lo = w / 4096 / 2 ^ (lo - 12) := fun w => by
    rw [Nat.shiftRight_eq_div_pow, Nat.div_div_eq_div_mul, show 4096 = 2 ^ 12 from rfl, ← Nat.pow_add, Nat.add_sub_cancel' hlo]
  have hblock : (va + k) / 4096 = va / 4096 := by omega
  rw [fld, fld, hdiv, hdiv, hblock]

theorem ilvPa_block {b n j q o k : Nat} (hk : o % 4096 + k < 4096) : ilvPa b n j q (o + k) = ilvPa b n j q o + k := by
  have hdiv : (o + k) / 4096 = o / 4096 := by omega
  have hmod : (o + k) % 4096 = o % 4096 + k := by omega
  unfold ilvPa
  dsimp only
  rw [hdiv, hmod, ← Nat.add_assoc]

theorem placePa_block {x : Job} {pa k : Nat} (hk : pa % 4096 + k < 4096) : placePa x (pa + k) = placePa x pa + k := by
  have hpage : (pa + k - 0x004000000000) / 2 ^ 21 = (pa - 0x004000000000) / 2 ^ 21 := by omega
  have hoff : (pa + k) % 2 ^ 21 = pa % 2 ^ 21 + k := by omega
  have hle : decide (0x004000000000 ≤ pa + k) = decide (0x004000000000 ≤ pa) := by
    rw [decide_eq_decide]
    omega
  unfold placePa
  dsimp only
  rw [hpage, hoff, hle]
  split
  · rw [Nat.add_assoc]
  · rfl

/-- A page's bytes of a block follow each other, unless it has no interleave set to lie in. -/
theorem ptePa_block {s : State} {e : Pte} {o k : Nat} (hk : o % 4096 + k < 4096) :
    paKind (ptePa s e o) = .reserved ∧ ptePa s e o = 0x002000000000 ∨ ptePa s e (o + k) = ptePa s e o + k ∧ ptePa s e o % 4096 = o % 4096 := by
  unfold ptePa
  split
  · split
    · refine .inr ⟨ilvPa_block hk, ?_⟩
      unfold ilvPa
      dsimp only
      omega
    · exact .inl ⟨by decide, rfl⟩
  · exact .inr ⟨by omega, by omega⟩

/-- The bytes of a block follow each other in the memory that they translate to. -/
theorem xlate_block {s : State} {x : Job} {va k pa : Nat} {e : Pte} (h : xlate s x va = some (e, pa)) (hk : va % 4096 + k < 4096)
    (hkind : paKind pa ≠ .reserved) : xlate s x (va + k) = some (e, pa + k) := by
  unfold xlate at h ⊢
  split at h
  next hlt =>
    have hwalk : ptWalk x (va + k) = ptWalk x va := by
      unfold ptWalk
      rw [fld_block hk (by decide), fld_block hk (by decide)]
    have hoff : (va + k) % 2 ^ 21 = va % 2 ^ 21 + k := by omega
    rw [if_pos (by omega), hwalk, hoff]
    cases hpte : ptWalk x va with
    | none =>
      rw [hpte] at h
      exact (nomatch h)
    | some e' =>
      rw [hpte] at h
      obtain ⟨rfl, rfl⟩ := Prod.mk.inj (Option.some.inj h)
      rcases ptePa_block (s := s) (e := e') (o := va % 2 ^ 21) (k := k) (by omega) with ⟨-, hnone⟩ | ⟨hnext, hmod⟩
      · refine absurd ?_ hkind
        rw [hnone, show placePa x 0x002000000000 = 0x002000000000 by simp [placePa]]
        decide
      · rw [Option.map_some, hnext, placePa_block (by omega)]
  · exact (nomatch h)

/-! What the translation depends on beside the job: the vaults in service. -/

/-- The channels' fuses and the vaults' training are as in `s`. -/
structure SameVaults (s t : State) : Prop where
  trained : t.boot.trained = s.boot.trained
  dis : ∀ v c, (vchOf t v c).dis = (vchOf s v c).dis

theorem SameVaults.xlate {s t : State} (h : SameVaults s t) (x : Job) (va : Nat) : xlate t x va = xlate s x va := by
  have hup : vaultUp t = vaultUp s := by
    funext v
    unfold vaultUp vaultK
    simp only [h.trained, h.dis]
  have hilv : ilvSet t = ilvSet s := by
    unfold ilvSet
    rw [hup]
  unfold Machine.xlate ptePa
  rw [hilv]

theorem dis_modVch (s : State) (v c : Nat) {f : VChan → VChan} (hf : ∀ x, (f x).dis = x.dis) (v' c' : Nat) :
    (vchOf (modVch s v c f) v' c').dis = (vchOf s v' c').dis := by
  unfold vchOf modVch tget
  dsimp only
  rw [tfind_tset]
  split
  next h =>
    rw [← h, Option.getD_some, hf]
    rfl
  · rfl

theorem dis_queueLines (s : State) (pa n v c : Nat) : (vchOf (queueLines s pa n) v c).dis = (vchOf s v c).dis :=
  foldl_keeps (P := fun t : State => (vchOf t v c).dis = (vchOf s v c).dis) (fun t _ _ ht => by
    refine (dis_modVch t _ _ ?_ v c).trans ht
    exact fun _ => rfl) rfl

/-! What a write leaves unchanged. -/

/-- A job but for what notes its writes: the runs that it has written, the keys' counters and its counters. -/
def SameMap (x y : Job) : Prop := ∃ dirty running gcmCtr ctrs, y = { x with dirty := dirty, running := running, gcmCtr := gcmCtr, ctrs := ctrs }

theorem SameMap.refl (x : Job) : SameMap x x := ⟨_, _, _, _, rfl⟩

theorem SameMap.trans {x y z : Job} : SameMap x y → SameMap y z → SameMap x z := by
  rintro ⟨_, _, _, _, rfl⟩ ⟨_, _, _, _, rfl⟩
  exact ⟨_, _, _, _, rfl⟩

/-- Such a job's addresses translate as before. -/
theorem SameMap.xlate {x y : Job} (h : SameMap x y) (s : State) (va : Nat) : xlate s y va = xlate s x va := by
  obtain ⟨_, _, _, _, rfl⟩ := h
  rfl

/-- `t` is `s` but for writes of job `j` to the addresses of `A`, and for the spires of `P`, of which those of `R` change their scratchpads. -/
structure Wrote (j : Nat) (A P R : Nat → Prop) (s t : State) : Prop where
  frame : t = { s with spires := t.spires, jobs := t.jobs, mem := t.mem, far := t.far, hmem := t.hmem, vchans := t.vchans, wbulk := t.wbulk
                       ids := t.ids }
  jobs : ∀ k, k ≠ j → (∀ w ∈ s.wins, w.2.job ≠ k) → jobOf t k = jobOf s k
  own : ∀ x, jobOf s j = some x → ∃ y, jobOf t j = some y ∧ SameMap x y
  bytes : ∀ pa, paKind pa ≠ .window → ¬ A pa → paByte t pa = paByte s pa
  spires : ∀ q, ¬ P q → spOf t q = spOf s q
  scratch : ∀ q, ¬ R q → (spOf t q).sp = (spOf s q).sp
  dis : ∀ v c, (vchOf t v c).dis = (vchOf s v c).dis

section
variable {j : Nat} {A B P R : Nat → Prop} {s t u : State}

theorem Wrote.refl : Wrote j A P R s s := ⟨rfl, fun _ _ _ => rfl, fun x hx => ⟨x, hx, .refl x⟩, fun _ _ _ => rfl, fun _ _ => rfl, fun _ _ => rfl,
    fun _ _ => rfl⟩

/-- Where a translation ends depends on no field that a write changes. -/
theorem Wrote.xlate (h : Wrote j A P R s t) (x : Job) (va : Nat) : xlate t x va = xlate s x va := by
  exact SameVaults.xlate ⟨by rw [h.frame], h.dis⟩ x va

theorem Wrote.wins (h : Wrote j A P R s t) : t.wins = s.wins := by
  rw [h.frame]

theorem Wrote.trans (h : Wrote j A P R s t) (h' : Wrote j A P R t u) : Wrote j A P R s u where
  frame := by
    rw [h'.frame, h.frame]
  jobs k hk hw := (h'.jobs k hk (h.wins ▸ hw)).trans (h.jobs k hk hw)
  own x hx := by
    obtain ⟨y, hy, hxy⟩ := h.own x hx
    obtain ⟨z, hz, hyz⟩ := h'.own y hy
    exact ⟨z, hz, hxy.trans hyz⟩
  bytes pa hk ha := (h'.bytes pa hk ha).trans (h.bytes pa hk ha)
  spires q hq := (h'.spires q hq).trans (h.spires q hq)
  scratch q hq := (h'.scratch q hq).trans (h.scratch q hq)
  dis v c := (h'.dis v c).trans (h.dis v c)

/-- A change of what notes the writes of a job. -/
theorem wrote_modJob {k : Nat} {f : Job → Job} (hf : ∀ x, SameMap x (f x)) (hk : k = j ∨ ∃ w ∈ s.wins, w.2.job = k) :
    Wrote j A P R s (modJob s k f) where
  frame := by
    unfold modJob
    split <;> rfl
  jobs i hi hw := jobOf_modJob_ne (by
    rintro rfl
    rcases hk with rfl | ⟨w, hw', hjob⟩
    · exact hi rfl
    · exact hw w hw' hjob)
  own x hx := by
    by_cases hkj : k = j
    · subst hkj
      rw [modJob_of_job _ hx]
      exact ⟨f x, jobOf_setJob_self .., hf x⟩
    · exact ⟨x, (jobOf_modJob_ne hkj).trans hx, .refl x⟩
  bytes pa hk _ := by
    unfold modJob
    split
    · unfold paByte
      split
      · rfl
      · rfl
      · rfl
      next h => exact absurd h hk
      · rfl
    · rfl
  spires q _ := by
    unfold modJob
    split <;> rfl
  scratch q _ := by
    unfold modJob
    split <;> rfl
  dis v c := by
    unfold modJob
    split <;> rfl

theorem sameMap_noteWrite (x : Job) (host : Bool) (c : Nat × Nat) : SameMap x (match x.running with
    | some r => { x with dirty := if host then x.dirty else x.dirty ++ [c], running := some { r with host := r.host || host } }
    | none => x) := by
  split
  · exact ⟨_, _, _, _, rfl⟩
  · exact .refl x

theorem wrote_noteWrite (pa n : Nat) : Wrote j A P R s (noteWrite s j pa n) :=
  wrote_modJob (fun x => sameMap_noteWrite x (paKind pa == .window) (unplacePa x pa, n)) (.inl rfl)

/-! Bytes of memory. -/

/-- A byte of the vaults, the dome store or far memory depends on these alone. -/
theorem paByte_congr {pa : Nat} (hk : paKind pa ≠ .window) (hmem : paKind pa = .vault ∨ paKind pa = .dome → t.mem.get pa = s.mem.get pa)
    (hcell : paKind pa = .far → cellAt t.far.cells pa = cellAt s.far.cells pa) (hfree : t.far.free = s.far.free)
    (hboot : t.boot = s.boot) (hepoch : t.farEpoch = s.farEpoch) : paByte t pa = paByte s pa := by
  unfold paByte
  cases hkind : paKind pa with
  | vault => exact congrArg BitVec.toNat (hmem (.inl hkind))
  | dome => exact congrArg BitVec.toNat (hmem (.inr hkind))
  | far =>
    dsimp only
    rw [hcell hkind, hfree, hboot, hepoch]
  | window => exact absurd hkind hk
  | reserved => rfl

/-- A change of memory, far memory, host memory and the channels' queues alone. -/
theorem wrote_memory {mem far : Store} {hmem : Memory} {vchans : Tbl VChan} {wbulk : List WBulk}
    (ht : t = { s with mem := mem, far := far, hmem := hmem, vchans := vchans, wbulk := wbulk }) (hmem : ∀ a, ¬ A a → mem.get a = s.mem.get a)
    (hcell : ∀ a, ¬ A a → cellAt far.cells a = cellAt s.far.cells a) (hfree : far.free = s.far.free)
    (hdis : ∀ v c, (vchOf t v c).dis = (vchOf s v c).dis) : Wrote j A P R s t := by
  subst ht
  exact ⟨rfl, fun _ _ _ => rfl, fun x hx => ⟨x, hx, .refl x⟩, fun a hk ha => paByte_congr hk (fun _ => hmem a ha) (fun _ => hcell a ha) hfree rfl rfl,
    fun _ _ => rfl, fun _ _ => rfl, hdis⟩

theorem wrote_hostPut (a : Nat) (bs : List Nat) : Wrote j A P R s (hostPut s a bs) :=
  wrote_memory (mem := s.mem) (far := s.far) (vchans := s.vchans) (wbulk := s.wbulk) rfl (fun _ _ => rfl) (fun _ _ => rfl) rfl fun _ _ => rfl

/-- A sealed unit of a protected window lies in host memory, and its job counts it. -/
theorem wrote_gcmWrite {k base len off : Nat} {bs : List Nat} (hk : k = j ∨ ∃ w ∈ s.wins, w.2.job = k) :
    Wrote j A P R s ((gcmWrite s k base len off bs).getD s) := by
  unfold gcmWrite
  split
  · exact .refl
  next x _ =>
    dsimp only
    generalize (if bs.length = 4096 then some bs else _) = u
    cases u with
    | none => exact .refl
    | some p =>
      refine ((wrote_hostPut ..).trans (wrote_hostPut ..)).trans (wrote_modJob (fun x => ⟨_, _, _, _, rfl⟩) ?_)
      exact hk

/-- An address outside a run that lies in `A`. -/
theorem outside_of_not {pa n : Nat} (hA : ∀ k, k < n → A (pa + k)) {a : Nat} (ha : ¬ A a) : a < pa ∨ pa + n ≤ a := by
  by_contra hin
  exact ha (Nat.add_sub_cancel' (show pa ≤ a by omega) ▸ hA (a - pa) (by omega))

/-- A write at an address changes the bytes of its run alone. -/
theorem wrote_paPut {pa : Nat} {bs : List Nat} (hA : ∀ k, k < bs.length → A (pa + k)) : Wrote j A P R s (paPut s pa bs) := by
  unfold paPut
  split
  · obtain ⟨vchans, hq⟩ := queueLines_frame { s with mem := s.mem.put pa bs } pa bs.length
    have hdis := dis_queueLines { s with mem := s.mem.put pa bs } pa bs.length
    rw [hq] at hdis ⊢
    exact wrote_memory (far := s.far) (hmem := s.hmem) (wbulk := s.wbulk) rfl (fun _ ha => Store.put_get_out (outside_of_not hA ha)) (fun _ _ =>
        rfl) rfl
      hdis
  · exact wrote_memory (far := s.far) (hmem := s.hmem) (vchans := s.vchans) (wbulk := s.wbulk) rfl
      (fun _ ha => Store.put_get_out (outside_of_not hA ha)) (fun _ _ => rfl) rfl fun _ _ => rfl
  · exact wrote_memory (mem := s.mem) (hmem := s.hmem) (vchans := s.vchans) (wbulk := s.wbulk) rfl (fun _ _ => rfl)
      (fun _ ha => cellAt_put_out (outside_of_not hA ha)) rfl fun _ _ => rfl
  · split
    next w hw =>
      dsimp only
      split
      · exact wrote_gcmWrite (.inr ⟨_, mem_of_tfind hw, rfl⟩)
      · exact wrote_hostPut ..
    · exact .refl
  · exact .refl

/-- So does one that fills its run with zeros. -/
theorem wrote_zeroMem {pa n : Nat} (hA : ∀ k, k < n → A (pa + k)) : Wrote j A P R s (zeroMem s pa n) :=
  wrote_memory (far := s.far) (hmem := s.hmem) (vchans := s.vchans) rfl (fun _ ha => Store.mark_get (outside_of_not hA ha)) (fun _ _ => rfl) rfl
    fun _ _ => rfl

/-! Runs of job memory. -/

/-- The addresses at which the bytes of a run of job memory lie. -/
def RunAt (s : State) (x : Job) (va n a : Nat) : Prop := ∃ o < n, (xlate s x (va + o)).map (·.2) = some a

/-- The bytes of a piece lie where the piece's first byte does, one after the other. -/
theorem runAt_piece {x : Job} {va n b len pa : Nat} {e : Pte} (hva : va ≤ b) (hend : b + len ≤ va + n) (hblock : b % 4096 + len ≤ 4096)
    (hx : xlate s x b = some (e, pa)) (hkind : paKind pa ≠ .reserved) : ∀ k, k < len → RunAt s x va n (pa + k) := fun k hk => by
  refine ⟨b + k - va, by omega, ?_⟩
  rw [show va + (b + k - va) = b + k by omega, xlate_block hx (by omega) hkind]
  rfl

/-- A write that goes piece by piece, each piece at the address where it translates. -/
theorem wrote_pieces {α : Type} {x : Job} {l : List α} {f : State → α → State} (hx : jobOf s j = some x)
    (hf : ∀ t y a, a ∈ l → jobOf t j = some y → (∀ va, xlate t y va = xlate s x va) → Wrote j A P R t (f t a)) : Wrote j A P R s (l.foldl f s) := by
  refine foldl_keeps (P := Wrote j A P R s) (fun t a ha ht => ?_) .refl
  obtain ⟨y, hy, hxy⟩ := ht.own x hx
  exact ht.trans (hf t y a ha hy fun va => (ht.xlate y va).trans (hxy.xlate s va))

/-- Bytes put at the address of a piece lie in its run. -/
theorem wrote_paPut_piece {x : Job} {va n b pa : Nat} {e : Pte} {bs : List Nat} (hva : va ≤ b) (hend : b + bs.length ≤ va + n)
    (hblock : b % 4096 + bs.length ≤ 4096) (hx : xlate s x b = some (e, pa)) : Wrote j (RunAt s x va n) P R t (paPut t pa bs) := by
  by_cases hkind : paKind pa = .reserved
  · have hput : paPut t pa bs = t := by
      unfold paPut
      rw [hkind]
    rw [hput]
    exact .refl
  · exact wrote_paPut (runAt_piece hva hend hblock hx hkind)

theorem wrote_vaPutReq {x : Job} {va : Nat} {bs : List Nat} (hx : jobOf s j = some x) :
    Wrote j (RunAt s x va bs.length) P R s (vaPutReq s j va bs) := by
  refine wrote_pieces hx fun t y l hl hy hxl => ?_
  obtain ⟨hva, hend, hblock⟩ := mem_units hl
  rw [hy]
  dsimp only
  rw [hxl]
  split
  next e pa hpa => exact (wrote_paPut_piece hva hend hblock hpa).trans (wrote_noteWrite ..)
  · exact .refl

theorem wrote_vaPut {x : Job} {va : Nat} {bs : List Nat} (hx : jobOf s j = some x) : Wrote j (RunAt s x va bs.length) P R s (vaPut s j va bs) := by
  refine wrote_pieces hx fun t y l hl hy hxl => ?_
  obtain ⟨hva, hend, hblock⟩ := mem_units hl
  rw [hy]
  dsimp only
  rw [hxl]
  split
  next e pa hpa => exact wrote_paPut_piece hva hend hblock hpa
  · exact .refl

theorem wrote_vaZero {x : Job} {va n : Nat} (hx : jobOf s j = some x) : Wrote j (RunAt s x va n) P R s (vaZero s j va n) := by
  refine wrote_pieces hx fun t y r hr hy hxl => ?_
  obtain ⟨hva, hend, hblock⟩ := mem_pieces hr
  rw [hy]
  dsimp only
  rw [hxl]
  split
  next e pa hpa =>
    refine .trans ?_ (wrote_noteWrite ..)
    split
    next hkind => exact wrote_zeroMem (runAt_piece hva hend hblock hpa (by rintro h; simp [h] at hkind))
    · refine wrote_paPut_piece hva ?_ ?_ hpa
      · rwa [List.length_replicate]
      · rwa [List.length_replicate]
  · exact .refl

end

end Sys2Proof.Machine
end

section
/-! The data effect of an instruction: the scratchpad at once, job memory as issued writes (03 R83; 11 R255, R256). -/
namespace Sys2Proof.Machine

/-- `t` is `s` but for writes issued by an instruction of job `j`: `L` lists them. -/
structure Issued (j lsp seq : Nat) (L : List (Bool × Nat × Nat × List Nat)) (s t : State) : Prop where
  frame : t = { s with jobs := t.jobs, writes := t.writes, ids := t.ids }
  jobs : ∀ k, k ≠ j → jobOf t k = jobOf s k
  own : ∀ x, jobOf s j = some x → ∃ y, jobOf t j = some y ∧ SameMap x y
  writes : ∃ l, t.writes = s.writes ++ l ∧ (l.map fun x => (x.qsw, x.va, x.pa, x.data)) = L ∧ ∀ x ∈ l, x.job = j ∧ x.lsp = lsp ∧ x.seq = seq

section
variable {j lsp seq : Nat} {L M : List (Bool × Nat × Nat × List Nat)} {s t u : State}

theorem Issued.refl : Issued j lsp seq [] s s := ⟨rfl, fun _ _ => rfl, fun x hx => ⟨x, hx, .refl x⟩, [], by simp, rfl, fun _ h => absurd h
    List.not_mem_nil⟩

theorem Issued.trans (h : Issued j lsp seq L s t) (h' : Issued j lsp seq M t u) : Issued j lsp seq (L ++ M) s u where
  frame := by
    rw [h'.frame, h.frame]
  jobs k hk := (h'.jobs k hk).trans (h.jobs k hk)
  own x hx := by
    obtain ⟨y, hy, hxy⟩ := h.own x hx
    obtain ⟨z, hz, hyz⟩ := h'.own y hy
    exact ⟨z, hz, hxy.trans hyz⟩
  writes := by
    obtain ⟨l, hl, hmap, hall⟩ := h.writes
    obtain ⟨m, hm, hmap', hall'⟩ := h'.writes
    refine ⟨l ++ m, by rw [hm, hl, List.append_assoc], by rw [List.map_append, hmap, hmap'], fun x hx => ?_⟩
    exact (List.mem_append.mp hx).elim (hall x) (hall' x)

theorem Issued.xlate (h : Issued j lsp seq L s t) (x : Job) (va : Nat) : xlate t x va = xlate s x va := by
  refine SameVaults.xlate ⟨?_, fun v c => ?_⟩ x va
  · rw [h.frame]
  · rw [h.frame]
    rfl

theorem Issued.wins (h : Issued j lsp seq L s t) : t.wins = s.wins := by
  rw [h.frame]

/-- A change of what notes the writes of the job. -/
theorem issued_modJob {f : Job → Job} (hf : ∀ x, SameMap x (f x)) : Issued j lsp seq [] s (modJob s j f) where
  frame := by
    unfold modJob
    split <;> rfl
  jobs _ hk := jobOf_modJob_ne (Ne.symm hk)
  own x hx := by
    rw [modJob_of_job _ hx]
    exact ⟨f x, jobOf_setJob_self .., hf x⟩
  writes := by
    refine ⟨[], ?_, rfl, fun _ h => absurd h List.not_mem_nil⟩
    unfold modJob
    split <;> exact (List.append_nil _).symm

theorem issued_issueOne (s : State) (j lsp seq : Nat) (qsw : Bool) (l : Nat × List Nat) (pa : Nat) :
    Issued j lsp seq [(qsw, l.1, pa, l.2)] s (issueOne s j lsp seq qsw l pa) := by
  unfold issueOne noteWrite
  refine (List.append_nil [_] ▸ Issued.trans ?_ (issued_modJob fun x => sameMap_noteWrite ..) : Issued j lsp seq [(qsw, l.1, pa, l.2)] s _)
  exact ⟨rfl, fun _ _ => rfl, fun x hx => ⟨x, hx, .refl x⟩, [_], rfl, rfl, fun x hx => by
    obtain rfl := List.mem_singleton.mp hx
    exact ⟨rfl, rfl, rfl⟩⟩

/-- The writes of a run (`issuedBy`'s). -/
def runWrites (s : State) (y : Job) (qsw : Bool) (va : Nat) (bs : List Nat) : List (Bool × Nat × Nat × List Nat) :=
  (issueCut s y va bs).filterMap fun l => (xlate s y l.1).map fun t => (qsw, l.1, t.2, l.2)

theorem issuedBy_eq (s : State) (y : Job) (e : Eff) : issuedBy s y e =
    ((effRuns e).flatMap fun w => runWrites s y false w.addr w.data) ++ e.qsw.flatMap fun a => runWrites s y true a (List.replicate 8 0) := rfl

theorem issueCut_congr {x y : Job} (hx : ∀ va, xlate t y va = xlate s x va) (hw : t.wins = s.wins) (va : Nat) (bs : List Nat) :
    issueCut t y va bs = issueCut s x va bs := by
  unfold issueCut gcmAt
  simp only [hx, hw]

theorem runWrites_congr {x y : Job} (hx : ∀ va, xlate t y va = xlate s x va) (hw : t.wins = s.wins) (qsw : Bool) (va : Nat) (bs : List Nat) :
    runWrites t y qsw va bs = runWrites s x qsw va bs := by
  unfold runWrites
  rw [issueCut_congr hx hw]
  simp only [hx]

/-- Writes issued one after the other. -/
theorem issued_foldl {α : Type} {l : List α} {f : State → α → State} {g : α → List (Bool × Nat × Nat × List Nat)}
    (hf : ∀ t L a, Issued j lsp seq L s t → Issued j lsp seq (g a) t (f t a)) : Issued j lsp seq (l.flatMap g) s (l.foldl f s) := by
  have hrun : ∀ t L, Issued j lsp seq L s t → Issued j lsp seq (L ++ l.flatMap g) s (l.foldl f t) := by
    induction l with
    | nil => exact fun t L ht => (List.append_nil L).symm ▸ ht
    | cons a l ih =>
      intro t L ht
      rw [List.flatMap_cons, ← List.append_assoc]
      exact ih _ _ (ht.trans (hf t L a ht))
  exact hrun s [] .refl

/-- Issuing a run issues its pieces. -/
theorem issued_issueWr {y : Job} (hy : jobOf s j = some y) (qsw : Bool) (va : Nat) (bs : List Nat) :
    Issued j lsp seq (runWrites s y qsw va bs) s (issueWr s j lsp seq qsw va bs) := by
  unfold issueWr runWrites
  rw [hy, List.filterMap_eq_flatMap_toList]
  refine issued_foldl fun t L l ht => ?_
  rw [ht.xlate]
  cases xlate s y l.1 with
  | none => exact .refl
  | some q => exact issued_issueOne ..

/-- Issuing runs one after the other issues what each would at first. -/
theorem issued_runs {α : Type} {y : Job} {l : List α} {qsw : Bool} {va : α → Nat} {bs : α → List Nat} (hy : jobOf s j = some y) :
    Issued j lsp seq (l.flatMap fun a => runWrites s y qsw (va a) (bs a)) s (l.foldl (fun s a => issueWr s j lsp seq qsw (va a) (bs a)) s) := by
  refine issued_foldl fun t L a ht => ?_
  obtain ⟨z, hz, hyz⟩ := ht.own y hy
  rw [← runWrites_congr (fun va => (ht.xlate z va).trans (hyz.xlate s va)) ht.wins]
  exact issued_issueWr hz ..

theorem sameMap_counts (l : List (Ctr × Nat)) (x : Job) : SameMap x (l.foldl (fun x c => ctrAdd x c.1 c.2) x) :=
  foldl_keeps (P := SameMap x) (fun _ _ _ h => h.trans ⟨_, _, _, _, rfl⟩) (.refl x)

/-- What an effect writes to the scratchpad. -/
def scratchPut (e : Eff) (st : Store) : Store := (e.wr.filter (·.space = 0)).foldl (fun st w => st.put w.addr w.data) st

/-- The effect of an instruction: its scratchpad bytes, and its writes issued. -/
theorem issued_landEff {p : Nat} {y : Job} {e : Eff} (hy : jobOf s j = some y) :
    Issued j lsp seq (issuedBy s y e) (modSp s p fun x => { x with sp := scratchPut e x.sp }) (landEff s p j lsp seq e) := by
  have hxl : ∀ va, xlate (modSp s p fun x => { x with sp := scratchPut e x.sp }) y va = xlate s y va := SameVaults.xlate ⟨rfl, fun _ _ => rfl⟩ y
  have hrun : ∀ qsw va bs, runWrites (modSp s p fun x => { x with sp := scratchPut e x.sp }) y qsw va bs = runWrites s y qsw va bs :=
    runWrites_congr hxl rfl
  have hruns := issued_runs (lsp := lsp) (seq := seq) (s := modSp s p fun x => { x with sp := scratchPut e x.sp }) (l := effRuns e) (qsw := false)
    (va := Wr.addr) (bs := Wr.data) hy
  obtain ⟨z, hz, hyz⟩ := hruns.own y hy
  have hwords := issued_runs (lsp := lsp) (seq := seq) (l := e.qsw) (qsw := true) (va := id) (bs := fun _ => List.replicate 8 0) hz
  have hboth := (hruns.trans hwords).trans (issued_modJob (sameMap_counts e.cnt))
  have heq := runWrites_congr (x := y) (fun va => (hruns.xlate z va).trans (hyz.xlate _ va)) hruns.wins
  simp only [heq, hrun, List.append_nil] at hboth
  exact hboth

/-- Bytes of the scratchpad outside the runs that an effect writes there. -/
theorem scratchPut_get {e : Eff} {a : Nat} (h : ∀ v ∈ e.wr, v.space = 0 → a < v.addr ∨ v.addr + v.data.length ≤ a) (st : Store) :
    (scratchPut e st).get a = st.get a := by
  refine foldl_keeps (P := fun t : Store => t.get a = st.get a) (fun t v hv ht => (Store.put_get_out ?_).trans ht) rfl
  obtain ⟨hv, hspace⟩ := List.mem_filter.mp hv
  exact h v hv (of_decide_eq_true hspace)

end

end Sys2Proof.Machine
end

section
/-! What a data instruction leaves unchanged where its accesses are good. -/
namespace Sys2Proof.Machine

/-- The state in which a data instruction is in flight, its scratchpad bytes written and its writes issued. -/
def dataLand (s : State) (p : Nat) (i : Iss) (w : Nat) (d : DataOp) : State :=
  landEff (modSp s p fun x => { setCtx x (pcNext (d.ctx i.c)) with
    seq := x.seq + 1
    infl := x.infl ++ [d.inf { seq := i.x.seq, lidx := i.c.lidx, pc := i.c.pc, word := w, units := d.units, rd := d.rd, wr := d.wr, since :=
        i.x.cycles }] })
    p i.j i.c.lidx i.x.seq d.eff

theorem dataGo_of_good {s : State} {p w : Nat} {i : Iss} {d : DataOp} (h : accAll s i.y d.vrd (effRanges d.eff) = none) :
    dataGo s p i w d = d.post (dataLand s p i w d) := by
  unfold dataGo
  rw [h]
  rfl

/-- What it leaves of the state: `t` is `s` but for these. -/
structure Landed (s : State) (p : Nat) (i : Iss) (d : DataOp) (t : State) : Prop where
  frame : t = { s with spires := t.spires, jobs := t.jobs, writes := t.writes, ids := t.ids }
  jobs : ∀ k, k ≠ i.j → jobOf t k = jobOf s k
  own : ∃ y, jobOf t i.j = some y ∧ SameMap i.y y
  spires : ∀ q, q ≠ p → spOf t q = spOf s q
  scratch : (spOf t p).sp = scratchPut d.eff (spOf s p).sp
  infl : (spOf t p).infl.length = i.x.infl.length + 1
  seq : (spOf t p).seq = i.x.seq + 1
  writes : ∃ l, t.writes = s.writes ++ l ∧ (l.map fun x => (x.qsw, x.va, x.pa, x.data)) = issuedBy s i.y d.eff
    ∧ ∀ x ∈ l, x.job = i.j ∧ x.lsp = i.c.lidx ∧ x.seq = i.x.seq

theorem sp_setCtx (x : Spire) (c : LCtx) : (setCtx x c).sp = x.sp := by
  unfold setCtx
  split <;> rfl

/-- What the instruction is in flight as. -/
def dataInfl (i : Iss) (w : Nat) (d : DataOp) : InFl :=
  d.inf { seq := i.x.seq, lidx := i.c.lidx, pc := i.c.pc, word := w, units := d.units, rd := d.rd, wr := d.wr, since := i.x.cycles }

/-- The issuing spire with an instruction in flight, passed to the next word. -/
def spIssued (c : LCtx) (r : InFl) (x : Spire) : Spire := { setCtx x c with seq := x.seq + 1, infl := x.infl ++ [r] }

/-- The state in which its writes are issued. -/
def scratchDone (s : State) (p : Nat) (i : Iss) (w : Nat) (d : DataOp) : State :=
  modSp (modSp s p (spIssued (pcNext (d.ctx i.c)) (dataInfl i w d))) p fun x => { x with sp := scratchPut d.eff x.sp }

theorem issuedBy_modSp (s : State) (p : Nat) (f : Spire → Spire) (y : Job) (e : Eff) : issuedBy (modSp s p f) y e = issuedBy s y e := by
  have hrun := runWrites_congr (s := s) (t := modSp s p f) (x := y) (y := y) (SameVaults.xlate ⟨rfl, fun _ _ => rfl⟩ y) rfl
  simp only [issuedBy_eq, hrun]

theorem landed_dataLand {s : State} {p w : Nat} {i : Iss} (hi : issOf s p w = some i) (d : DataOp) : Landed s p i d (dataLand s p i w d) := by
  have hj : jobOf s i.j = some i.y := issOf_job hi
  have hx : i.x = spOf s p := issOf_spire hi
  have hland : Issued i.j i.c.lidx i.x.seq _ (scratchDone s p i w d) (dataLand s p i w d) :=
    issued_landEff (p := p) (e := d.eff) (s := modSp s p (spIssued (pcNext (d.ctx i.c)) (dataInfl i w d))) hj
  have hspires : (dataLand s p i w d).spires = (scratchDone s p i w d).spires := by rw [hland.frame]
  have hsp : ∀ q, spOf (dataLand s p i w d) q = spOf (scratchDone s p i w d) q :=
      fun q => congrArg (fun t : Tbl Spire => tget ({} : Spire) t q) hspires
  have hset := sp_setCtx (spOf s p) (pcNext (d.ctx i.c))
  have hself : spOf (dataLand s p i w d) p = _ := (hsp p).trans (spOf_modSp_self ..)
  rw [spOf_modSp_self] at hself
  refine ⟨?_, hland.jobs, hland.own i.y hj, fun q hq => ?_, ?_, ?_, ?_, ?_⟩
  · rw [hland.frame]
    rfl
  · exact (hsp q).trans ((spOf_modSp_ne (Ne.symm hq)).trans (spOf_modSp_ne (Ne.symm hq)))
  · rw [hself]
    exact congrArg (scratchPut d.eff) hset
  · rw [hself, hx]
    exact List.length_append
  · rw [hself, hx]
    rfl
  · obtain ⟨l, hl, hmap, hall⟩ := hland.writes
    exact ⟨l, hl, hmap.trans (issuedBy_modSp ..), hall⟩

section
variable {s t : State} {p w : Nat} {i : Iss} {d : DataOp}

/-- What a job's windows are sealed with is unchanged. -/
theorem Landed.keys (h : Landed s p i d t) (hj : jobOf s i.j = some i.y) (k : Nat) :
    (jobOf t k).map (fun x => (x.kt, x.handle)) = (jobOf s k).map fun x => (x.kt, x.handle) := by
  by_cases hk : k = i.j
  · obtain ⟨y, hy, _, _, _, _, hsame⟩ := h.own
    rw [hk, hy, hj, hsame]
    rfl
  · rw [h.jobs k hk]

/-- Every byte of memory, host memory and far memory reads as before. -/
theorem Landed.paByte (h : Landed s p i d t) (hj : jobOf s i.j = some i.y) (pa : Nat) : paByte t pa = paByte s pa := by
  have hframe := h.frame
  have hkeys := h.keys hj
  by_cases hk : paKind pa = .window
  · unfold Machine.paByte
    rw [hk]
    dsimp only
    have hwins : t.wins = s.wins := by rw [hframe]
    have hhost : ∀ a, hostByte t a = hostByte s a := fun a => by
      rw [hframe]
      rfl
    have hunit : ∀ key h base len k zeroOk, gcmUnit t key h base len k zeroOk = gcmUnit s key h base len k zeroOk := by
      intro key h base len k zeroOk
      rw [hframe]
      rfl
    rw [hwins]
    split
    next v _ =>
      have hv := hkeys v.job
      simp only [hhost, hunit]
      split
      · unfold jobHandle
        cases ht : jobOf t v.job <;> cases hs : jobOf s v.job <;> rw [ht, hs] at hv
        · exact (nomatch hv)
        · exact (nomatch hv)
        · obtain ⟨hkt, hhandle⟩ := Prod.mk.inj (Option.some.inj hv)
          simp only [hkt, hhandle, Option.map_some]
      · rfl
    · rfl
  · refine paByte_congr hk ?_ ?_ ?_ ?_ ?_
    · exact fun _ => by rw [hframe]
    · exact fun _ => by rw [hframe]
    · rw [hframe]
    · rw [hframe]
    · rw [hframe]

theorem Landed.scratch_get (h : Landed s p i d t) {a : Nat} (ha : ∀ v ∈ d.eff.wr, v.space = 0 → a < v.addr ∨ v.addr + v.data.length ≤ a) :
    (spOf t p).sp.get a = (spOf s p).sp.get a := by
  rw [h.scratch]
  exact scratchPut_get ha _

theorem Landed.dataFrame (h : Landed s p i d t) : DataFrame s p i d t :=
  ⟨h.spires, fun k hk _ => h.jobs k hk, h.infl, h.seq, h.writes⟩

end

/-- A data instruction whose effect is its whole outcome. -/
theorem dataGo_frame {s : State} {p w : Nat} {i : Iss} {d : DataOp} (hi : issOf s p w = some i) (hgood : accAll s i.y d.vrd (effRanges d.eff) = none)
    (hpost : d.post = id) : Landed s p i d (dataGo s p i w d) := by
  rw [dataGo_of_good hgood, hpost]
  exact landed_dataLand hi d

/-- The instructions but ATTN and XSEND have no outcome beside their effect. -/
theorem post_eq_id (s : State) (p : Nat) (i : Iss) (w : Nat) : ∀ d ∈ [mmaOp s p i w, mma2Op s p i w, vopOp s p i w, sfnOp s p i w, rstatOp s p i w,
    cdwOp s p i w, qntOp s p i w, dqtOp s p i w, moveOp s p i w, combOp s p i w], d.post = id := by
  intro d hd
  simp only [List.mem_cons, List.not_mem_nil, or_false] at hd
  rcases hd with rfl | rfl | rfl | rfl | rfl | rfl | rfl | rfl | rfl | rfl
  all_goals rfl

end Sys2Proof.Machine
end

section
/-! ATTN and XSEND where they go, and the frame of every data instruction (04 R98; 06 R166; 14 R323 to R331). -/
namespace Sys2Proof.Machine

/-! Rules for the writes of a landing. -/

section
variable {j : Nat} {A B P R : Nat → Prop} {s t : State}

theorem Wrote.mono (h : Wrote j A P R s t) (hAB : ∀ a, A a → B a) : Wrote j B P R s t :=
  { h with bytes := fun pa hk hb => h.bytes pa hk fun ha => hb (hAB pa ha) }

theorem RunAt.mono {x : Job} {va n va' n' a : Nat} (h : RunAt s x va n a) (hva : va' ≤ va) (hend : va + n ≤ va' + n') : RunAt s x va' n' a := by
  obtain ⟨o, ho, ha⟩ := h
  exact ⟨va - va' + o, by omega, by rwa [show va' + (va - va' + o) = va + o by omega]⟩

theorem RunAt.congr {x y : Job} {va n a : Nat} (hx : ∀ va, xlate t y va = xlate s x va) (h : RunAt t y va n a) : RunAt s x va n a := by
  obtain ⟨o, ho, ha⟩ := h
  exact ⟨o, ho, hx (va + o) ▸ ha⟩

/-- A spire of `P` is changed, its scratchpad only where it is one of `R`. -/
theorem wrote_modSp {q : Nat} {f : Spire → Spire} (hP : P q) (hR : R q ∨ (f (spOf s q)).sp = (spOf s q).sp) : Wrote j A P R s (modSp s q f) where
  frame := rfl
  jobs _ _ _ := rfl
  own x hx := ⟨x, hx, .refl x⟩
  bytes _ hk _ := paByte_congr hk (fun _ => rfl) (fun _ => rfl) rfl rfl rfl
  spires r hr := spOf_modSp_ne (fun h => hr (h ▸ hP))
  scratch r hr := by
    by_cases hqr : q = r
    · subst hqr
      rw [spOf_modSp_self]
      exact hR.resolve_left hr
    · rw [spOf_modSp_ne hqr]
  dis _ _ := rfl

end

theorem sp_settle (x : Spire) : (settle x).sp = x.sp := by
  unfold settle
  simp only [apply_ite Spire.sp, ite_self]

theorem sp_noteFirst (x y : Spire) : (noteFirst x y).sp = y.sp := by
  unfold noteFirst
  split
  · split <;> rfl
  · rfl

section
variable {j : Nat} {A P R : Nat → Prop} {s t : State} {y : Job}

/-- The waits of a job's spires are tested again: no scratchpad changes. -/
theorem wrote_recvRetest (hj : jobOf s j = some y) (hP : ∀ q ∈ y.place, P q) : Wrote j A P R s (recvRetest s j) := by
  unfold recvRetest
  rw [hj]
  refine foldl_keeps (P := Wrote j A P R s) (fun t q hq ht => ?_) .refl
  split
  · exact ht.trans (wrote_modSp (hP q (List.mem_eraseDups.mp hq)) (.inr ((sp_settle _).trans (sp_noteFirst ..))))
  · exact ht

/-- One more run of writes of the job. -/
theorem Wrote.vaPutReq (h : Wrote j A P R s t) (hj : jobOf s j = some y) {va : Nat} {bs : List Nat} (hA : ∀ a, RunAt s y va bs.length a → A a) :
    Wrote j A P R s (vaPutReq t j va bs) := by
  obtain ⟨z, hz, hyz⟩ := h.own y hj
  exact h.trans ((wrote_vaPutReq hz).mono fun a ha => hA a (ha.congr fun va => (h.xlate z va).trans (hyz.xlate s va)))

theorem Wrote.vaPut (h : Wrote j A P R s t) (hj : jobOf s j = some y) {va : Nat} {bs : List Nat} (hA : ∀ a, RunAt s y va bs.length a → A a) :
    Wrote j A P R s (vaPut t j va bs) := by
  obtain ⟨z, hz, hyz⟩ := h.own y hj
  exact h.trans ((wrote_vaPut hz).mono fun a ha => hA a (ha.congr fun va => (h.xlate z va).trans (hyz.xlate s va)))

theorem Wrote.vaZero (h : Wrote j A P R s t) (hj : jobOf s j = some y) {va n : Nat} (hA : ∀ a, RunAt s y va n a → A a) :
    Wrote j A P R s (vaZero t j va n) := by
  obtain ⟨z, hz, hyz⟩ := h.own y hj
  exact h.trans ((wrote_vaZero hz).mono fun a ha => hA a (ha.congr fun va => (h.xlate z va).trans (hyz.xlate s va)))

theorem Wrote.mapSet (h : Wrote j A P R s t) (hj : jobOf s j = some y) {g : Grp} {m slot : Nat} {v : Bool}
    (hA : ∀ a, RunAt s y (mapVa g m slot) 8 a → A a) : Wrote j A P R s (mapSet t j g m slot v) := by
  unfold Machine.mapSet
  split
  · exact h
  · exact h.vaPutReq hj (by rwa [length_leBytes])

end

/-! A piece lands in a slot. -/

/-- The addresses that a landing writes. -/
def LandAt (s : State) (y : Job) (g : Grp) (slot n a : Nat) : Prop := ∃ r ∈ landAcc g slot 0 n true, RunAt s y r.1 r.2 a

/-- The spires that it changes. -/
def LandSp (y : Job) (g : Grp) (q : Nat) : Prop := q ∈ y.place ∨ q = raSpire y g

section
variable {s t : State} {j slot n : Nat} {y : Job} {g : Grp}

theorem landAt_slot {r : Nat × Nat} (hr : r ∈ slotAcc g slot) {a : Nat} (h : RunAt s y r.1 r.2 a) : LandAt s y g slot n a :=
  ⟨r, List.mem_append_left _ hr, h⟩

/-- The bytes of the slot itself, where it is in job memory. -/
theorem landAt_data (hra : g.raSp = false) {off len a : Nat} (hlen : off + len ≤ slotCap g)
    (h : RunAt s y ((g.raBase + slot * g.slotUnits) * 256 + off) len a) : LandAt s y g slot n a := by
  have hcap : slotCap g - 0 ≠ 0 := by
    obtain ⟨o, ho, _⟩ := h
    omega
  refine ⟨((g.raBase + slot * g.slotUnits) * 256 + 0, slotCap g - 0), List.mem_append_right _ ?_, h.mono (by omega) (by omega)⟩
  rw [if_pos rfl, if_neg (by simpa [hra] using hcap)]
  exact List.mem_singleton_self _

/-- The piece's bytes. -/
theorem wrote_landBytes (hj : jobOf s j = some y) (bs : List Nat) :
    Wrote j (LandAt s y g slot n) (LandSp y g) (fun _ => g.raSp = true) s (landBytes s j y g slot 0 bs) := by
  unfold landBytes raPut
  dsimp only
  split
  next hra => exact wrote_modSp (.inr rfl) (.inl hra)
  next hra =>
    refine Wrote.vaPutReq .refl hj fun a ha => landAt_data (Bool.eq_false_iff.mpr hra) ?_ ha
    rw [List.length_take]
    omega

/-- The zeros after them. -/
theorem wrote_raZero (h : Wrote j (LandAt s y g slot n) (LandSp y g) (fun _ => g.raSp = true) s t) (hj : jobOf s j = some y) {z : Job}
    (hz : SameMap y z) {off : Nat} (hoff : off ≤ slotCap g) :
    Wrote j (LandAt s y g slot n) (LandSp y g) (fun _ => g.raSp = true) s (raZero t j z g slot off) := by
  have hspire : raSpire z g = raSpire y g := by
    obtain ⟨_, _, _, _, rfl⟩ := hz
    rfl
  unfold raZero
  dsimp only
  split
  · exact h
  · split
    next hra => exact h.trans (wrote_modSp (.inr hspire) (.inl hra))
    next hra => exact h.vaZero hj fun a ha => landAt_data (Bool.eq_false_iff.mpr hra) (by omega) ha

/-- A whole piece. -/
theorem wrote_landing (hj : jobOf s j = some y) (bs : List Nat) :
    Wrote j (LandAt s y g slot n) (LandSp y g) (fun _ => g.raSp = true) s (landEnd (landBytes s j y g slot 0 bs) j g slot bs.length) := by
  have hbytes := wrote_landBytes (n := n) (g := g) (slot := slot) hj bs
  obtain ⟨z, hz, hyz⟩ := hbytes.own y hj
  have hslot : ∀ r ∈ slotAcc g slot, ∀ a, RunAt s y r.1 r.2 a → LandAt s y g slot n a := fun r hr a => landAt_slot hr
  unfold landEnd
  rw [hz]
  dsimp only
  have hzero := wrote_raZero hbytes hj hyz (off := min bs.length (slotCap g)) (Nat.min_le_right ..)
  have hword := hzero.vaPutReq hj (va := slotVa g slot) (bs := leBytes 8 (min bs.length (slotCap g) + (bs.length - min bs.length (slotCap g)) * 2 ^
      32))
    fun a ha => hslot (slotVa g slot, 8) (by simp [slotAcc]) a (by rwa [length_leBytes] at ha)
  have hmaps := (hword.mapSet hj (g := g) (m := 1) (slot := slot) (v := false) fun a ha => hslot (mapVa g 1 slot, 8) (by simp [slotAcc]) a
      ha).mapSet hj
    (g := g) (m := 0) (slot := slot) (v := true) fun a ha => hslot (mapVa g 0 slot, 8) (by simp [slotAcc]) a ha
  have hcount := hmaps.trans (wrote_modJob (f := fun x => ctrAdd (ctrAdd x .fabPieces 1) .fabDropBytes (bs.length - min bs.length (slotCap g)))
    (fun x => ⟨_, _, _, _, rfl⟩) (.inl rfl))
  obtain ⟨v, hv, hyv⟩ := hcount.own y hj
  refine hcount.trans (wrote_recvRetest hv fun q hq => .inl ?_)
  obtain ⟨_, _, _, _, rfl⟩ := hyv
  exact hq

end

/-! What an access finds is as it was before the instruction was issued. -/

section
variable {s t : State} {p w : Nat} {i : Iss} {d : DataOp}

theorem Landed.xlate (h : Landed s p i d t) (x : Job) (va : Nat) : xlate t x va = xlate s x va := by
  refine SameVaults.xlate ⟨?_, fun v c => ?_⟩ x va
  · rw [h.frame]
  · rw [h.frame]
    rfl

theorem Landed.gcmOk (h : Landed s p i d t) (hj : jobOf s i.j = some i.y) (v : Win) (off len : Nat) (wr : Bool) :
    gcmOk t v off len wr = gcmOk s v off len wr := by
  have hunit : ∀ key k base len n zeroOk, gcmUnit t key k base len n zeroOk = gcmUnit s key k base len n zeroOk := by
    intro key k base len n zeroOk
    rw [h.frame]
    rfl
  have hv := h.keys hj v.job
  unfold Machine.gcmOk jobHandle
  simp only [hunit]
  cases ht : jobOf t v.job <;> cases hs : jobOf s v.job <;> rw [ht, hs] at hv
  · exact (nomatch hv)
  · exact (nomatch hv)
  · obtain ⟨hkt, hhandle⟩ := Prod.mk.inj (Option.some.inj hv)
    simp only [hkt, hhandle, Option.map_some]

theorem Landed.pageBad (h : Landed s p i d t) (hj : jobOf s i.j = some i.y) (x : Job) (wr : Bool) (va len : Nat) :
    pageBad t x wr va len = pageBad s x wr va len := by
  have hwins : t.wins = s.wins := by rw [h.frame]
  have hwin : ∀ pa, winBad t pa len wr = winBad s pa len wr := fun pa => by
    unfold winBad
    simp only [hwins, h.gcmOk hj]
  have hfar : ∀ pa, farBad t pa len = farBad s pa len := fun pa => by
    rw [h.frame]
    rfl
  unfold Machine.pageBad
  simp only [h.xlate, hwin, hfar]

theorem Landed.accAll (h : Landed s p i d t) (hj : jobOf s i.j = some i.y) (x : Job) (rds wrs : List (Nat × Nat)) :
    accAll t x rds wrs = accAll s x rds wrs := by
  unfold Machine.accAll accBad
  simp only [h.pageBad hj]

theorem Landed.ctlBad (h : Landed s p i d t) (hj : jobOf s i.j = some i.y) (x : Job) (rds wrs : List (Nat × Nat)) :
    ctlBad t x rds wrs = ctlBad s x rds wrs := by
  unfold Machine.ctlBad accTier
  rw [h.accAll hj]

theorem Landed.slotArmed (h : Landed s p i d t) (hj : jobOf s i.j = some i.y) (x : Job) (g : Grp) (slot : Nat) :
    slotArmed t x g slot = slotArmed s x g slot := by
  have hbyte : ∀ va, vaByte t x va = vaByte s x va := fun va => by
    unfold vaByte
    simp only [h.xlate, h.paByte hj]
  have hbytes : vaByte t x = vaByte s x := funext hbyte
  unfold Machine.slotArmed mapBit
  rw [hbytes]

/-- A fresh identifier is given out besides. -/
theorem Landed.fresh (h : Landed s p i d t) (n : Nat) : Landed s p i d { t with ids := n } :=
  { frame := by rw [h.frame]
    jobs := h.jobs, own := h.own, spires := h.spires, scratch := h.scratch, infl := h.infl, seq := h.seq, writes := h.writes }

/-- An instruction without an effect of its own issues no write and leaves its job. -/
theorem Landed.writes_none (h : Landed s p i d t) (hd : d.eff = effNone) : t.writes = s.writes := by
  obtain ⟨l, hl, hmap, _⟩ := h.writes
  rw [hd] at hmap
  rw [hl, List.map_eq_nil_iff.mp hmap, List.append_nil]

theorem Landed.scratch_none (h : Landed s p i d t) (hd : d.eff = effNone) (q : Nat) : (spOf t q).sp = (spOf s q).sp := by
  by_cases hq : q = p
  · rw [hq, h.scratch, hd]
    rfl
  · rw [h.spires q hq]

theorem jobOf_landEff_none {j lsp seq : Nat} {y : Job} (hj : jobOf s j = some y) : jobOf (landEff s p j lsp seq effNone) j = some y := by
  have heff : landEff s p j lsp seq effNone = modJob (modSp s p fun x => { x with sp := x.sp }) j fun x => x := rfl
  have hj : jobOf (modSp s p fun x => { x with sp := x.sp }) j = some y := hj
  rw [heff, modJob_of_job _ hj, jobOf_setJob_self]

theorem jobOf_dataLand_none (hj : jobOf s i.j = some i.y) (hd : d.eff = effNone) : jobOf (dataLand s p i w d) i.j = some i.y := by
  unfold dataLand
  rw [hd]
  exact jobOf_landEff_none hj

end

/-! The pins of the entries of shared prefixes. -/

/-- The addresses of the entries of the plan's shared prefixes. -/
def EntryAt (s : State) (y : Job) (a : Nat) : Prop := ∃ e ∈ y.plan.prefixes, RunAt s y e.entry 16 a

theorem mem_pfxTouched {y : Job} {rs : List (Nat × Nat)} {a : Nat} (h : a ∈ pfxTouched y rs) : ∃ e ∈ y.plan.prefixes, e.entry = a := by
  unfold pfxTouched at h
  obtain ⟨v, _, hv⟩ := List.mem_filterMap.mp (List.mem_eraseDups.mp h)
  obtain ⟨e, he, rfl⟩ := Option.map_eq_some_iff.mp hv
  exact ⟨e, List.mem_of_find?_eq_some he, rfl⟩

section
variable {s t : State} {j : Nat} {y : Job} {es : List Nat} {up : Bool} {P R : Nat → Prop}

theorem wrote_pfxPin (hj : jobOf s j = some y) (hes : ∀ a ∈ es, ∃ e ∈ y.plan.prefixes, e.entry = a) :
    Wrote j (EntryAt s y) P R s (pfxPin s j es up) := by
  refine foldl_keeps (P := Wrote j (EntryAt s y) P R s) (fun t a ha ht => ?_) .refl
  obtain ⟨e, he, rfl⟩ := hes a ha
  split
  · unfold pfxPut pfxSet
    exact ht.vaPut hj fun b hb => ⟨e, he, by rwa [length_leBytes] at hb⟩
  · exact ht

theorem sameButMemory_pfxPin (s : State) (j : Nat) (es : List Nat) (up : Bool) : SameButMemory s (pfxPin s j es up) := by
  refine foldl_keeps (P := SameButMemory s) (fun t a _ ht => ?_) (.refl s)
  split
  · refine ht.trans (foldl_keeps (P := SameButMemory t) (fun u l _ hu => ?_) (.refl t))
    split
    · split
      · exact hu.trans (sameButMemory_paPut ..)
      · exact hu
    · exact hu
  · exact ht

end

/-- What ATTN does beside its effect: pins are counted and its score buffer takes free values. -/
def attnDone (u : State) (p j : Nat) (pins : List Nat) (b : Td) : State :=
  modSp (freshId (pfxPin u j pins true)).2 p fun x => { x with sp := x.sp.mark b.base (tdEnd b - b.base) (freshId (pfxPin u j pins true)).1 }

theorem attnOp_post (s : State) (p : Nat) (i : Iss) (w : Nat) : (attnOp s p i w).post = id
    ∨ ∃ pins, (∀ a ∈ pins, ∃ e ∈ i.y.plan.prefixes, e.entry = a) ∧ ∀ u, (attnOp s p i w).post u = attnDone u p i.j pins (tdF i.c w 103 98) := by
  by_cases hm : sF i.c w 80 76 = 0
  · exact .inl (funext fun u => if_pos hm)
  · refine .inr ⟨_, fun a ha => ?_, fun u => if_neg hm⟩
    rw [if_neg hm] at ha
    exact mem_pfxTouched ha

section
variable {s u : State} {p : Nat} {i : Iss} {d : DataOp} {pins : List Nat} {b : Td}

/-- ATTN's frame where it pins. -/
theorem attnDone_frame (h : Landed s p i d u) (hj : jobOf s i.j = some i.y) (hpins : ∀ a ∈ pins, ∃ e ∈ i.y.plan.prefixes, e.entry = a) :
    let t := attnDone u p i.j pins b
    t = { s with spires := t.spires, jobs := t.jobs, writes := t.writes, ids := t.ids, mem := t.mem, far := t.far, hmem := t.hmem, vchans :=
        t.vchans }
    ∧ (i.y.plan.prefixes = [] → t = { s with spires := t.spires, jobs := t.jobs, writes := t.writes, ids := t.ids })
    ∧ (∀ pa, paKind pa ≠ .window → ¬ EntryAt s i.y pa → paByte t pa = paByte s pa)
    ∧ (∀ a, (∀ v ∈ d.eff.wr, v.space = 0 → a < v.addr ∨ v.addr + v.data.length ≤ a) → (a < b.base ∨ tdEnd b ≤ a) →
        (spOf t p).sp.get a = (spOf s p).sp.get a)
    ∧ (∀ q, q ≠ p → spOf t q = spOf s q) ∧ (∀ k, k ≠ i.j → (∀ v ∈ s.wins, v.2.job ≠ k) → jobOf t k = jobOf s k)
    ∧ (spOf t p).infl = (spOf u p).infl ∧ (spOf t p).seq = (spOf u p).seq ∧ t.writes = u.writes := by
  intro t
  obtain ⟨z, hz, hyz⟩ := h.own
  have hprefix : z.plan.prefixes = i.y.plan.prefixes := by
    obtain ⟨_, _, _, _, rfl⟩ := hyz
    rfl
  have hpin : Wrote i.j (EntryAt s i.y) (fun _ => False) (fun _ => False) u (pfxPin u i.j pins true) :=
    (wrote_pfxPin hz (hprefix.symm ▸ hpins)).mono fun a ⟨e, he, ha⟩ => ⟨e, hprefix ▸ he, ha.congr fun va => (h.xlate z va).trans (hyz.xlate s va)⟩
  have hspires : ∀ q, spOf (pfxPin u i.j pins true) q = spOf u q := fun q => hpin.spires q not_false
  have hself : spOf t p = { spOf u p with sp := (spOf u p).sp.mark b.base (tdEnd b - b.base) (freshId (pfxPin u i.j pins true)).1 } := by
    refine (spOf_modSp_self ..).trans ?_
    exact congrArg (fun x : Spire => { x with sp := x.sp.mark b.base (tdEnd b - b.base) (freshId (pfxPin u i.j pins true)).1 }) (hspires p)
  refine ⟨?_, fun hnone => ?_, fun pa hk ha => ?_, fun a ha hb => ?_, fun q hq => ?_, fun k hk hw => ?_, ?_, ?_, ?_⟩
  · obtain ⟨mem, far, hmem, vchans, jobs, spires, hsame⟩ := sameButMemory_pfxPin u i.j pins true
    have hdone : t = { pfxPin u i.j pins true with spires := t.spires, ids := t.ids } := rfl
    rw [hdone, hsame, h.frame]
  · have hpins : pins = [] := List.eq_nil_iff_forall_not_mem.mpr fun a ha => by
      obtain ⟨e, he, _⟩ := hpins a ha
      rw [hnone] at he
      exact (nomatch he)
    have hdone : t = { pfxPin u i.j pins true with spires := t.spires, ids := t.ids } := rfl
    have hsame : pfxPin u i.j pins true = u := by
      rw [hpins]
      rfl
    rw [hdone, hsame, h.frame]
  · exact (paByte_congr hk (fun _ => rfl) (fun _ => rfl) rfl rfl rfl).trans ((hpin.bytes pa hk ha).trans (h.paByte hj pa))
  · rw [hself]
    exact (Store.mark_get (by omega)).trans (h.scratch_get ha)
  · exact (spOf_modSp_ne (Ne.symm hq)).trans ((hspires q).trans (h.spires q hq))
  · refine (hpin.jobs k hk ?_).trans (h.jobs k hk)
    rw [h.frame]
    exact hw
  · rw [hself]
  · rw [hself]
  · have hwrites : (pfxPin u i.j pins true).writes = u.writes := by rw [hpin.frame]
    exact hwrites

end

/-! XSEND. -/

/-- The state in which the piece of an XSEND is sent. -/
def sendReady (s : State) (p : Nat) (i : Iss) (w : Nat) : State := (freshId (dataLand s p i w (xsendOp [] s p i w))).2

/-- The bytes of the piece. -/
def sendBytes (s : State) (p : Nat) (i : Iss) (w : Nat) : List Nat :=
  rdBytes (rdI (dataLand s p i w (xsendOp [] s p i w)) p i (tdF i.c w 127 122).space) (tdF i.c w 127 122).base (sF i.c w 107 103 % 2 ^ 32)

theorem dataGo_xsend {s : State} {p w : Nat} {i : Iss} {g : Grp} {l : SendTo} (hto : sendTo i w = some (g, l))
    (hgood : accAll s i.y (xsendOp [] s p i w).vrd [] = none) :
    dataGo s p i w (xsendOp [] s p i w) = sendPiece (sendReady s p i w) p i w (s.ids + 1) g l (sendBytes s p i w) := by
  have hpost : ∀ u, (xsendOp [] s p i w).post u = sendPiece (freshId u).2 p i w (s.ids + 1) g l
      (rdBytes (rdI u p i (tdF i.c w 127 122).space) (tdF i.c w 127 122).base (sF i.c w 107 103 % 2 ^ 32)) := fun u => by
    unfold xsendOp
    simp only [hto, List.any_nil]
  exact (dataGo_of_good hgood).trans (hpost _)

theorem landed_sendReady {s : State} {p w : Nat} {i : Iss} (hi : issOf s p w = some i) : Landed s p i (xsendOp [] s p i w) (sendReady s p i w) :=
  (landed_dataLand hi _).fresh _

theorem jobOf_sendReady {s : State} {p w : Nat} {i : Iss} (hi : issOf s p w = some i) : jobOf (sendReady s p i w) i.j = some i.y :=
  jobOf_dataLand_none (issOf_job hi) rfl

theorem sends_foldl (pi : Nat) (s : State) (l : List OutFr) : Sends pi s (l.foldl (fun s f => portSend s pi f) s) :=
  foldl_keeps (P := Sends pi s) (fun _ _ _ h => h.trans (sends_portSend ..)) (.refl pi s)

/-- The port by which a piece leaves. -/
def sendPort (i : Iss) (w : Nat) : SendTo → Nat
  | .dev d => pairPort i.y.l d
  | .switch => fld w 121 118 % 4

/-- The job of the piece notes its send. -/
structure NotesSend (i : Iss) (u v : State) : Prop where
  frame : v = { u with jobs := v.jobs }
  others : ∀ k, k ≠ i.j → jobOf v k = jobOf u k
  job : ∃ sent parts, jobOf v i.j = some { i.y with sent := sent, redParts := parts }

theorem notesSend_modJob {u v : State} {i : Iss} {f : Job → Job} (h : NotesSend i u v)
    (hf : ∀ y, ∃ sent parts, f y = { y with sent := sent, redParts := parts }) : NotesSend i u (modJob v i.j f) where
  frame := by
    obtain ⟨jobs, hmod⟩ := modJob_frame v i.j f
    rw [hmod, h.frame]
  others k hk := (jobOf_modJob_ne (Ne.symm hk)).trans (h.others k hk)
  job := by
    obtain ⟨sent, parts, hv⟩ := h.job
    obtain ⟨sent', parts', hy⟩ := hf { i.y with sent := sent, redParts := parts }
    exact ⟨sent', parts', by rw [modJob_of_job _ hv, jobOf_setJob_self, hy]⟩

/-- A piece for another member or the switch: its job notes the send, its port sends. -/
theorem sendPiece_away {u : State} {p w id : Nat} {i : Iss} {g : Grp} {l : SendTo} {bs : List Nat} (hj : jobOf u i.j = some i.y)
    (hl : l ≠ .dev i.y.l) :
    ∃ v, NotesSend i u v ∧ Sends (sendPort i w l) v (sendPiece u p i w id g l bs) := by
  have hsame : NotesSend i u u := ⟨rfl, fun _ _ => rfl, i.y.sent, i.y.redParts, hj⟩
  unfold sendPiece
  cases l with
  | dev d =>
    have hd : d ≠ i.y.l := fun h => hl (h ▸ rfl)
    dsimp only
    rw [if_neg hd]
    exact ⟨_, notesSend_modJob hsame fun y => ⟨_, _, rfl⟩, sends_foldl ..⟩
  | switch => exact ⟨_, notesSend_modJob (notesSend_modJob hsame fun y => ⟨_, _, rfl⟩) fun y => ⟨_, _, rfl⟩, sends_foldl ..⟩

/-- The frame of an XSEND whose piece leaves the device. -/
theorem away_frame {s u v t : State} {p w : Nat} {i : Iss} {d : DataOp} {l : SendTo} (hland : Landed s p i d u) (hd : d.eff = effNone)
    (hnote : NotesSend i u v) (hsends : Sends (sendPort i w l) v t) :
    t = { s with spires := t.spires, jobs := t.jobs, ports := t.ports, fabOut := t.fabOut, ids := t.ids }
    ∧ (∀ q, q ≠ p → spOf t q = spOf s q) ∧ (spOf t p).sp = (spOf s p).sp ∧ (spOf t p).infl.length = i.x.infl.length + 1
    ∧ (∀ j, j ≠ i.j → jobOf t j = jobOf s j) ∧ (∃ sent parts, jobOf t i.j = some { i.y with sent := sent, redParts := parts })
    ∧ (∀ pi, pi ≠ sendPort i w l → portOf t pi = portOf s pi) := by
  have hu : u = { s with spires := u.spires, jobs := u.jobs, ids := u.ids } := by
    have hframe := hland.frame
    rw [hland.writes_none hd] at hframe
    exact hframe
  obtain ⟨ports, out, hports⟩ := hsends.ports
  have hspires : ∀ q, spOf t q = spOf u q := fun q => by
    rw [hports, hnote.frame]
    rfl
  have hjobs : ∀ k, jobOf t k = jobOf v k := fun k => by
    rw [hports]
    rfl
  refine ⟨?_, fun q hq => (hspires q).trans (hland.spires q hq), ?_, ?_, fun k hk => (hjobs k).trans ((hnote.others k hk).trans (hland.jobs k hk)),
      ?_,
    fun pi hpi => (hsends.others pi hpi).trans ?_⟩
  · rw [hports, hnote.frame, hu]
  · rw [hspires p, hland.scratch_none hd]
  · rw [hspires p, hland.infl]
  · rw [hjobs]
    exact hnote.job
  · rw [hnote.frame, hu]
    rfl

theorem sendPiece_own (u : State) (p : Nat) (i : Iss) (w id : Nat) (g : Grp) (bs : List Nat) (lost : Bool) :
    sendPiece u p i w id g (.dev i.y.l) bs lost = landLocal u i.j (fld w 121 118) g (sF i.c w 112 108) bs lost := if_pos rfl

/-- A piece for this device lands where its slot is armed, nothing lands there and its accesses are good. -/
theorem landLocal_lands {u : State} {j gi slot : Nat} {y : Job} {g : Grp} {bs : List Nat} (hj : jobOf u j = some y)
    (hctl : ctlBad u y (slotAcc g slot) [] = none)
    (harmed : slotArmed u y g slot = true) (hfree : u.landings.any (fun t => decide (t.job = j) && decide (t.group = gi) && decide (t.slot = slot))
        = false)
    (hacc : accAll u y [] (landAcc g slot 0 bs.length true) = none) :
    landLocal u j gi g slot bs false = landEnd (landBytes u j y g slot 0 bs) j g slot bs.length := by
  unfold landLocal
  rw [hj]
  dsimp only
  rw [hctl]
  dsimp only
  rw [if_neg Bool.false_ne_true, harmed, hfree]
  refine (if_neg (by simp)).trans ?_
  unfold landChk
  rw [hacc]
  rfl

/-- The frame of an XSEND whose piece lands here. -/
theorem own_frame {s u t : State} {p slot n : Nat} {i : Iss} {g : Grp} {d : DataOp} (hj : jobOf s i.j = some i.y) (hland : Landed s p i d u)
    (hd : d.eff = effNone)
    (hwrote : Wrote i.j (LandAt u i.y g slot n) (LandSp i.y g) (fun _ => g.raSp = true) u t) :
    t = { s with spires := t.spires, jobs := t.jobs, mem := t.mem, far := t.far, hmem := t.hmem, vchans := t.vchans, wbulk := t.wbulk, ids := t.ids }
    ∧ (∀ j, j ≠ i.j → (∀ k ∈ s.wins, k.2.job ≠ j) → jobOf t j = jobOf s j)
    ∧ (∀ q, q ≠ p → q ∉ i.y.place → q ≠ raSpire i.y g → spOf t q = spOf s q)
    ∧ (g.raSp = false → ∀ q, (spOf t q).sp = (spOf s q).sp)
    ∧ (∀ pa, paKind pa ≠ .window →
        (∀ r ∈ landAcc g slot 0 n true, ∀ o, o < r.2 → (xlate s i.y (r.1 + o)).map (·.2) ≠ some pa) → paByte t pa = paByte s pa) := by
  have hu : u = { s with spires := u.spires, jobs := u.jobs, ids := u.ids } := by
    have hframe := hland.frame
    rw [hland.writes_none hd] at hframe
    exact hframe
  refine ⟨?_, fun k hk hw => (hwrote.jobs k hk ?_).trans (hland.jobs k hk), fun q hq hplace hra => ?_, fun hra q => ?_, fun pa hk hout => ?_⟩
  · rw [hwrote.frame, hu]
  · rw [hu]
    exact hw
  · exact (hwrote.spires q (not_or_intro hplace hra)).trans (hland.spires q hq)
  · exact (hwrote.scratch q (Bool.eq_false_iff.mp hra)).trans (hland.scratch_none hd q)
  · refine (hwrote.bytes pa hk ?_).trans (hland.paByte hj pa)
    rintro ⟨r, hr, o, ho, hpa⟩
    exact hout r hr o ho (hland.xlate .. ▸ hpa)

/-- Settles O16. -/
theorem dataInstructionFrame : Obligations.DataInstructionFrame := by
  refine ⟨fun s p w i d hi hgood hpost => ?effect, post_eq_id, fun s p w i hi => ?attn, fun s p w i g l hi hto hgood hl => ?away,
    fun s p w i g hi hto => ?own⟩
  case effect =>
    have hland := dataGo_frame hi hgood hpost
    exact ⟨hland.frame, hland.paByte (issOf_job hi), fun a ha => hland.scratch_get ha, hland.dataFrame⟩
  case attn =>
    intro d b t hgood
    have hj : jobOf s i.j = some i.y := issOf_job hi
    have hland : Landed s p i d (dataLand s p i w d) := landed_dataLand hi d
    have ht : t = d.post (dataLand s p i w d) := dataGo_of_good hgood
    rcases attnOp_post s p i w with hpost | ⟨pins, hpins, hpost⟩
    · have hland : Landed s p i d t := dataGo_frame hi hgood hpost
      refine ⟨?_, fun _ => hland.frame, fun pa _ _ => hland.paByte hj pa, fun a ha _ => hland.scratch_get ha, hland.dataFrame⟩
      rw [hland.frame]
    · rw [ht.trans (hpost _)]
      obtain ⟨hframe, hnone, hbytes, hscratch, hspires, hjobs, hinfl, hseq, hwrites⟩ := attnDone_frame (b := b) hland hj hpins
      refine ⟨hframe, hnone, fun pa hk ha => hbytes pa hk ?_, hscratch, hspires, fun k hk hor => ?_, ?_, hseq.trans hland.seq, ?_⟩
      · rintro ⟨e, he, o, ho, hpa⟩
        exact ha e he o ho hpa
      · rcases hor with hw | hid
        · exact hjobs k hk hw
        · rw [← hpost, hid]
          exact hland.jobs k hk
      · rw [hinfl, hland.infl]
      · rw [hwrites]
        exact hland.writes
  case away =>
    intro t port
    obtain ⟨v, hnote, hsends⟩ := sendPiece_away (p := p) (w := w) (id := s.ids + 1) (g := g) (bs := sendBytes s p i w) (jobOf_sendReady hi) hl
    rw [← dataGo_xsend hto hgood] at hsends
    exact away_frame (landed_sendReady hi) rfl hnote hsends
  case own =>
    intro slot n t hgood hctl harmed hfree hacc
    have hj : jobOf s i.j = some i.y := issOf_job hi
    have hland := landed_sendReady hi
    have hidle : (sendReady s p i w).landings.any (fun t => decide (t.job = i.j) && decide (t.group = fld w 121 118) && decide (t.slot = slot)) =
        false := by
      rw [hland.frame, List.any_eq_false]
      exact fun l hl => by simpa [and_assoc] using hfree l hl
    have hlands := landLocal_lands (bs := sendBytes s p i w) (jobOf_sendReady hi) ((hland.ctlBad hj ..).trans hctl) ((hland.slotArmed hj ..).trans
        harmed)
      hidle ((hland.accAll hj ..).trans hacc)
    have ht : t = _ := (dataGo_xsend hto hgood).trans ((sendPiece_own ..).trans hlands)
    rw [ht]
    exact own_frame hj hland rfl (wrote_landing (n := n) (jobOf_sendReady hi) _)

end Sys2Proof.Machine
end
